-- ==== Sys2Proof/Word.lean ====
section
/-! DEFINITION. Words, sparse maps and the fixed sets of names that the Zofen's spec uses. -/

namespace Sys2Proof

abbrev Byte := BitVec 8
abbrev Word32 := BitVec 32
abbrev Word := BitVec 64
/-- A vector register's 1,024 bits (02 R24). -/
abbrev VWord := BitVec 1024

/-- A sparse map with natural-number keys, held in rising key order. -/
abbrev SMap (α : Type) := List (Nat × α)

/-- The cause codes of 19 R324. -/
inductive Cause
  | illegal | rsvd | format | lanes | feEmpty | priv | segsize | seghdr
  | rangeMiss | rangePerm | residency | spforeign | clforeign | align | window
  | poisonConsume | coreUe | copyFault | phaserFault | bucketErr | trapSw | watch
  | linkLost | coreFrozen | placement | layout
  deriving DecidableEq, Repr

/-- The 8-bit code of a cause (19 R324). -/
def Cause.code : Cause → Byte
  | .illegal => 0x01 | .rsvd => 0x02 | .format => 0x03 | .lanes => 0x04
  | .feEmpty => 0x05 | .priv => 0x06 | .segsize => 0x07 | .seghdr => 0x08
  | .rangeMiss => 0x10 | .rangePerm => 0x11 | .residency => 0x12 | .spforeign => 0x13
  | .clforeign => 0x14 | .align => 0x15 | .window => 0x16
  | .poisonConsume => 0x20 | .coreUe => 0x21
  | .copyFault => 0x30 | .phaserFault => 0x31 | .bucketErr => 0x32
  | .trapSw => 0x40 | .watch => 0x41
  | .linkLost => 0x50 | .coreFrozen => 0x51 | .placement => 0x60 | .layout => 0x61

/-- Registers of a fontanier context's block (14 R242). -/
inductive CtxReg
  | cpbase | cpsize | head | tail | pbase | cstat | cctl | csem (n : Nat) | skewlate
  deriving DecidableEq, Repr

/-- Registers of an error log (21 R347). -/
inductive LogReg
  | elbase | elsize | elhead | eltail | eldrop
  deriving DecidableEq, Repr

/-- Registers of a partition's block (15 R263, R275; 19 R335; 21 R347; 14 R258, R260). -/
inductive PartReg
  | rtbase | rtcap | rtn | leasens | round
  | cmpva | cmpoff | cmpctl | cmpstat
  | wbase (n : Nat) | wctl (n : Nat)
  | log (r : LogReg) | forcedfrz | swaplate
  deriving DecidableEq, Repr

/-- Device-wide registers (14 R247; 21 R347; 23 R362, R368, R370). An island's is its frequency step. -/
inductive DevReg
  | skew (die kind : Nat) | log (r : LogReg) | island (i : Nat)
  | bootgo | bootstat | fwsvn | funcmode | pcap | pscale | pwr | capevt
  deriving DecidableEq, Repr

/-- The counters kept per pseudo-channel, second-tier channel or link end (21 R346, R355). -/
inductive ChanReg
  | linkCe | tsvifCe | arrayCe | arrayUe | scrubCe | scrubUe | alerts | bankBackoff | pcfailed
  deriving DecidableEq, Repr

/-- Registers of a basin die (11 R227; 16 R292; 21 R346, R350, R352). -/
inductive BasinReg
  | duprej | bkheld | bkstale | staleRsp | scrubper | mth | chan (pc : Nat) (r : ChanReg)
  deriving DecidableEq, Repr

/-- Registers of a compute die (11 R227; 19 R339; 21 R346, R355). -/
inductive DieReg
  | staleRsp | scrubper | reset | chan (c : Nat) (r : ChanReg)
  deriving DecidableEq, Repr

/-- Counters of an L2 slice (11 R227; 17 R312). -/
inductive SliceReg
  | sfovf | recalls | jevdrop | jkill | jfwddrop
  deriving DecidableEq, Repr

/-- Any register that software reaches outside a core: the register blocks of BAR0, BAR2 and the
device-register window (23 R360). -/
inductive RegAddr
  | ctx (k : Nat) (r : CtxReg)
  | part (p : Nat) (r : PartReg)
  | dev (r : DevReg)
  | basin (b : Nat) (r : BasinReg)
  | die (d : Nat) (r : DieReg)
  | slice (s : Nat) (r : SliceReg)
  /-- The count of segment overruns of a core, which telemetry shows (09 R198). -/
  | overruns (core : Nat)
  deriving DecidableEq, Repr

/-- Who performs a register access from outside the cores: a PCIe function (0 the physical function, n + 1
virtual function n; 14 R256) or the side-band port (23 R367). -/
inductive Requester
  | function (f : Nat) | sideband
  deriving DecidableEq, Repr

/-- The events of a jet handler (17 R308). -/
inductive JetEvent
  | miss | fill | evict | msg
  deriving DecidableEq, Repr

/-- An entry of a partition's context list, 14 R256. -/
structure ContextEntry where
  valid : Bool
  func : Nat
  hmax : Nat
  slice : Nat
  plimit : Nat
  rate : Nat
  ceil : Nat
  underlim : Nat
  deriving DecidableEq, Repr

/-- A jet handler table entry, 17 R307. -/
structure JetHandler where
  misspc : Nat
  fillpc : Nat
  evictpc : Nat
  msgpc : Nat
  budget : Nat
  winbase : Nat
  winsize : Nat
  reserved : Nat
  imageva : Nat
  deriving DecidableEq, Repr

/-- A replayed object's descriptor, 17 R314. -/
structure ObjectDesc where
  obj : Nat
  nmeth : Nat
  home : Nat
  reserved : Nat
  size : Nat
  mbits : Nat
  mbudget : Nat
  codesize : Nat
  stateva : Nat
  codeva : Nat
  entry : List Nat
  deriving DecidableEq, Repr

/-- What the physical function loads as a partition's configuration, 14 R254. -/
structure PartConfig where
  clusters : BitVec 72
  l2ways : BitVec 16
  phdie : Word
  phpkg : Word
  bquant : Nat
  /-- Basin row window on each stack: base row and row count (16 R299). -/
  rowwin : List (Nat × Nat)
  rtbase : Nat
  rtcap : Nat
  /-- The entries of the range table, which the load puts at RTBASE (15 R263, R265). -/
  table : List (BitVec 256)
  leasens : Nat
  quota : Nat
  standby : Nat
  contexts : List (Nat × ContextEntry)
  /-- Jet handler index 1 to 63 (16 R264) with its entry. -/
  handlers : List (Nat × JetHandler)
  objects : List ObjectDesc
  deriving DecidableEq, Repr

/-- A row of another package's all-gather, 16 R301. -/
structure GatherRow where
  part : Nat
  round : Nat
  offset : Nat
  data : BitVec 2048
  pois : Byte
  deriving DecidableEq, Repr

/-- The result of an ECC read of each 32-byte sector of a line (21 R344): none, corrected, detected as
two symbols, detected as more than two, or misread as the given bytes. -/
inductive EccResult
  | clean | corrected | twoSymbols | moreSymbols | misread (data : BitVec 256)
  deriving DecidableEq, Repr

/-- A bucket contribution that another package forwards (16 R289). -/
structure RemoteContribution where
  part : Nat
  handle : Nat
  round : Nat
  id : Nat
  seg : Nat
  data : List (BitVec 32 × Bool)
  deriving DecidableEq, Repr

/-- What cannot be read when a core moves to its spare (19 R336): a scratchpad sector, or a register of a context. -/
inductive Unreadable
  | sector (n : Nat)
  | s (slot n : Nat) | p (slot n : Nat) | v (slot n : Nat) | m (slot n : Nat) | k (slot n : Nat) | w (slot n : Nat)
  | n (slot i : Nat) | acc (slot n : Nat)
  deriving DecidableEq, Repr

end Sys2Proof
end

