-- ==== Sys2Proof/Syntax.lean ====
section
/-! DEFINITION. The instructions and events of spec/opcode_table.json, one constructor per row: slot
instructions with their operand fields, and the events of the device's other agents with what identifies
the agent or the datum that arrives from outside. -/

namespace Sys2Proof

/-- A slot's guard: predicate pg, inverted by pn (03 R45). -/
structure Guard where
  pg : BitVec 3
  pn : Bool
  deriving DecidableEq, Repr

/-- Form SR (03 R45), the function field being part of the constructor. -/
structure SR where
  g : Guard
  d : BitVec 6
  a : BitVec 6
  b : BitVec 6
  ta : Bool
  tb : Bool
  deriving DecidableEq, Repr

/-- CMP and CMPU (05 R90). -/
structure Cmp where
  g : Guard
  d : BitVec 3
  a : BitVec 6
  b : BitVec 6
  ta : Bool
  tb : Bool
  cc : BitVec 2
  deriving DecidableEq, Repr

/-- The unary operations (05 R93). -/
structure Un where
  g : Guard
  d : BitVec 6
  a : BitVec 6
  ta : Bool
  deriving DecidableEq, Repr

/-- The predicate operations (05 R92). -/
structure PP where
  g : Guard
  d : BitVec 3
  a : BitVec 3
  b : BitVec 3
  deriving DecidableEq, Repr

/-- MFP (05 R92). -/
structure MFP where
  g : Guard
  d : BitVec 6
  deriving DecidableEq, Repr

/-- MTP (05 R92). -/
structure MTP where
  g : Guard
  a : BitVec 6
  ta : Bool
  deriving DecidableEq, Repr

/-- Form SF (05 R94); len is the encoded field, one less than the length. -/
structure SF where
  d : BitVec 6
  a : BitVec 6
  pos : BitVec 6
  len : BitVec 6
  deriving DecidableEq, Repr

/-- Form SI (05 R89). -/
structure SI where
  g : Guard
  d : BitVec 6
  a : BitVec 6
  ta : Bool
  imm : BitVec 9
  deriving DecidableEq, Repr

/-- CMPI (05 R90). -/
structure CmpI where
  g : Guard
  d : BitVec 3
  a : BitVec 6
  ta : Bool
  cc : BitVec 3
  imm : BitVec 6
  deriving DecidableEq, Repr

/-- MOVI (05 R95). -/
structure MovI where
  g : Guard
  d : BitVec 6
  imm : BitVec 16
  deriving DecidableEq, Repr

/-- MOVK (05 R95). -/
structure MovK where
  k : BitVec 2
  d : BitVec 6
  imm : BitVec 16
  deriving DecidableEq, Repr

/-- VGET (05 R96). -/
structure VGet where
  g : Guard
  d : BitVec 6
  a : BitVec 6
  ta : Bool
  es : BitVec 2
  idx : BitVec 7
  deriving DecidableEq, Repr

/-- BR (05 R97). -/
structure Branch where
  g : Guard
  tgt : BitVec 8
  deriving DecidableEq, Repr

/-- LOOP (05 R98). -/
structure LoopOp where
  g : Guard
  c : BitVec 6
  tgt : BitVec 8
  deriving DecidableEq, Repr

/-- NEST (05 R100). -/
structure NestOp where
  g : Guard
  levels : BitVec 4
  p : BitVec 6
  tgt : BitVec 8
  deriving DecidableEq, Repr

/-- CALLS (05 R102). -/
structure CallOp where
  g : Guard
  t : BitVec 6
  deriving DecidableEq, Repr

/-- TRAP (05 R105). -/
structure TrapOp where
  g : Guard
  code : BitVec 10
  deriving DecidableEq, Repr

/-- MFS (05 R106). -/
structure Mfs where
  g : Guard
  d : BitVec 6
  sreg : BitVec 12
  deriving DecidableEq, Repr

/-- MTS (05 R106). -/
structure Mts where
  g : Guard
  src : BitVec 6
  sreg : BitVec 12
  ta : Bool
  deriving DecidableEq, Repr

/-- RDTIME (05 R107). -/
structure RdTime where
  g : Guard
  d : BitVec 6
  deriving DecidableEq, Repr

/-- The fields of a vector slot below its opcode (03 R48). -/
structure V where
  w : BitVec 2
  et : BitVec 3
  rm : BitVec 3
  nf : Bool
  m : BitVec 3
  d : BitVec 6
  a : BitVec 6
  b : BitVec 6
  c : BitVec 6
  ta : Bool
  tb : Bool
  tc : Bool
  sat : Bool
  deriving DecidableEq, Repr

/-- The fields of an F slot below its opcode (03 R50). -/
structure FW where
  w : BitVec 2
  et : BitVec 3
  rm : BitVec 3
  nf : Bool
  m : BitVec 3
  d : BitVec 6
  a : BitVec 6
  ta : Bool
  deriving DecidableEq, Repr

/-- The fields of a memory slot below its opcode (03 R51). Where a row of the table fixes fn or part of
field30 (CFLUSH, ATOM, SPCAST), the constructor holds that part and the field here is zero. -/
structure M where
  g : Guard
  fn : BitVec 3
  d : BitVec 6
  a : BitVec 6
  x : BitVec 6
  ta : Bool
  tb : Bool
  f : BitVec 30
  deriving DecidableEq, Repr

/-- The fields of an MMA slot (03 R54). -/
structure MmaW where
  g : Guard
  fa : BitVec 3
  fb : BitVec 3
  acc : BitVec 2
  ec : BitVec 2
  gang : BitVec 8
  shape : BitVec 4
  wA : BitVec 3
  wB : BitVec 3
  kA : BitVec 4
  kB : BitVec 4
  kb : BitVec 6
  z : Bool
  sp : Bool
  nf : Bool
  deriving DecidableEq, Repr

/-- The register fields of an Xjet instruction (17 R313): rd, rs1, rs2. -/
structure XJ where
  d : BitVec 5
  s : BitVec 5
  t : BitVec 5
  deriving DecidableEq, Repr

/-- One constructor per row of spec/opcode_table.json. -/
inductive Instr
  /-- ADD (R87). -/
  | add (r : SR)
  /-- SUB (R87). -/
  | sub (r : SR)
  /-- MUL (R87). -/
  | mul (r : SR)
  /-- MULH (R87). -/
  | mulh (r : SR)
  /-- MULHU (R87). -/
  | mulhu (r : SR)
  /-- MULHSU (R87). -/
  | mulhsu (r : SR)
  /-- DIV (R88). -/
  | div (r : SR)
  /-- DIVU (R88). -/
  | divu (r : SR)
  /-- REM (R88). -/
  | rem (r : SR)
  /-- REMU (R88). -/
  | remu (r : SR)
  /-- AND (R87). -/
  | and (r : SR)
  /-- OR (R87). -/
  | or (r : SR)
  /-- XOR (R87). -/
  | xor (r : SR)
  /-- ANDN (R87). -/
  | andn (r : SR)
  /-- SHL (R87). -/
  | shl (r : SR)
  /-- SHR (R87). -/
  | shr (r : SR)
  /-- SAR (R87). -/
  | sar (r : SR)
  /-- ROR (R87). -/
  | ror (r : SR)
  /-- MIN (R87). -/
  | min (r : SR)
  /-- MINU (R87). -/
  | minu (r : SR)
  /-- MAX (R87). -/
  | max (r : SR)
  /-- MAXU (R87). -/
  | maxu (r : SR)
  /-- CMP (R90). -/
  | cmp (r : Cmp)
  /-- CMPU (R90). -/
  | cmpu (r : Cmp)
  /-- SEL (R91). -/
  | sel (r : SR)
  /-- CLZ (R93). -/
  | clz (r : Un)
  /-- CTZ (R93). -/
  | ctz (r : Un)
  /-- POPC (R93). -/
  | popc (r : Un)
  /-- BREV (R93). -/
  | brev (r : Un)
  /-- SEXTB (R93). -/
  | sextb (r : Un)
  /-- SEXTH (R93). -/
  | sexth (r : Un)
  /-- SEXTW (R93). -/
  | sextw (r : Un)
  /-- ZEXTW (R93). -/
  | zextw (r : Un)
  /-- PAND (R92). -/
  | pand (r : PP)
  /-- POR (R92). -/
  | por (r : PP)
  /-- PXOR (R92). -/
  | pxor (r : PP)
  /-- PANDN (R92). -/
  | pandn (r : PP)
  /-- MFP (R92). -/
  | mfp (r : MFP)
  /-- MTP (R92). -/
  | mtp (r : MTP)
  /-- BFX (R94). -/
  | bfx (r : SF)
  /-- BFI (R94). -/
  | bfi (r : SF)
  /-- ADDI (R89). -/
  | addi (r : SI)
  /-- ANDI (R89). -/
  | andi (r : SI)
  /-- ORI (R89). -/
  | ori (r : SI)
  /-- XORI (R89). -/
  | xori (r : SI)
  /-- SHLI (R89). -/
  | shli (r : SI)
  /-- SHRI (R89). -/
  | shri (r : SI)
  /-- SARI (R89). -/
  | sari (r : SI)
  /-- MULI (R89). -/
  | muli (r : SI)
  /-- CMPI (R90). -/
  | cmpi (r : CmpI)
  /-- MOVI (R95). -/
  | movi (r : MovI)
  /-- MOVK (R95). -/
  | movk (r : MovK)
  /-- VGET (R96). -/
  | vget (r : VGet)
  /-- BR (R97). -/
  | br (r : Branch)
  /-- LOOP (R98). -/
  | loop (r : LoopOp)
  /-- NEST (R100). -/
  | nest (r : NestOp)
  /-- NEXT (R102). -/
  | next (g : Guard)
  /-- CALLS (R102). -/
  | calls (r : CallOp)
  /-- RETS (R102). -/
  | rets (g : Guard)
  /-- YIELD_END (R102). -/
  | yieldEnd (g : Guard)
  /-- YIELD_EXIT (R102). -/
  | yieldExit (g : Guard)
  /-- YIELD_HDONE (R102). -/
  | yieldHdone (g : Guard)
  /-- TRAP (R105). -/
  | trap (r : TrapOp)
  /-- MFS (R106). -/
  | mfs (r : Mfs)
  /-- MTS (R106). -/
  | mts (r : Mts)
  /-- RDTIME_PTIME (R107). -/
  | rdtimePtime (r : RdTime)
  /-- RDTIME_CYCLES (R107). -/
  | rdtimeCycles (r : RdTime)
  /-- VADD (R113). -/
  | vadd (r : V)
  /-- VSUB (R113). -/
  | vsub (r : V)
  /-- VMUL (R113). -/
  | vmul (r : V)
  /-- VFMA (R114). -/
  | vfma (r : V)
  /-- VFMS (R114). -/
  | vfms (r : V)
  /-- VFNMA (R114). -/
  | vfnma (r : V)
  /-- VMIN (R115). -/
  | vmin (r : V)
  /-- VMAX (R115). -/
  | vmax (r : V)
  /-- VMINN (R115). -/
  | vminn (r : V)
  /-- VMAXN (R115). -/
  | vmaxn (r : V)
  /-- VABS (R116). -/
  | vabs (r : V)
  /-- VNEG (R116). -/
  | vneg (r : V)
  /-- VAND (R118). -/
  | vand (r : V)
  /-- VOR (R118). -/
  | vor (r : V)
  /-- VXOR (R118). -/
  | vxor (r : V)
  /-- VANDN (R118). -/
  | vandn (r : V)
  /-- VSHL (R119). -/
  | vshl (r : V)
  /-- VSHR (R119). -/
  | vshr (r : V)
  /-- VSAR (R119). -/
  | vsar (r : V)
  /-- VSHLI (R119). -/
  | vshli (r : V)
  /-- VSHRI (R119). -/
  | vshri (r : V)
  /-- VSARI (R119). -/
  | vsari (r : V)
  /-- VCMP (R121). -/
  | vcmp (r : V)
  /-- VSEL (R122). -/
  | vsel (r : V)
  /-- VCVT (R127). -/
  | vcvt (r : V)
  /-- VPERM (R125). -/
  | vperm (r : V)
  /-- VSHUF (R126). -/
  | vshuf (r : V)
  /-- VBCAST (R124). -/
  | vbcast (r : V)
  /-- VMOVI (R124). -/
  | vmovi (r : V)
  /-- VRED (R130). -/
  | vred (r : V)
  /-- VSCAN (R130). -/
  | vscan (r : V)
  /-- VMOV (R124). -/
  | vmov (r : V)
  /-- VCLZ (R120). -/
  | vclz (r : V)
  /-- VPOPC (R120). -/
  | vpopc (r : V)
  /-- VMULH (R117). -/
  | vmulh (r : V)
  /-- VDOT4 (R117). -/
  | vdot4 (r : V)
  /-- VMXQ (R128). -/
  | vmxq (r : V)
  /-- VMXDQ (R129). -/
  | vmxdq (r : V)
  /-- VMLOG (R123). -/
  | vmlog (r : V)
  /-- VMCNT (R123). -/
  | vmcnt (r : V)
  /-- VINS (R124). -/
  | vins (r : V)
  /-- FEXP2 (R132). -/
  | fexp2 (r : FW)
  /-- FLOG2 (R132). -/
  | flog2 (r : FW)
  /-- FRCP (R132). -/
  | frcp (r : FW)
  /-- FRSQRT (R132). -/
  | frsqrt (r : FW)
  /-- FSQRT (R132). -/
  | fsqrt (r : FW)
  /-- FTANH (R132). -/
  | ftanh (r : FW)
  /-- FSIN (R132). -/
  | fsin (r : FW)
  /-- FCOS (R132). -/
  | fcos (r : FW)
  /-- SPK24 (R133). -/
  | spk24 (r : FW)
  /-- SPX24 (R134). -/
  | spx24 (r : FW)
  /-- VSORT (R135). -/
  | vsort (r : FW)
  /-- VSRCH (R136). -/
  | vsrch (r : FW)
  /-- MXSCL (R137). -/
  | mxscl (r : FW)
  /-- VUNDC (R138). -/
  | vundc (r : FW)
  /-- FRILL (R138). -/
  | frill (r : FW)
  /-- LD (R164). -/
  | ld (r : M)
  /-- ST (R164). -/
  | st (r : M)
  /-- LDV (R164). -/
  | ldv (r : M)
  /-- STV (R164). -/
  | stv (r : M)
  /-- LDSC (R166). -/
  | ldsc (r : M)
  /-- WSET (R167). -/
  | wset (r : M)
  /-- CFLUSH_CLEAN (R168). -/
  | cflushClean (r : M)
  /-- CFLUSH_FLUSH (R168). -/
  | cflushFlush (r : M)
  /-- CFLUSH_INV (R168). -/
  | cflushInv (r : M)
  /-- CFLUSH_RANGENC (R168). -/
  | cflushRangenc (r : M)
  /-- ATOM_SWAP (R169). -/
  | atomSwap (r : M)
  /-- ATOM_CAS (R169). -/
  | atomCas (r : M)
  /-- ATOM_ADD (R169). -/
  | atomAdd (r : M)
  /-- ATOM_AND (R169). -/
  | atomAnd (r : M)
  /-- ATOM_OR (R169). -/
  | atomOr (r : M)
  /-- ATOM_XOR (R169). -/
  | atomXor (r : M)
  /-- ATOM_MIN (R169). -/
  | atomMin (r : M)
  /-- ATOM_MAX (R169). -/
  | atomMax (r : M)
  /-- ATOM_MINU (R169). -/
  | atomMinu (r : M)
  /-- ATOM_MAXU (R169). -/
  | atomMaxu (r : M)
  /-- ATOM_FADD (R169). -/
  | atomFadd (r : M)
  /-- ATOM_INCW (R169). -/
  | atomIncw (r : M)
  /-- ATOM_LD (R169). -/
  | atomLd (r : M)
  /-- QMARK (R171). -/
  | qmark (r : M)
  /-- FENCE (R172). -/
  | fence (r : M)
  /-- COPY (R175). -/
  | copy (r : M)
  /-- PUT (R175). -/
  | put (r : M)
  /-- GET (R175). -/
  | get (r : M)
  /-- GATHER (R181). -/
  | gather (r : M)
  /-- SCATTER (R181). -/
  | scatter (r : M)
  /-- SCADD (R181). -/
  | scadd (r : M)
  /-- AWR (R182). -/
  | awr (r : M)
  /-- ENGWAIT (R179). -/
  | engwait (r : M)
  /-- CPRESUME (R180). -/
  | cpresume (r : M)
  /-- CPABORT (R180). -/
  | cpabort (r : M)
  /-- SEMSIG (R184). -/
  | semsig (r : M)
  /-- PHREG (R186). -/
  | phreg (r : M)
  /-- PHDROP (R186). -/
  | phdrop (r : M)
  /-- PHSIG (R186). -/
  | phsig (r : M)
  /-- PHWAIT (R186). -/
  | phwait (r : M)
  /-- PHSW (R186). -/
  | phsw (r : M)
  /-- PHSTAT (R186). -/
  | phstat (r : M)
  /-- RING (R186). -/
  | ring (r : M)
  /-- SPTEST (R187). -/
  | sptest (r : M)
  /-- SPCAST_EXPLICIT (R187). -/
  | spcastExplicit (r : M)
  /-- SPCAST_SELF (R187). -/
  | spcastSelf (r : M)
  /-- SPCAST_TOCLUSTER (R187). -/
  | spcastTocluster (r : M)
  /-- SPCAST_FROMCLUSTER (R187). -/
  | spcastFromcluster (r : M)
  /-- SPCAST_CLEXPLICIT (R187). -/
  | spcastClexplicit (r : M)
  /-- SPCAST_CLSELF (R187). -/
  | spcastClself (r : M)
  /-- ROCALL (R188). -/
  | rocall (r : M)
  /-- ROWAIT (R188). -/
  | rowait (r : M)
  /-- JETMSG (R189). -/
  | jetmsg (r : M)
  /-- MMA (R147). -/
  | mma (r : MmaW)
  /-- MMZ (R151). -/
  | mmz (r : M)
  /-- MMLD (R151). -/
  | mmld (r : M)
  /-- MMST (R151). -/
  | mmst (r : M)
  /-- MMRD (R151). -/
  | mmrd (r : M)
  /-- MMWR (R151). -/
  | mmwr (r : M)
  /-- RSPLIT (R279). -/
  | rsplit (r : M)
  /-- RMERGE (R280). -/
  | rmerge (r : M)
  /-- RINV (R281). -/
  | rinv (r : M)
  /-- RPROBE (R282). -/
  | rprobe (r : M)
  /-- SLX (R183). -/
  | slx (r : M)
  /-- JL2RD (R313). -/
  | jl2rd (r : XJ)
  /-- JL2WR (R313). -/
  | jl2wr (r : XJ)
  /-- JPF (R313). -/
  | jpf (r : XJ)
  /-- JFWD (R313). -/
  | jfwd (r : XJ)
  /-- JMSG (R313). -/
  | jmsg (r : XJ)
  /-- JDONE (R313). -/
  | jdone (r : XJ)
  /-- JBUDGET (R313). -/
  | jbudget (r : XJ)
  /-- JLOGNEXT (R313). -/
  | jlognext (r : XJ)
  /-- JLOGADV (R313). -/
  | jlogadv (r : XJ)
  /-- JUNDO (R319). -/
  | jundo (r : XJ)
  /-- VARIABLE_RESULT_LAND (R34). -/
  | variableResultLand (i : Nat)
  /-- DIVIDER_RESULT_LAND (R88). -/
  | dividerResultLand (slot : Nat)
  /-- QUEUE_ENTRY_PERFORM (R161). -/
  | queueEntryPerform (store : Bool)
  /-- RTLB_WALK_COMPLETE (R270). -/
  | rtlbWalkComplete (die : Nat)
  /-- SEGMENT_EXPANSION (R57). -/
  | segmentExpansion (half : Nat) (va : Nat)
  /-- TASK_DISPATCH (R193). -/
  | taskDispatch (k task : Nat)
  /-- JOB_GRANULE_WRITE (R177). -/
  | jobGranuleWrite (job : Nat)
  /-- JOB_COMPLETE (R178). -/
  | jobComplete (job : Nat)
  /-- SLX_CHUNK_DELIVER (R183). -/
  | slxChunkDeliver (job : Nat)
  /-- LAUNCH (R250). -/
  | launch (k : Nat)
  /-- WAITQ (R244). -/
  | waitq (k : Nat)
  /-- SIGQ (R244). -/
  | sigq (k : Nat)
  /-- SLUICE (R245). -/
  | sluice (k : Nat)
  /-- CPYP (R245). -/
  | cpyp (k : Nat)
  /-- BKCFG (R287). -/
  | bkcfg (k : Nat)
  /-- BASIN (R298). -/
  | basin (k : Nat)
  /-- ROUND (R303). -/
  | round (k : Nat)
  /-- FENCEP (R245). -/
  | fencep (k : Nat)
  /-- HOSTINT (R249). -/
  | hostint (k : Nat)
  /-- JUMP (R244). -/
  | jump (k : Nat)
  /-- STOP (R244). -/
  | stop (k : Nat)
  /-- SLOT_DELIVERY (R247). -/
  | slotDelivery (i : Nat)
  /-- LAUNCH_COMPLETE (R253). -/
  | launchComplete (k : Nat)
  /-- SLUICE_COMPLETE (R244). -/
  | sluiceComplete (k : Nat)
  /-- CPYP_COMPLETE (R245). -/
  | cpypComplete (i : Nat)
  /-- GETS (R224). -/
  | gets (i : Nat)
  /-- GETM (R224). -/
  | getm (i : Nat)
  /-- PUTE (R224). -/
  | pute (i : Nat)
  /-- PUTM (R224). -/
  | putm (i : Nat)
  /-- FWD_GETS (R224). -/
  | fwdGets (i : Nat)
  /-- FWD_GETM (R224). -/
  | fwdGetm (i : Nat)
  /-- INV (R224). -/
  | inv (i : Nat)
  /-- FWD_RECALL (R224). -/
  | fwdRecall (i : Nat)
  /-- ACKNOWLEDGEMENT (R224). -/
  | acknowledgement (i : Nat)
  /-- FAR_ATOMIC_EXECUTE (R230). -/
  | farAtomicExecute (i : Nat)
  /-- MS_ACCESS (R229). -/
  | msAccess (i : Nat)
  /-- L2_FILL (R356). -/
  | l2Fill (line : Nat) (ecc : List EccResult) (victim : Option Nat)
  /-- RANGE_CHANGE_COMPLETE (R272). -/
  | rangeChangeComplete (i : Nat)
  /-- MARKER_DRAIN (R273). -/
  | markerDrain (i : Nat)
  /-- ROUND_BARRIER (R304). -/
  | roundBarrier (i : Nat)
  /-- ROUND_BARRIER_COMPLETE (R304). -/
  | roundBarrierComplete (i : Nat)
  /-- ROCALL_APPEND (R316). -/
  | rocallAppend (i : Nat)
  /-- ROCALL_READ_QUERY (R317). -/
  | rocallReadQuery (i : Nat)
  /-- JET_RUN_START (R309). -/
  | jetRunStart (sl : Nat)
  /-- JET_CORE_INSTRUCTION (R311). -/
  | jetCoreInstruction (sl : Nat)
  /-- REPLAY_APPLY (R316). -/
  | replayApply (sl : Nat)
  /-- JETMSG_ARRIVAL (R308). -/
  | jetmsgArrival (sl : Nat)
  /-- CCTL_GO (R242). -/
  | cctlGo (k : Nat)
  /-- CCTL_HALT (R242). -/
  | cctlHalt (k : Nat)
  /-- CCTL_KILL (R253). -/
  | cctlKill (k : Nat)
  /-- REGISTER_WRITE (R7). -/
  | registerWrite (who : Requester) (a : RegAddr) (v : Word)
  /-- REGISTER_READ_CLEAR (R7). -/
  | registerReadClear (who : Requester) (a : RegAddr)
  /-- SLICE_EXPIRY (R258). -/
  | sliceExpiry (p : Nat)
  /-- FORCED_FREEZE (R258). -/
  | forcedFreeze (p : Nat)
  /-- CONTEXT_SWAP (R260). -/
  | contextSwap (p : Nat)
  /-- SWAP_IN_COMPLETE (R260). -/
  | swapInComplete (p : Nat)
  /-- CMPCTL_GO (R276). -/
  | cmpctlGo (p : Nat)
  /-- COMPACTION_SWAP (R276). -/
  | compactionSwap (p : Nat)
  /-- COMPACTION_DONE (R276). -/
  | compactionDone (p : Nat)
  /-- BUCKET_CONTRIBUTION (R290). -/
  | bucketContribution (b i : Nat)
  /-- BASIN_RUN_START (R300). -/
  | basinRunStart (b e : Nat)
  /-- BASIN_WORD (R295). -/
  | basinWord (b e : Nat)
  /-- BASIN_UNIT_RESULT_LAND (R295). -/
  | basinUnitResultLand (b e : Nat)
  /-- LDR_ROW_LAND (R299). -/
  | ldrRowLand (b e : Nat)
  /-- BASIN_RUN_HALT (R293). -/
  | basinRunHalt (b e : Nat)
  /-- BASIN_SAVE_MODE (R302). -/
  | basinSaveMode (b e : Nat)
  /-- ALLGATHER_ROW_RECEIVE (R301). -/
  | allgatherRowReceive (r : GatherRow)
  /-- JET_EVENT (R308). -/
  | jetEvent (sl : Nat) (ev : JetEvent) (pa : Nat) (requester : Nat)
  /-- JET_RUN_KILL (R311). -/
  | jetRunKill (sl : Nat) (reason : Nat)
  /-- NC_WRITEBACK (R228). -/
  | ncWriteback (core line : Nat)
  /-- TSVIF_RETRY (R344). -/
  | tsvifRetry (stack pc : Nat) (good : Bool)
  /-- PATROL_SCRUB_ROW (R351). -/
  | patrolScrubRow (stack : Nat) (ecc : List EccResult)
  /-- DRAM_ACT (R352). -/
  | dramAct (stack pc bank row : Nat)
  /-- ROW_ALERT (R353). -/
  | rowAlert (stack pc bank row : Nat)
  /-- TRFM_EXPIRY (R353). -/
  | trfmExpiry (stack pc bank : Nat)
  /-- LINK_REPLAY (R344). -/
  | linkReplay (link : Nat) (good : Bool)
  /-- LINK_RETRAIN_TIMEOUT (R338). -/
  | linkRetrainTimeout (link : Nat)
  /-- DIE_RESET (R339). -/
  | dieReset (die : Nat)
  /-- CORE_REPAIR (R336). -/
  | coreRepair (core : Nat) (readable : Bool) (bad : List Unreadable)
  /-- INBOUND_POISONED_TLP (R333). -/
  | inboundPoisonedTlp (va : Nat) (part : Nat) (data : List Byte)
  /-- PCIE_LINK_CHANGE (R360). -/
  | pcieLinkChange (up : Bool)
  /-- POWER_WINDOW (R370). -/
  | powerWindow (pwr : BitVec 16)
  /-- PCAP_WRITE (R370). -/
  | pcapWrite (who : Requester) (v : Word)
  /-- SCRUBPER_WRITE (R350). -/
  | scrubperWrite (die : Nat) (second : Bool) (v : Word)
  /-- MTH_WRITE (R352). -/
  | mthWrite (b : Nat) (v : Word)
  /-- FUNCMODE_WRITE (R368). -/
  | funcmodeWrite (who : Requester) (v : Word)
  /-- GET_VERSION (R365). -/
  | getVersion (who : Requester) (param : Nat)
  /-- GET_CAPABILITIES (R365). -/
  | getCapabilities (who : Requester) (param : Nat)
  /-- NEGOTIATE_ALGORITHMS (R365). -/
  | negotiateAlgorithms (who : Requester) (param : Nat)
  /-- GET_DIGESTS (R365). -/
  | getDigests (who : Requester) (param : Nat)
  /-- GET_CERTIFICATE (R365). -/
  | getCertificate (who : Requester) (param : Nat)
  /-- CHALLENGE (R365). -/
  | challenge (who : Requester) (param : Nat)
  /-- GET_MEASUREMENTS (R366). -/
  | getMeasurements (who : Requester) (param1 param2 : Nat)
  /-- SIDEBAND_TELEMETRY_READ (R367). -/
  | sidebandTelemetryRead (a : RegAddr)
  /-- SIDEBAND_ERRLOG_READ (R367). -/
  | sidebandErrlogRead (i : Nat)
  /-- SIDEBAND_PCAP_ACCESS (R367). -/
  | sidebandPcapAccess (w : Option Word)
  /-- PARTITION_CONFIGURATION (R254). -/
  | partitionConfiguration (p : Nat) (c : PartConfig)
  /-- REGULAR_REFRESH (R352). -/
  | regularRefresh (stack pc bank row : Nat)
  /-- SCRATCHPAD_BANK_WAKE (R218). -/
  | scratchpadBankWake (core bank : Nat)
  /-- LINK_RETRAINED (R344). -/
  | linkRetrained (link : Nat)
  /-- INBOUND_MEMORY_TLP (R360). -/
  | inboundMemoryTlp (va : Nat) (part : Nat) (len : Nat) (data : List Byte)
  /-- REMOTE_PACKAGE_REQUEST (R214). -/
  | remotePackageRequest (offset : Nat) (len : Nat) (data : List Byte) (pois : Bool) (con : Option RemoteContribution)
  /-- ALLGATHER_ACKNOWLEDGEMENT (R304). -/
  | allgatherAcknowledgement (b : Nat)
  /-- SNOP (R46). -/
  | snop
  /-- PURE_DELAY_BUNDLE (R42). -/
  | pureDelayBundle
  /-- NULL_BUNDLE (R42). -/
  | nullBundle
  /-- VNOP (R49). -/
  | vnop
  /-- FNOP (R50). -/
  | fnop
  /-- MNOP (R53). -/
  | mnop
  /-- FIXED_RESULT_LAND (R33). -/
  | fixedResultLand
  /-- TRAP_DELIVERY (R325). -/
  | trapDelivery
  /-- SEGMENT_END (R103). -/
  | segmentEnd
  /-- SEGMENT_START (R199). -/
  | segmentStart
  /-- TASK_RETIRE (R104). -/
  | taskRetire
  /-- HANDLER_DORMANT (R204). -/
  | handlerDormant
  /-- MMA_EXECUTE_START (R149). -/
  | mmaExecuteStart
  /-- MMA_BLOCK_ARRIVE (R150). -/
  | mmaBlockArrive
  /-- MMA_BLOCK_END (R150). -/
  | mmaBlockEnd
  /-- MMA_FAULT (R155). -/
  | mmaFault
  /-- ACCUMULATOR_LAND (R147). -/
  | accumulatorLand
  /-- WEIR_REFILL (R261). -/
  | weirRefill
  /-- POWER_UP (R361). -/
  | powerUp
  /-- BOOTGO (R362). -/
  | bootgo
  /-- BOOT_VERIFY_COMPLETE (R362). -/
  | bootVerifyComplete
  /-- SIDEBAND_DEVICE_RESET (R367). -/
  | sidebandDeviceReset
  /-- SIDEBAND_BOOT_READ (R367). -/
  | sidebandBootRead
  /-- POWER_OFF (R5). -/
  | powerOff
  deriving DecidableEq, Repr

end Sys2Proof
end

