-- ==== Sys2Proof/WellFormed.lean ====
section
/-! DEFINITION. The static checks of a slot's fields that depend on nothing but the slot (03 R46, R49, R50,
R52 to R54, R60): a non-zero unused field is RSVD, and after that a reserved or forbidden code is FORMAT. -/

namespace Sys2Proof

def formatIf (b : Bool) : Option Cause := if b then some .format else none
def rsvdIf (b : Bool) : Option Cause := if b then some .rsvd else none

/-! ### Element types and widths (03 R48) -/

/-- Element width in bits of an et code; 0 for the reserved code. -/
def etBits (et : BitVec 3) : Nat :=
  match et.toNat with
  | 0 => 8 | 1 => 16 | 2 => 32 | 3 => 16 | 4 => 16 | 5 => 32 | 6 => 64 | _ => 0

def etFloat (et : BitVec 3) : Bool := et = 3 || et = 4 || et = 5
def etInt (et : BitVec 3) : Bool := et = 0 || et = 1 || et = 2 || et = 6

/-- Width in bits of a w code; 0 for the reserved code. -/
def wBits (w : BitVec 2) : Nat :=
  match w.toNat with
  | 0 => 256 | 1 => 512 | 2 => 1024 | _ => 0

/-! ### The vector slot -/

/-- When a field of a vector slot is used: never, always, with a float et, or with an integer et. -/
inductive Used
  | no | yes | float | int
  deriving DecidableEq, Repr

def Used.now (u : Used) (et : BitVec 3) : Bool :=
  match u with
  | .no => false
  | .yes => true
  | .float => !etInt et
  | .int => !etFloat et

/-- A row of the table of 03 R49: used bits of the fields, mode bits, allowed et. -/
structure VUse where
  d : BitVec 6 := 63
  a : BitVec 6 := 63
  b : BitVec 6 := 0
  c : BitVec 6 := 0
  ta : Bool := true
  tb : Bool := false
  tc : Bool := false
  w : Bool := true
  m : Bool := true
  rm : Used := .no
  nf : Used := .no
  sat : Used := .no
  et : BitVec 3 → Bool := fun e => e ≠ 7

def vArith : VUse := { b := 63, tb := true, rm := .float, nf := .float, sat := .int }
def vFma : VUse := { b := 63, c := 63, tb := true, tc := true, rm := .yes, nf := .yes, et := etFloat }
def vMinMax : VUse := { b := 63, tb := true, nf := .float }
def vMinMaxN : VUse := { b := 63, tb := true, nf := .yes, et := etFloat }
def vAbs : VUse := { nf := .float, sat := .int }
def vLogic : VUse := { b := 63, tb := true, et := etInt }
def vShl : VUse := { b := 63, tb := true, sat := .yes, et := etInt }
def vShlI : VUse := { c := 63, sat := .yes, et := etInt }
def vShrI : VUse := { c := 63, et := etInt }
def vCmp : VUse := { d := 7, b := 63, c := 7, tb := true, nf := .float }
def vSel : VUse := { b := 63, tb := true }
def vCvt : VUse := { c := 7, rm := .yes, nf := .yes, sat := .yes }
def vPerm : VUse := { b := 63, tb := true }
def vShuf : VUse := { c := 63 }
def vBcast : VUse := {}
/-- VMOVI: rm is used for every float et (03 R49, the text below the table). -/
def vMovi : VUse := { b := 63, c := 63, ta := false, rm := .float }
def vRed : VUse := { c := 3, rm := .float, nf := .float, sat := .int }
def vMov : VUse := {}
def vClz : VUse := { et := etInt }
def vDot : VUse := { b := 63, c := 63, tb := true, tc := true, sat := .yes, et := fun e => e = 2 }
def vMx : VUse := { b := 63, c := 7, tb := true, rm := .yes, nf := .yes, et := etFloat }
def vMlog : VUse := { d := 7, a := 7, b := 7, c := 3, ta := false, w := false, m := false, et := fun e => e = 0 }
def vMcnt : VUse := { a := 7, ta := false, m := false }
def vIns : VUse := { c := 63 }

/-- The checks of 03 R49 that its table gives: unused fields, then reserved codes. -/
def checkV (u : VUse) (r : V) : Option Cause :=
  (rsvdIf ((r.d &&& ~~~u.d ≠ 0) || (r.a &&& ~~~u.a ≠ 0) || (r.b &&& ~~~u.b ≠ 0) || (r.c &&& ~~~u.c ≠ 0)
    || (r.ta && !u.ta) || (r.tb && !u.tb) || (r.tc && !u.tc)
    || (r.w ≠ 0 && !u.w) || (r.m ≠ 0 && !u.m)
    || (r.rm ≠ 0 && !u.rm.now r.et) || (r.nf && !u.nf.now r.et) || (r.sat && !u.sat.now r.et))).or
  (formatIf (r.w = 3 || !u.et r.et || (r.rm = 7 && u.rm.now r.et)))

/-- VCMP's conditions (03 R49, 06 R121): LTU and LEU need an integer et, UNORD and ORD a float et. -/
def checkCond (r : V) : Option Cause :=
  formatIf (((r.c = 4 || r.c = 5) && etFloat r.et) || ((r.c = 6 || r.c = 7) && etInt r.et))

/-- VSHUF's patterns (06 R126). -/
def checkShuf (r : V) : Option Cause :=
  let n := wBits r.w / etBits r.et
  let k := r.c.toNat % 8
  match r.c.toNat / 8 with
  | 0 => formatIf (n < 2 ^ (k + 1))
  | 1 => formatIf (n ≤ 2 ^ k)
  | 2 => formatIf (n ≤ 2 ^ k)
  | 3 => formatIf (k ≠ 0)
  | 4 => formatIf (k ≠ 0)
  | _ => some .format

/-! ### The F slot (03 R50, 06 R131) -/

structure FUse where
  a : Bool := true
  rm : Bool := false
  nf : Bool := false
  m : Bool := true
  et : BitVec 3 → Bool

def fTrans : FUse := { rm := true, nf := true, et := etFloat }
def fSpk : FUse := { m := false, et := fun e => e = 3 || e = 4 || e = 0 }
def fSort : FUse := { nf := true, m := false, et := fun e => e = 2 || e = 5 }
def fSrch : FUse := { et := fun e => e = 2 || e = 5 }
def fMxscl : FUse := { et := etFloat }
def fUndc : FUse := { a := false, et := fun e => e = 2 }

def checkF (u : FUse) (r : FW) : Option Cause :=
  (rsvdIf ((r.a ≠ 0 && !u.a) || (r.ta && !u.a) || (r.rm ≠ 0 && !u.rm) || (r.nf && !u.nf) || (r.m ≠ 0 && !u.m))).or
  (formatIf (r.w = 3 || !u.et r.et || (u.rm && r.rm = 7)))

/-! ### The scalar slot -/

/-- BFX and BFI: pos + length at most 64 (03 R46). -/
def checkSF (r : SF) : Option Cause := formatIf (64 < r.pos.toNat + (r.len.toNat + 1))

/-- How software may use a state register (02 R30, R31). -/
inductive SAccess
  | reserved | ro | rw | w1c | rc
  deriving DecidableEq, Repr

/-- The Access column of 02 R31 for a state-register number. -/
def sregAccess (n : BitVec 12) : SAccess :=
  let k := n.toNat
  if k ≤ 3 then .w1c
  else if k ≤ 7 then .rw
  else if k = 8 then .rc
  else if 0x10 ≤ k && k ≤ 0x12 then .ro
  else if k = 0x18 then .rw
  else if 0x20 ≤ k && k ≤ 0x27 then .ro
  else if k = 0x30 || k = 0x31 then .ro
  else if 0x40 ≤ k && k ≤ 0x4F then .rw
  else if k = 0x50 then .w1c
  else if 0x60 ≤ k && k ≤ 0x63 then .ro
  else if k = 0x70 then .w1c
  else if k = 0x80 then .w1c
  else .reserved

/-- MFS of a reserved number is RSVD (02 R30). -/
def checkMfs (r : Mfs) : Option Cause := rsvdIf (sregAccess r.sreg = .reserved)

/-- MTS of a reserved number is RSVD, of a read-only register PRIV (02 R30). -/
def checkMts (r : Mts) : Option Cause :=
  match sregAccess r.sreg with
  | .reserved => some .rsvd
  | .ro => some .priv
  | .rc => some .priv
  | .rw => none
  | .w1c => none

/-! ### The memory slot (03 R51 to R53) -/

/-- The used bits of a memory slot's fields. -/
structure MUse where
  fn : BitVec 3 := 0
  d : BitVec 6 := 0
  a : BitVec 6 := 0
  x : BitVec 6 := 0
  ta : Bool := false
  tb : Bool := false
  f : BitVec 30 := 0

def rsvdM (u : MUse) (r : M) : Option Cause :=
  rsvdIf ((r.fn &&& ~~~u.fn ≠ 0) || (r.d &&& ~~~u.d ≠ 0) || (r.a &&& ~~~u.a ≠ 0) || (r.x &&& ~~~u.x ≠ 0)
    || (r.ta && !u.ta) || (r.tb && !u.tb) || (r.f &&& ~~~u.f ≠ 0))

/-- Addressing mode, `.fe` bit and walker level of field30 (03 R52). -/
def fMode (r : M) : Nat := (r.f.extractLsb' 28 2).toNat
def fFe (r : M) : Bool := r.f.getLsbD 24
def fLevel (r : M) : Nat := (r.f.extractLsb' 25 3).toNat

def mLd : MUse := { fn := 7, d := 63 }
def mSt : MUse := { fn := 7, d := 63, tb := true }
def mLdv : MUse := { fn := 3, d := 63 }
def mStv : MUse := { fn := 3, d := 63, tb := true }
def mLdsc : MUse := { d := 15 }
def mWset : MUse := { d := 7 }
def mNone : MUse := {}
def mFence : MUse := { fn := 7, f := 3 }
def mA : MUse := { a := 63, ta := true }
def mDA : MUse := { d := 63, a := 63, ta := true }
def mAX : MUse := { a := 63, x := 63, ta := true }
def mDAX : MUse := { d := 63, a := 63, x := 63, ta := true }
def mPhreg : MUse := { fn := 7, a := 63, ta := true, f := 15 }
def mMmz : MUse := { f := 3 }
def mMmld : MUse := { a := 63, x := 63, ta := true, f := 3 }
def mMmrd : MUse := { d := 63, f := 0xFF3 }
def mMmwr : MUse := { a := 63, ta := true, f := 0xFF3 }

/-- An addressed instruction (03 R52): the fields of its mode, then the codes. `walker` says that mode 01 is accepted. -/
def checkAddr (u : MUse) (r : M) (walker : Bool) : Option Cause :=
  match fMode r with
  | 0 => rsvdM { u with a := 63, x := 0xF, ta := true, f := 0x1FFFFFF } r
  | 1 => (rsvdM { u with a := 7, x := 0, ta := true, f := 0x1F000000 } r).or
      (formatIf (!walker || fLevel r = 7))
  | 2 => rsvdM { u with a := 63, x := 63, ta := true, f := 0x2DFFFFFF } r
  | _ => some .rsvd

/-- CFLUSH: `.fe` zero, modes 00 and 10 (03 R52). -/
def checkFlush (r : M) : Option Cause := (rsvdIf (fFe r)).or (checkAddr {} r false)

/-- ATOM (08 R169): only cas uses the second-operand register, and sizes are 32 and 64 bits. -/
def checkAtom (cas : Bool) (r : M) : Option Cause :=
  (rsvdM { fn := 3, d := 63, a := 63, x := 63, ta := true,
           f := if cas then 0x20FFFFFF else 0x2003FFFF } r).or
  (formatIf (1 < r.fn.toNat))

/-- PHREG (03 R53): mode 0 to 2, ring depth 0 or 2 to 8. -/
def checkPhreg (r : M) : Option Cause :=
  formatIf (2 < r.fn.toNat || r.f.toNat = 1 || 8 < r.f.toNat)

/-- Number of members of an MMA shape: (M ÷ 64) × (N ÷ 128) (07 R148); 0 for a reserved shape. -/
def shapeMembers (sh : BitVec 4) : Nat :=
  match sh.toNat with
  | 0 => 1 | 1 => 2 | 2 => 2 | 3 => 4 | 4 => 4 | 5 => 8 | _ => 0

/-- The rows of 03 R54 that depend on the slot alone. -/
def checkMma (r : MmaW) : Option Cause :=
  (rsvdIf ((r.fa.toNat < 2 || r.fb.toNat < 2) && (r.kA ≠ 0 || r.kB ≠ 0))).or
  (formatIf (!((2 ≤ r.fa.toNat && r.fa ≠ 7 && 2 ≤ r.fb.toNat && r.fb ≠ 7) || (r.fa = r.fb && (r.fa = 7 || r.fa = 0 || r.fa = 1)))
    || 5 < r.shape.toNat || r.kb = 0 || (r.sp && r.wA = 7)))

/-! ### All instructions -/

/-- The static checks of an instruction that depend on its own fields alone; a register field that an Xjet instruction does not
use is zero (17 R313). -/
def Instr.check : Instr → Option Cause
  | .snop => none
  | .add _ => none
  | .sub _ => none
  | .mul _ => none
  | .mulh _ => none
  | .mulhu _ => none
  | .mulhsu _ => none
  | .div _ => none
  | .divu _ => none
  | .rem _ => none
  | .remu _ => none
  | .and _ => none
  | .or _ => none
  | .xor _ => none
  | .andn _ => none
  | .shl _ => none
  | .shr _ => none
  | .sar _ => none
  | .ror _ => none
  | .min _ => none
  | .minu _ => none
  | .max _ => none
  | .maxu _ => none
  | .cmp _ => none
  | .cmpu _ => none
  | .sel _ => none
  | .clz _ => none
  | .ctz _ => none
  | .popc _ => none
  | .brev _ => none
  | .sextb _ => none
  | .sexth _ => none
  | .sextw _ => none
  | .zextw _ => none
  | .pand _ => none
  | .por _ => none
  | .pxor _ => none
  | .pandn _ => none
  | .mfp _ => none
  | .mtp _ => none
  | .bfx r => checkSF r
  | .bfi r => checkSF r
  | .addi _ => none
  | .andi _ => none
  | .ori _ => none
  | .xori _ => none
  | .shli r => formatIf (64 ≤ r.imm.toNat)
  | .shri r => formatIf (64 ≤ r.imm.toNat)
  | .sari r => formatIf (64 ≤ r.imm.toNat)
  | .muli _ => none
  | .cmpi r => formatIf (r.cc = 7)
  | .movi _ => none
  | .movk _ => none
  | .vget r => formatIf (1024 / (8 * 2 ^ r.es.toNat) ≤ r.idx.toNat)
  | .br _ => none
  | .loop _ => none
  | .nest r => formatIf (r.levels = 0 || 6 < r.levels.toNat)
  | .next _ => none
  | .calls _ => none
  | .rets _ => none
  | .yieldEnd _ => none
  | .yieldExit _ => none
  | .yieldHdone _ => none
  | .trap _ => none
  | .mfs r => checkMfs r
  | .mts r => checkMts r
  | .rdtimePtime _ => none
  | .rdtimeCycles _ => none
  | .pureDelayBundle => none
  | .nullBundle => none
  | .vnop => none
  | .vadd r => checkV vArith r
  | .vsub r => checkV vArith r
  | .vmul r => checkV vArith r
  | .vfma r => checkV vFma r
  | .vfms r => checkV vFma r
  | .vfnma r => checkV vFma r
  | .vmin r => checkV vMinMax r
  | .vmax r => checkV vMinMax r
  | .vminn r => checkV vMinMaxN r
  | .vmaxn r => checkV vMinMaxN r
  | .vabs r => checkV vAbs r
  | .vneg r => checkV vAbs r
  | .vand r => checkV vLogic r
  | .vor r => checkV vLogic r
  | .vxor r => checkV vLogic r
  | .vandn r => checkV vLogic r
  | .vshl r => checkV vShl r
  | .vshr r => checkV vLogic r
  | .vsar r => checkV vLogic r
  | .vshli r => (checkV vShlI r).or (formatIf (etBits r.et ≤ r.c.toNat))
  | .vshri r => (checkV vShrI r).or (formatIf (etBits r.et ≤ r.c.toNat))
  | .vsari r => (checkV vShrI r).or (formatIf (etBits r.et ≤ r.c.toNat))
  | .vcmp r => (checkV vCmp r).or (checkCond r)
  | .vsel r => checkV vSel r
  | .vcvt r => (checkV vCvt r).or (formatIf (r.c = (r.et.setWidth 6) || r.c = 7))
  | .vperm r => checkV vPerm r
  | .vshuf r => (checkV vShuf r).or (checkShuf r)
  | .vbcast r => checkV vBcast r
  | .vmovi r => checkV vMovi r
  | .vred r => (checkV vRed r).or (formatIf ((r.c = 3 && etFloat r.et) || (r.sat && r.c ≠ 0)))
  | .vscan r => (checkV vRed r).or (formatIf ((r.c = 3 && etFloat r.et) || (r.sat && r.c ≠ 0)))
  | .vmov r => checkV vMov r
  | .vclz r => checkV vClz r
  | .vpopc r => checkV vClz r
  | .vmulh r => checkV vLogic r
  | .vdot4 r => checkV vDot r
  | .vmxq r => (checkV vMx r).or (formatIf (r.c = 0 || r.c = 1))
  | .vmxdq r => (checkV vMx r).or (formatIf (r.c = 0 || r.c = 1))
  | .vmlog r => checkV vMlog r
  | .vmcnt r => checkV vMcnt r
  | .vins r => (checkV vIns r).or (formatIf (wBits r.w / etBits r.et ≤ r.c.toNat))
  | .fnop => none
  | .fexp2 r => checkF fTrans r
  | .flog2 r => checkF fTrans r
  | .frcp r => checkF fTrans r
  | .frsqrt r => checkF fTrans r
  | .fsqrt r => checkF fTrans r
  | .ftanh r => checkF fTrans r
  | .fsin r => checkF fTrans r
  | .fcos r => checkF fTrans r
  | .spk24 r => (checkF fSpk r).or (formatIf (r.d.getLsbD 0))
  | .spx24 r => (checkF fSpk r).or (formatIf (r.a.getLsbD 0))
  | .vsort r => (checkF fSort r).or (formatIf (r.d.getLsbD 0 || r.a.getLsbD 0))
  | .vsrch r => checkF fSrch r
  | .mxscl r => checkF fMxscl r
  | .vundc r => checkF fUndc r
  | .frill r => checkF fUndc r
  | .mnop => none
  | .ld r => (checkAddr mLd r true).or (formatIf (r.fn = 7))
  | .st r => (checkAddr mSt r true).or (formatIf (3 < r.fn.toNat))
  | .ldv r => (checkAddr mLdv r true).or (formatIf (r.fn = 3))
  | .stv r => (checkAddr mStv r true).or (formatIf (r.fn = 3))
  | .ldsc r => (checkAddr mLdsc r true).or (formatIf (fFe r))
  | .wset r => checkAddr mWset r false
  | .cflushClean r => checkFlush r
  | .cflushFlush r => checkFlush r
  | .cflushInv r => checkFlush r
  | .cflushRangenc r => checkFlush r
  | .atomSwap r => checkAtom false r
  | .atomCas r => checkAtom true r
  | .atomAdd r => checkAtom false r
  | .atomAnd r => checkAtom false r
  | .atomOr r => checkAtom false r
  | .atomXor r => checkAtom false r
  | .atomMin r => checkAtom false r
  | .atomMax r => checkAtom false r
  | .atomMinu r => checkAtom false r
  | .atomMaxu r => checkAtom false r
  | .atomFadd r => (checkAtom false r).or (formatIf (r.fn = 1))
  | .atomIncw r => checkAtom false r
  | .atomLd r => checkAtom false r
  | .qmark r => rsvdM mNone r
  | .fence r => (rsvdM mFence r).or (formatIf (5 < r.fn.toNat))
  | .copy r => rsvdM mA r
  | .put r => rsvdM mA r
  | .get r => rsvdM mA r
  | .gather r => rsvdM mA r
  | .scatter r => rsvdM mA r
  | .scadd r => rsvdM mA r
  | .awr r => rsvdM mA r
  | .engwait r => rsvdM mDA r
  | .cpresume r => rsvdM mA r
  | .cpabort r => rsvdM mA r
  | .semsig r => rsvdM mAX r
  | .phreg r => (rsvdM mPhreg r).or (checkPhreg r)
  | .phdrop r => rsvdM mA r
  | .phsig r => rsvdM mA r
  | .phwait r => rsvdM mAX r
  | .phsw r => rsvdM mAX r
  | .phstat r => rsvdM mDA r
  | .ring r => rsvdM mNone r
  | .sptest r => rsvdM mDA r
  | .spcastExplicit r => rsvdM mDA r
  | .spcastSelf r => rsvdM mDA r
  | .spcastTocluster r => rsvdM mDA r
  | .spcastFromcluster r => rsvdM mDA r
  | .spcastClexplicit r => rsvdM mDA r
  | .spcastClself r => rsvdM mDA r
  | .rocall r => rsvdM mDAX r
  | .rowait r => rsvdM mDA r
  | .jetmsg r => rsvdM mAX r
  | .mma r => checkMma r
  | .mmz r => rsvdM mMmz r
  | .mmld r => rsvdM mMmld r
  | .mmst r => rsvdM mMmld r
  | .mmrd r => rsvdM mMmrd r
  | .mmwr r => rsvdM mMmwr r
  | .rsplit r => rsvdM mDA r
  | .rmerge r => rsvdM mDA r
  | .rinv r => rsvdM mA r
  | .rprobe r => rsvdM mDA r
  | .slx r => rsvdM mA r
  | .fixedResultLand => none
  | .variableResultLand _ => none
  | .dividerResultLand _ => none
  | .queueEntryPerform _ => none
  | .rtlbWalkComplete _ => none
  | .trapDelivery => none
  | .segmentExpansion _ _ => none
  | .segmentEnd => none
  | .segmentStart => none
  | .taskRetire => none
  | .handlerDormant => none
  | .taskDispatch _ _ => none
  | .jobGranuleWrite _ => none
  | .jobComplete _ => none
  | .slxChunkDeliver _ => none
  | .mmaExecuteStart => none
  | .mmaBlockArrive => none
  | .mmaBlockEnd => none
  | .mmaFault => none
  | .accumulatorLand => none
  | .weirRefill => none
  | .launch _ => none
  | .waitq _ => none
  | .sigq _ => none
  | .sluice _ => none
  | .cpyp _ => none
  | .bkcfg _ => none
  | .basin _ => none
  | .round _ => none
  | .fencep _ => none
  | .hostint _ => none
  | .jump _ => none
  | .stop _ => none
  | .slotDelivery _ => none
  | .launchComplete _ => none
  | .sluiceComplete _ => none
  | .cpypComplete _ => none
  | .cctlGo _ => none
  | .cctlHalt _ => none
  | .cctlKill _ => none
  | .registerWrite _ _ _ => none
  | .registerReadClear _ _ => none
  | .sliceExpiry _ => none
  | .forcedFreeze _ => none
  | .contextSwap _ => none
  | .swapInComplete _ => none
  | .rangeChangeComplete _ => none
  | .markerDrain _ => none
  | .cmpctlGo _ => none
  | .compactionSwap _ => none
  | .compactionDone _ => none
  | .bucketContribution _ _ => none
  | .basinRunStart _ _ => none
  | .basinWord _ _ => none
  | .basinUnitResultLand _ _ => none
  | .ldrRowLand _ _ => none
  | .basinRunHalt _ _ => none
  | .basinSaveMode _ _ => none
  | .allgatherRowReceive _ => none
  | .roundBarrier _ => none
  | .roundBarrierComplete _ => none
  | .jetEvent _ _ _ _ => none
  | .jetmsgArrival _ => none
  | .jetRunStart _ => none
  | .jetRunKill _ _ => none
  | .jl2rd r => rsvdIf (r.t ≠ 0)
  | .jl2wr r => rsvdIf (r.d ≠ 0)
  | .jpf r => rsvdIf (r.t ≠ 0 || r.d ≠ 0)
  | .jfwd r => rsvdIf (r.d ≠ 0)
  | .jmsg r => rsvdIf (r.t ≠ 0 || r.d ≠ 0)
  | .jdone r => rsvdIf (r.t ≠ 0 || r.d ≠ 0)
  | .jbudget r => rsvdIf (r.t ≠ 0 || r.s ≠ 0)
  | .jlognext _ => none
  | .jlogadv r => rsvdIf (r.d ≠ 0)
  | .jundo r => rsvdIf (r.t ≠ 0 || r.d ≠ 0)
  | .rocallAppend _ => none
  | .rocallReadQuery _ => none
  | .replayApply _ => none
  | .gets _ => none
  | .getm _ => none
  | .pute _ => none
  | .putm _ => none
  | .fwdGets _ => none
  | .fwdGetm _ => none
  | .inv _ => none
  | .fwdRecall _ => none
  | .farAtomicExecute _ => none
  | .msAccess _ => none
  | .ncWriteback _ _ => none
  | .l2Fill _ _ _ => none
  | .tsvifRetry _ _ _ => none
  | .patrolScrubRow _ _ => none
  | .dramAct _ _ _ _ => none
  | .rowAlert _ _ _ _ => none
  | .trfmExpiry _ _ _ => none
  | .linkReplay _ _ => none
  | .linkRetrainTimeout _ => none
  | .dieReset _ => none
  | .coreRepair _ _ _ => none
  | .inboundPoisonedTlp _ _ _ => none
  | .pcieLinkChange _ => none
  | .powerUp => none
  | .bootgo => none
  | .bootVerifyComplete => none
  | .powerWindow _ => none
  | .pcapWrite _ _ => none
  | .scrubperWrite _ _ _ => none
  | .mthWrite _ _ => none
  | .funcmodeWrite _ _ => none
  | .getVersion _ _ => none
  | .getCapabilities _ _ => none
  | .negotiateAlgorithms _ _ => none
  | .getDigests _ _ => none
  | .getCertificate _ _ => none
  | .challenge _ _ => none
  | .getMeasurements _ _ _ => none
  | .sidebandTelemetryRead _ => none
  | .sidebandErrlogRead _ => none
  | .sidebandPcapAccess _ => none
  | .sidebandDeviceReset => none
  | .sidebandBootRead => none
  | .jetCoreInstruction _ => none
  | .partitionConfiguration _ _ => none
  | .regularRefresh _ _ _ _ => none
  | .scratchpadBankWake _ _ => none
  | .acknowledgement _ => none
  | .linkRetrained _ => none
  | .powerOff => none
  | .inboundMemoryTlp _ _ _ _ => none
  | .remotePackageRequest _ _ _ _ _ => none
  | .allgatherAcknowledgement _ => none

/-- A well-formed instruction passes its static checks. -/
abbrev Instr.WellFormed (i : Instr) : Prop := i.check = none

end Sys2Proof
end

