-- ==== Sys2Proof/Decode.lean ====
section
/-! DEFINITION. Encoding and decoding of the slot formats of 03_bundle_encoding and of the Xjet words of
17_jet_replay. Every decoder is total: a word that is no instruction is rejected with the cause that 03 R60 and
R62 give it. -/

namespace Sys2Proof

def encB (b : Bool) : BitVec 1 := if b then 1 else 0

/-- Guard fields pg and pn. -/
def encG (g : Guard) : BitVec 4 := g.pg ++ encB g.pn

def encSR (op : BitVec 6) (fn : BitVec 2) (r : SR) : BitVec 32 :=
  op ++ encG r.g ++ r.d ++ r.a ++ r.b ++ encB r.ta ++ encB r.tb ++ fn

def encCmp (op : BitVec 6) (r : Cmp) : BitVec 32 :=
  op ++ encG r.g ++ 0#3 ++ r.d ++ r.a ++ r.b ++ encB r.ta ++ encB r.tb ++ r.cc

def encUn (op : BitVec 6) (fn : BitVec 2) (r : Un) : BitVec 32 :=
  op ++ encG r.g ++ r.d ++ r.a ++ 0#6 ++ encB r.ta ++ 0#1 ++ fn

def encPP (fn : BitVec 2) (r : PP) : BitVec 32 :=
  20#6 ++ encG r.g ++ 0#3 ++ r.d ++ 0#3 ++ r.a ++ 0#3 ++ r.b ++ 0#2 ++ fn

def encSI (op : BitVec 6) (r : SI) : BitVec 32 :=
  op ++ encG r.g ++ r.d ++ r.a ++ encB r.ta ++ r.imm

def encSB (op : BitVec 6) (g : Guard) (fn4 : BitVec 4) (aux : BitVec 10) (tgt : BitVec 8) : BitVec 32 :=
  op ++ encG g ++ fn4 ++ aux ++ tgt

def encV (op : BitVec 7) (r : V) : BitVec 48 :=
  op ++ r.w ++ r.et ++ r.rm ++ encB r.nf ++ r.m ++ r.d ++ r.a ++ r.b ++ r.c
    ++ encB r.ta ++ encB r.tb ++ encB r.tc ++ encB r.sat ++ 0#1

def encF (op : BitVec 6) (r : FW) : BitVec 32 :=
  op ++ r.w ++ r.et ++ r.rm ++ encB r.nf ++ r.m ++ r.d ++ r.a ++ encB r.ta ++ 0#1

def encM (op : BitVec 7) (r : M) : BitVec 64 :=
  op ++ encG r.g ++ r.fn ++ r.d ++ r.a ++ r.x ++ encB r.ta ++ encB r.tb ++ r.f

/-- The fn field set to a code that the constructor holds. -/
def withFn (fn : BitVec 3) (r : M) : M := { r with fn := fn }

/-- field30<28:24> set to an ATOM operation that the constructor holds (08 R169). -/
def withAtom (op : BitVec 5) (r : M) : M :=
  { r with f := r.f.extractLsb' 29 1 ++ op ++ r.f.extractLsb' 0 24 }

def encMma (r : MmaW) : BitVec 64 :=
  48#7 ++ encG r.g ++ r.fa ++ r.fb ++ r.acc ++ r.ec ++ r.gang ++ r.shape ++ r.wA ++ r.wB ++ r.kA ++ r.kB
    ++ r.kb ++ encB r.z ++ encB r.sp ++ encB r.nf ++ 0#8

def encX (f7 : BitVec 7) (t s d : BitVec 5) : BitVec 32 := f7 ++ t ++ s ++ 0#3 ++ d ++ 11#7

def getG (w : BitVec 32) : Guard := ⟨w.extractLsb' 23 3, w.getLsbD 22⟩

def getSR (w : BitVec 32) : SR :=
  ⟨getG w, w.extractLsb' 16 6, w.extractLsb' 10 6, w.extractLsb' 4 6, w.getLsbD 3, w.getLsbD 2⟩

def getCmp (w : BitVec 32) : Cmp :=
  ⟨getG w, w.extractLsb' 16 3, w.extractLsb' 10 6, w.extractLsb' 4 6, w.getLsbD 3, w.getLsbD 2, w.extractLsb' 0 2⟩

def getUn (w : BitVec 32) : Un := ⟨getG w, w.extractLsb' 16 6, w.extractLsb' 10 6, w.getLsbD 3⟩

def getPP (w : BitVec 32) : PP := ⟨getG w, w.extractLsb' 16 3, w.extractLsb' 10 3, w.extractLsb' 4 3⟩

def getSF (w : BitVec 32) : SF :=
  ⟨w.extractLsb' 20 6, w.extractLsb' 14 6, w.extractLsb' 8 6, w.extractLsb' 2 6⟩

def getSI (w : BitVec 32) : SI :=
  ⟨getG w, w.extractLsb' 16 6, w.extractLsb' 10 6, w.getLsbD 9, w.extractLsb' 0 9⟩

def getV (w : BitVec 48) : V :=
  ⟨w.extractLsb' 39 2, w.extractLsb' 36 3, w.extractLsb' 33 3, w.getLsbD 32, w.extractLsb' 29 3,
   w.extractLsb' 23 6, w.extractLsb' 17 6, w.extractLsb' 11 6, w.extractLsb' 5 6,
   w.getLsbD 4, w.getLsbD 3, w.getLsbD 2, w.getLsbD 1⟩

def getF (w : BitVec 32) : FW :=
  ⟨w.extractLsb' 24 2, w.extractLsb' 21 3, w.extractLsb' 18 3, w.getLsbD 17, w.extractLsb' 14 3,
   w.extractLsb' 8 6, w.extractLsb' 2 6, w.getLsbD 1⟩

def getM (w : BitVec 64) : M :=
  ⟨⟨w.extractLsb' 54 3, w.getLsbD 53⟩, w.extractLsb' 50 3, w.extractLsb' 44 6, w.extractLsb' 38 6,
   w.extractLsb' 32 6, w.getLsbD 31, w.getLsbD 30, w.extractLsb' 0 30⟩

def getMma (w : BitVec 64) : MmaW :=
  ⟨⟨w.extractLsb' 54 3, w.getLsbD 53⟩, w.extractLsb' 50 3, w.extractLsb' 47 3, w.extractLsb' 45 2,
   w.extractLsb' 43 2, w.extractLsb' 35 8, w.extractLsb' 31 4, w.extractLsb' 28 3, w.extractLsb' 25 3,
   w.extractLsb' 21 4, w.extractLsb' 17 4, w.extractLsb' 11 6, w.getLsbD 10, w.getLsbD 9, w.getLsbD 8⟩

def getX (w : BitVec 32) : XJ := ⟨w.extractLsb' 7 5, w.extractLsb' 15 5, w.extractLsb' 20 5⟩

/-- A reserved code whose other fields have been checked: their RSVD first, otherwise FORMAT. -/
def badCode (c : Option Cause) : Except Cause Instr :=
  if c = some .rsvd then .error .rsvd else .error .format

/-- The word of a scalar slot (03 R45, R46). -/
def encScalar : Instr → Option (BitVec 32)
  | .snop => some (0)
  | .add r => some (encSR 1 0 r)
  | .sub r => some (encSR 2 0 r)
  | .mul r => some (encSR 3 0 r)
  | .mulh r => some (encSR 4 0 r)
  | .mulhu r => some (encSR 4 1 r)
  | .mulhsu r => some (encSR 4 2 r)
  | .div r => some (encSR 5 0 r)
  | .divu r => some (encSR 5 1 r)
  | .rem r => some (encSR 5 2 r)
  | .remu r => some (encSR 5 3 r)
  | .and r => some (encSR 6 0 r)
  | .or r => some (encSR 7 0 r)
  | .xor r => some (encSR 8 0 r)
  | .andn r => some (encSR 9 0 r)
  | .shl r => some (encSR 10 0 r)
  | .shr r => some (encSR 11 0 r)
  | .sar r => some (encSR 12 0 r)
  | .ror r => some (encSR 13 0 r)
  | .min r => some (encSR 14 0 r)
  | .minu r => some (encSR 14 1 r)
  | .max r => some (encSR 14 2 r)
  | .maxu r => some (encSR 14 3 r)
  | .sel r => some (encSR 17 0 r)
  | .cmp r => some (encCmp 15 r)
  | .cmpu r => some (encCmp 16 r)
  | .clz r => some (encUn 18 0 r)
  | .ctz r => some (encUn 18 1 r)
  | .popc r => some (encUn 18 2 r)
  | .brev r => some (encUn 18 3 r)
  | .sextb r => some (encUn 19 0 r)
  | .sexth r => some (encUn 19 1 r)
  | .sextw r => some (encUn 19 2 r)
  | .zextw r => some (encUn 19 3 r)
  | .pand r => some (encPP 0 r)
  | .por r => some (encPP 1 r)
  | .pxor r => some (encPP 2 r)
  | .pandn r => some (encPP 3 r)
  | .mfp r => some (21#6 ++ encG r.g ++ r.d ++ 0#6 ++ 0#6 ++ 0#2 ++ 0#2)
  | .mtp r => some (21#6 ++ encG r.g ++ 0#6 ++ r.a ++ 0#6 ++ encB r.ta ++ 0#1 ++ 1#2)
  | .bfx r => some (22#6 ++ r.d ++ r.a ++ r.pos ++ r.len ++ 0#2)
  | .bfi r => some (23#6 ++ r.d ++ r.a ++ r.pos ++ r.len ++ 0#2)
  | .addi r => some (encSI 24 r)
  | .andi r => some (encSI 25 r)
  | .ori r => some (encSI 26 r)
  | .xori r => some (encSI 27 r)
  | .shli r => some (encSI 28 r)
  | .shri r => some (encSI 29 r)
  | .sari r => some (encSI 30 r)
  | .muli r => some (encSI 31 r)
  | .cmpi r => some (32#6 ++ encG r.g ++ 0#3 ++ r.d ++ r.a ++ encB r.ta ++ r.cc ++ r.imm)
  | .movi r => some (33#6 ++ encG r.g ++ r.d ++ r.imm)
  | .movk r => some (34#6 ++ r.k ++ 0#2 ++ r.d ++ r.imm)
  | .vget r => some (35#6 ++ encG r.g ++ r.d ++ r.a ++ encB r.ta ++ r.es ++ r.idx)
  | .br r => some (encSB 40 r.g 0 0 r.tgt)
  | .loop r => some (encSB 41 r.g 0 (r.c.setWidth 10) r.tgt)
  | .nest r => some (encSB 42 r.g r.levels (r.p.setWidth 10) r.tgt)
  | .next g => some (encSB 43 g 0 0 0)
  | .calls r => some (encSB 44 r.g 0 (r.t.setWidth 10) 0)
  | .rets g => some (encSB 45 g 0 0 0)
  | .yieldEnd g => some (encSB 46 g 0 0 0)
  | .yieldExit g => some (encSB 46 g 1 0 0)
  | .yieldHdone g => some (encSB 46 g 2 0 0)
  | .trap r => some (encSB 47 r.g 0 r.code 0)
  | .mfs r => some (48#6 ++ encG r.g ++ r.d ++ r.sreg ++ 0#4)
  | .mts r => some (49#6 ++ encG r.g ++ r.src ++ r.sreg ++ encB r.ta ++ 0#3)
  | .rdtimePtime r => some (50#6 ++ encG r.g ++ r.d ++ 0#12 ++ 0#4)
  | .rdtimeCycles r => some (50#6 ++ encG r.g ++ r.d ++ 1#12 ++ 0#4)
  | .pureDelayBundle => none
  | .nullBundle => none
  | .vnop => none
  | .vadd _ => none
  | .vsub _ => none
  | .vmul _ => none
  | .vfma _ => none
  | .vfms _ => none
  | .vfnma _ => none
  | .vmin _ => none
  | .vmax _ => none
  | .vminn _ => none
  | .vmaxn _ => none
  | .vabs _ => none
  | .vneg _ => none
  | .vand _ => none
  | .vor _ => none
  | .vxor _ => none
  | .vandn _ => none
  | .vshl _ => none
  | .vshr _ => none
  | .vsar _ => none
  | .vshli _ => none
  | .vshri _ => none
  | .vsari _ => none
  | .vcmp _ => none
  | .vsel _ => none
  | .vcvt _ => none
  | .vperm _ => none
  | .vshuf _ => none
  | .vbcast _ => none
  | .vmovi _ => none
  | .vred _ => none
  | .vscan _ => none
  | .vmov _ => none
  | .vclz _ => none
  | .vpopc _ => none
  | .vmulh _ => none
  | .vdot4 _ => none
  | .vmxq _ => none
  | .vmxdq _ => none
  | .vmlog _ => none
  | .vmcnt _ => none
  | .vins _ => none
  | .fnop => none
  | .fexp2 _ => none
  | .flog2 _ => none
  | .frcp _ => none
  | .frsqrt _ => none
  | .fsqrt _ => none
  | .ftanh _ => none
  | .fsin _ => none
  | .fcos _ => none
  | .spk24 _ => none
  | .spx24 _ => none
  | .vsort _ => none
  | .vsrch _ => none
  | .mxscl _ => none
  | .vundc _ => none
  | .frill _ => none
  | .mnop => none
  | .ld _ => none
  | .st _ => none
  | .ldv _ => none
  | .stv _ => none
  | .ldsc _ => none
  | .wset _ => none
  | .cflushClean _ => none
  | .cflushFlush _ => none
  | .cflushInv _ => none
  | .cflushRangenc _ => none
  | .atomSwap _ => none
  | .atomCas _ => none
  | .atomAdd _ => none
  | .atomAnd _ => none
  | .atomOr _ => none
  | .atomXor _ => none
  | .atomMin _ => none
  | .atomMax _ => none
  | .atomMinu _ => none
  | .atomMaxu _ => none
  | .atomFadd _ => none
  | .atomIncw _ => none
  | .atomLd _ => none
  | .qmark _ => none
  | .fence _ => none
  | .copy _ => none
  | .put _ => none
  | .get _ => none
  | .gather _ => none
  | .scatter _ => none
  | .scadd _ => none
  | .awr _ => none
  | .engwait _ => none
  | .cpresume _ => none
  | .cpabort _ => none
  | .semsig _ => none
  | .phreg _ => none
  | .phdrop _ => none
  | .phsig _ => none
  | .phwait _ => none
  | .phsw _ => none
  | .phstat _ => none
  | .ring _ => none
  | .sptest _ => none
  | .spcastExplicit _ => none
  | .spcastSelf _ => none
  | .spcastTocluster _ => none
  | .spcastFromcluster _ => none
  | .spcastClexplicit _ => none
  | .spcastClself _ => none
  | .rocall _ => none
  | .rowait _ => none
  | .jetmsg _ => none
  | .mma _ => none
  | .mmz _ => none
  | .mmld _ => none
  | .mmst _ => none
  | .mmrd _ => none
  | .mmwr _ => none
  | .rsplit _ => none
  | .rmerge _ => none
  | .rinv _ => none
  | .rprobe _ => none
  | .slx _ => none
  | .fixedResultLand => none
  | .variableResultLand _ => none
  | .dividerResultLand _ => none
  | .queueEntryPerform _ => none
  | .rtlbWalkComplete _ => none
  | .trapDelivery => none
  | .segmentExpansion _ _ => none
  | .segmentEnd => none
  | .segmentStart => none
  | .taskRetire => none
  | .handlerDormant => none
  | .taskDispatch _ _ => none
  | .jobGranuleWrite _ => none
  | .jobComplete _ => none
  | .slxChunkDeliver _ => none
  | .mmaExecuteStart => none
  | .mmaBlockArrive => none
  | .mmaBlockEnd => none
  | .mmaFault => none
  | .accumulatorLand => none
  | .weirRefill => none
  | .launch _ => none
  | .waitq _ => none
  | .sigq _ => none
  | .sluice _ => none
  | .cpyp _ => none
  | .bkcfg _ => none
  | .basin _ => none
  | .round _ => none
  | .fencep _ => none
  | .hostint _ => none
  | .jump _ => none
  | .stop _ => none
  | .slotDelivery _ => none
  | .launchComplete _ => none
  | .sluiceComplete _ => none
  | .cpypComplete _ => none
  | .cctlGo _ => none
  | .cctlHalt _ => none
  | .cctlKill _ => none
  | .registerWrite _ _ _ => none
  | .registerReadClear _ _ => none
  | .sliceExpiry _ => none
  | .forcedFreeze _ => none
  | .contextSwap _ => none
  | .swapInComplete _ => none
  | .rangeChangeComplete _ => none
  | .markerDrain _ => none
  | .cmpctlGo _ => none
  | .compactionSwap _ => none
  | .compactionDone _ => none
  | .bucketContribution _ _ => none
  | .basinRunStart _ _ => none
  | .basinWord _ _ => none
  | .basinUnitResultLand _ _ => none
  | .ldrRowLand _ _ => none
  | .basinRunHalt _ _ => none
  | .basinSaveMode _ _ => none
  | .allgatherRowReceive _ => none
  | .roundBarrier _ => none
  | .roundBarrierComplete _ => none
  | .jetEvent _ _ _ _ => none
  | .jetmsgArrival _ => none
  | .jetRunStart _ => none
  | .jetRunKill _ _ => none
  | .jl2rd _ => none
  | .jl2wr _ => none
  | .jpf _ => none
  | .jfwd _ => none
  | .jmsg _ => none
  | .jdone _ => none
  | .jbudget _ => none
  | .jlognext _ => none
  | .jlogadv _ => none
  | .jundo _ => none
  | .rocallAppend _ => none
  | .rocallReadQuery _ => none
  | .replayApply _ => none
  | .gets _ => none
  | .getm _ => none
  | .pute _ => none
  | .putm _ => none
  | .fwdGets _ => none
  | .fwdGetm _ => none
  | .inv _ => none
  | .fwdRecall _ => none
  | .farAtomicExecute _ => none
  | .msAccess _ => none
  | .ncWriteback _ _ => none
  | .l2Fill _ _ _ => none
  | .tsvifRetry _ _ _ => none
  | .patrolScrubRow _ _ => none
  | .dramAct _ _ _ _ => none
  | .rowAlert _ _ _ _ => none
  | .trfmExpiry _ _ _ => none
  | .linkReplay _ _ => none
  | .linkRetrainTimeout _ => none
  | .dieReset _ => none
  | .coreRepair _ _ _ => none
  | .inboundPoisonedTlp _ _ _ => none
  | .pcieLinkChange _ => none
  | .powerUp => none
  | .bootgo => none
  | .bootVerifyComplete => none
  | .powerWindow _ => none
  | .pcapWrite _ _ => none
  | .scrubperWrite _ _ _ => none
  | .mthWrite _ _ => none
  | .funcmodeWrite _ _ => none
  | .getVersion _ _ => none
  | .getCapabilities _ _ => none
  | .negotiateAlgorithms _ _ => none
  | .getDigests _ _ => none
  | .getCertificate _ _ => none
  | .challenge _ _ => none
  | .getMeasurements _ _ _ => none
  | .sidebandTelemetryRead _ => none
  | .sidebandErrlogRead _ => none
  | .sidebandPcapAccess _ => none
  | .sidebandDeviceReset => none
  | .sidebandBootRead => none
  | .jetCoreInstruction _ => none
  | .partitionConfiguration _ _ => none
  | .regularRefresh _ _ _ _ => none
  | .scratchpadBankWake _ _ => none
  | .acknowledgement _ => none
  | .linkRetrained _ => none
  | .powerOff => none
  | .inboundMemoryTlp _ _ _ _ => none
  | .remotePackageRequest _ _ _ _ _ => none
  | .allgatherAcknowledgement _ => none

/-- The word of a vector slot (03 R48, R49). -/
def encVector : Instr → Option (BitVec 48)
  | .vnop => some (0)
  | .vadd r => some (encV 1 r)
  | .vsub r => some (encV 2 r)
  | .vmul r => some (encV 3 r)
  | .vfma r => some (encV 4 r)
  | .vfms r => some (encV 5 r)
  | .vfnma r => some (encV 6 r)
  | .vmin r => some (encV 7 r)
  | .vmax r => some (encV 8 r)
  | .vminn r => some (encV 9 r)
  | .vmaxn r => some (encV 10 r)
  | .vabs r => some (encV 11 r)
  | .vneg r => some (encV 12 r)
  | .vand r => some (encV 13 r)
  | .vor r => some (encV 14 r)
  | .vxor r => some (encV 15 r)
  | .vandn r => some (encV 16 r)
  | .vshl r => some (encV 17 r)
  | .vshr r => some (encV 18 r)
  | .vsar r => some (encV 19 r)
  | .vshli r => some (encV 20 r)
  | .vshri r => some (encV 21 r)
  | .vsari r => some (encV 22 r)
  | .vcmp r => some (encV 23 r)
  | .vsel r => some (encV 24 r)
  | .vcvt r => some (encV 25 r)
  | .vperm r => some (encV 26 r)
  | .vshuf r => some (encV 27 r)
  | .vbcast r => some (encV 28 r)
  | .vmovi r => some (encV 29 r)
  | .vred r => some (encV 30 r)
  | .vscan r => some (encV 31 r)
  | .vmov r => some (encV 32 r)
  | .vclz r => some (encV 33 r)
  | .vpopc r => some (encV 34 r)
  | .vmulh r => some (encV 35 r)
  | .vdot4 r => some (encV 36 r)
  | .vmxq r => some (encV 37 r)
  | .vmxdq r => some (encV 38 r)
  | .vmlog r => some (encV 39 r)
  | .vmcnt r => some (encV 40 r)
  | .vins r => some (encV 41 r)
  | .snop => none
  | .add _ => none
  | .sub _ => none
  | .mul _ => none
  | .mulh _ => none
  | .mulhu _ => none
  | .mulhsu _ => none
  | .div _ => none
  | .divu _ => none
  | .rem _ => none
  | .remu _ => none
  | .and _ => none
  | .or _ => none
  | .xor _ => none
  | .andn _ => none
  | .shl _ => none
  | .shr _ => none
  | .sar _ => none
  | .ror _ => none
  | .min _ => none
  | .minu _ => none
  | .max _ => none
  | .maxu _ => none
  | .cmp _ => none
  | .cmpu _ => none
  | .sel _ => none
  | .clz _ => none
  | .ctz _ => none
  | .popc _ => none
  | .brev _ => none
  | .sextb _ => none
  | .sexth _ => none
  | .sextw _ => none
  | .zextw _ => none
  | .pand _ => none
  | .por _ => none
  | .pxor _ => none
  | .pandn _ => none
  | .mfp _ => none
  | .mtp _ => none
  | .bfx _ => none
  | .bfi _ => none
  | .addi _ => none
  | .andi _ => none
  | .ori _ => none
  | .xori _ => none
  | .shli _ => none
  | .shri _ => none
  | .sari _ => none
  | .muli _ => none
  | .cmpi _ => none
  | .movi _ => none
  | .movk _ => none
  | .vget _ => none
  | .br _ => none
  | .loop _ => none
  | .nest _ => none
  | .next _ => none
  | .calls _ => none
  | .rets _ => none
  | .yieldEnd _ => none
  | .yieldExit _ => none
  | .yieldHdone _ => none
  | .trap _ => none
  | .mfs _ => none
  | .mts _ => none
  | .rdtimePtime _ => none
  | .rdtimeCycles _ => none
  | .pureDelayBundle => none
  | .nullBundle => none
  | .fnop => none
  | .fexp2 _ => none
  | .flog2 _ => none
  | .frcp _ => none
  | .frsqrt _ => none
  | .fsqrt _ => none
  | .ftanh _ => none
  | .fsin _ => none
  | .fcos _ => none
  | .spk24 _ => none
  | .spx24 _ => none
  | .vsort _ => none
  | .vsrch _ => none
  | .mxscl _ => none
  | .vundc _ => none
  | .frill _ => none
  | .mnop => none
  | .ld _ => none
  | .st _ => none
  | .ldv _ => none
  | .stv _ => none
  | .ldsc _ => none
  | .wset _ => none
  | .cflushClean _ => none
  | .cflushFlush _ => none
  | .cflushInv _ => none
  | .cflushRangenc _ => none
  | .atomSwap _ => none
  | .atomCas _ => none
  | .atomAdd _ => none
  | .atomAnd _ => none
  | .atomOr _ => none
  | .atomXor _ => none
  | .atomMin _ => none
  | .atomMax _ => none
  | .atomMinu _ => none
  | .atomMaxu _ => none
  | .atomFadd _ => none
  | .atomIncw _ => none
  | .atomLd _ => none
  | .qmark _ => none
  | .fence _ => none
  | .copy _ => none
  | .put _ => none
  | .get _ => none
  | .gather _ => none
  | .scatter _ => none
  | .scadd _ => none
  | .awr _ => none
  | .engwait _ => none
  | .cpresume _ => none
  | .cpabort _ => none
  | .semsig _ => none
  | .phreg _ => none
  | .phdrop _ => none
  | .phsig _ => none
  | .phwait _ => none
  | .phsw _ => none
  | .phstat _ => none
  | .ring _ => none
  | .sptest _ => none
  | .spcastExplicit _ => none
  | .spcastSelf _ => none
  | .spcastTocluster _ => none
  | .spcastFromcluster _ => none
  | .spcastClexplicit _ => none
  | .spcastClself _ => none
  | .rocall _ => none
  | .rowait _ => none
  | .jetmsg _ => none
  | .mma _ => none
  | .mmz _ => none
  | .mmld _ => none
  | .mmst _ => none
  | .mmrd _ => none
  | .mmwr _ => none
  | .rsplit _ => none
  | .rmerge _ => none
  | .rinv _ => none
  | .rprobe _ => none
  | .slx _ => none
  | .fixedResultLand => none
  | .variableResultLand _ => none
  | .dividerResultLand _ => none
  | .queueEntryPerform _ => none
  | .rtlbWalkComplete _ => none
  | .trapDelivery => none
  | .segmentExpansion _ _ => none
  | .segmentEnd => none
  | .segmentStart => none
  | .taskRetire => none
  | .handlerDormant => none
  | .taskDispatch _ _ => none
  | .jobGranuleWrite _ => none
  | .jobComplete _ => none
  | .slxChunkDeliver _ => none
  | .mmaExecuteStart => none
  | .mmaBlockArrive => none
  | .mmaBlockEnd => none
  | .mmaFault => none
  | .accumulatorLand => none
  | .weirRefill => none
  | .launch _ => none
  | .waitq _ => none
  | .sigq _ => none
  | .sluice _ => none
  | .cpyp _ => none
  | .bkcfg _ => none
  | .basin _ => none
  | .round _ => none
  | .fencep _ => none
  | .hostint _ => none
  | .jump _ => none
  | .stop _ => none
  | .slotDelivery _ => none
  | .launchComplete _ => none
  | .sluiceComplete _ => none
  | .cpypComplete _ => none
  | .cctlGo _ => none
  | .cctlHalt _ => none
  | .cctlKill _ => none
  | .registerWrite _ _ _ => none
  | .registerReadClear _ _ => none
  | .sliceExpiry _ => none
  | .forcedFreeze _ => none
  | .contextSwap _ => none
  | .swapInComplete _ => none
  | .rangeChangeComplete _ => none
  | .markerDrain _ => none
  | .cmpctlGo _ => none
  | .compactionSwap _ => none
  | .compactionDone _ => none
  | .bucketContribution _ _ => none
  | .basinRunStart _ _ => none
  | .basinWord _ _ => none
  | .basinUnitResultLand _ _ => none
  | .ldrRowLand _ _ => none
  | .basinRunHalt _ _ => none
  | .basinSaveMode _ _ => none
  | .allgatherRowReceive _ => none
  | .roundBarrier _ => none
  | .roundBarrierComplete _ => none
  | .jetEvent _ _ _ _ => none
  | .jetmsgArrival _ => none
  | .jetRunStart _ => none
  | .jetRunKill _ _ => none
  | .jl2rd _ => none
  | .jl2wr _ => none
  | .jpf _ => none
  | .jfwd _ => none
  | .jmsg _ => none
  | .jdone _ => none
  | .jbudget _ => none
  | .jlognext _ => none
  | .jlogadv _ => none
  | .jundo _ => none
  | .rocallAppend _ => none
  | .rocallReadQuery _ => none
  | .replayApply _ => none
  | .gets _ => none
  | .getm _ => none
  | .pute _ => none
  | .putm _ => none
  | .fwdGets _ => none
  | .fwdGetm _ => none
  | .inv _ => none
  | .fwdRecall _ => none
  | .farAtomicExecute _ => none
  | .msAccess _ => none
  | .ncWriteback _ _ => none
  | .l2Fill _ _ _ => none
  | .tsvifRetry _ _ _ => none
  | .patrolScrubRow _ _ => none
  | .dramAct _ _ _ _ => none
  | .rowAlert _ _ _ _ => none
  | .trfmExpiry _ _ _ => none
  | .linkReplay _ _ => none
  | .linkRetrainTimeout _ => none
  | .dieReset _ => none
  | .coreRepair _ _ _ => none
  | .inboundPoisonedTlp _ _ _ => none
  | .pcieLinkChange _ => none
  | .powerUp => none
  | .bootgo => none
  | .bootVerifyComplete => none
  | .powerWindow _ => none
  | .pcapWrite _ _ => none
  | .scrubperWrite _ _ _ => none
  | .mthWrite _ _ => none
  | .funcmodeWrite _ _ => none
  | .getVersion _ _ => none
  | .getCapabilities _ _ => none
  | .negotiateAlgorithms _ _ => none
  | .getDigests _ _ => none
  | .getCertificate _ _ => none
  | .challenge _ _ => none
  | .getMeasurements _ _ _ => none
  | .sidebandTelemetryRead _ => none
  | .sidebandErrlogRead _ => none
  | .sidebandPcapAccess _ => none
  | .sidebandDeviceReset => none
  | .sidebandBootRead => none
  | .jetCoreInstruction _ => none
  | .partitionConfiguration _ _ => none
  | .regularRefresh _ _ _ _ => none
  | .scratchpadBankWake _ _ => none
  | .acknowledgement _ => none
  | .linkRetrained _ => none
  | .powerOff => none
  | .inboundMemoryTlp _ _ _ _ => none
  | .remotePackageRequest _ _ _ _ _ => none
  | .allgatherAcknowledgement _ => none

/-- The word of an F slot (03 R50). -/
def encSpecial : Instr → Option (BitVec 32)
  | .fnop => some (0)
  | .fexp2 r => some (encF 1 r)
  | .flog2 r => some (encF 2 r)
  | .frcp r => some (encF 3 r)
  | .frsqrt r => some (encF 4 r)
  | .fsqrt r => some (encF 5 r)
  | .ftanh r => some (encF 6 r)
  | .fsin r => some (encF 7 r)
  | .fcos r => some (encF 8 r)
  | .spk24 r => some (encF 10 r)
  | .spx24 r => some (encF 11 r)
  | .vsort r => some (encF 12 r)
  | .vsrch r => some (encF 13 r)
  | .mxscl r => some (encF 14 r)
  | .vundc r => some (encF 15 r)
  | .frill r => some (encF 16 r)
  | .snop => none
  | .add _ => none
  | .sub _ => none
  | .mul _ => none
  | .mulh _ => none
  | .mulhu _ => none
  | .mulhsu _ => none
  | .div _ => none
  | .divu _ => none
  | .rem _ => none
  | .remu _ => none
  | .and _ => none
  | .or _ => none
  | .xor _ => none
  | .andn _ => none
  | .shl _ => none
  | .shr _ => none
  | .sar _ => none
  | .ror _ => none
  | .min _ => none
  | .minu _ => none
  | .max _ => none
  | .maxu _ => none
  | .cmp _ => none
  | .cmpu _ => none
  | .sel _ => none
  | .clz _ => none
  | .ctz _ => none
  | .popc _ => none
  | .brev _ => none
  | .sextb _ => none
  | .sexth _ => none
  | .sextw _ => none
  | .zextw _ => none
  | .pand _ => none
  | .por _ => none
  | .pxor _ => none
  | .pandn _ => none
  | .mfp _ => none
  | .mtp _ => none
  | .bfx _ => none
  | .bfi _ => none
  | .addi _ => none
  | .andi _ => none
  | .ori _ => none
  | .xori _ => none
  | .shli _ => none
  | .shri _ => none
  | .sari _ => none
  | .muli _ => none
  | .cmpi _ => none
  | .movi _ => none
  | .movk _ => none
  | .vget _ => none
  | .br _ => none
  | .loop _ => none
  | .nest _ => none
  | .next _ => none
  | .calls _ => none
  | .rets _ => none
  | .yieldEnd _ => none
  | .yieldExit _ => none
  | .yieldHdone _ => none
  | .trap _ => none
  | .mfs _ => none
  | .mts _ => none
  | .rdtimePtime _ => none
  | .rdtimeCycles _ => none
  | .pureDelayBundle => none
  | .nullBundle => none
  | .vnop => none
  | .vadd _ => none
  | .vsub _ => none
  | .vmul _ => none
  | .vfma _ => none
  | .vfms _ => none
  | .vfnma _ => none
  | .vmin _ => none
  | .vmax _ => none
  | .vminn _ => none
  | .vmaxn _ => none
  | .vabs _ => none
  | .vneg _ => none
  | .vand _ => none
  | .vor _ => none
  | .vxor _ => none
  | .vandn _ => none
  | .vshl _ => none
  | .vshr _ => none
  | .vsar _ => none
  | .vshli _ => none
  | .vshri _ => none
  | .vsari _ => none
  | .vcmp _ => none
  | .vsel _ => none
  | .vcvt _ => none
  | .vperm _ => none
  | .vshuf _ => none
  | .vbcast _ => none
  | .vmovi _ => none
  | .vred _ => none
  | .vscan _ => none
  | .vmov _ => none
  | .vclz _ => none
  | .vpopc _ => none
  | .vmulh _ => none
  | .vdot4 _ => none
  | .vmxq _ => none
  | .vmxdq _ => none
  | .vmlog _ => none
  | .vmcnt _ => none
  | .vins _ => none
  | .mnop => none
  | .ld _ => none
  | .st _ => none
  | .ldv _ => none
  | .stv _ => none
  | .ldsc _ => none
  | .wset _ => none
  | .cflushClean _ => none
  | .cflushFlush _ => none
  | .cflushInv _ => none
  | .cflushRangenc _ => none
  | .atomSwap _ => none
  | .atomCas _ => none
  | .atomAdd _ => none
  | .atomAnd _ => none
  | .atomOr _ => none
  | .atomXor _ => none
  | .atomMin _ => none
  | .atomMax _ => none
  | .atomMinu _ => none
  | .atomMaxu _ => none
  | .atomFadd _ => none
  | .atomIncw _ => none
  | .atomLd _ => none
  | .qmark _ => none
  | .fence _ => none
  | .copy _ => none
  | .put _ => none
  | .get _ => none
  | .gather _ => none
  | .scatter _ => none
  | .scadd _ => none
  | .awr _ => none
  | .engwait _ => none
  | .cpresume _ => none
  | .cpabort _ => none
  | .semsig _ => none
  | .phreg _ => none
  | .phdrop _ => none
  | .phsig _ => none
  | .phwait _ => none
  | .phsw _ => none
  | .phstat _ => none
  | .ring _ => none
  | .sptest _ => none
  | .spcastExplicit _ => none
  | .spcastSelf _ => none
  | .spcastTocluster _ => none
  | .spcastFromcluster _ => none
  | .spcastClexplicit _ => none
  | .spcastClself _ => none
  | .rocall _ => none
  | .rowait _ => none
  | .jetmsg _ => none
  | .mma _ => none
  | .mmz _ => none
  | .mmld _ => none
  | .mmst _ => none
  | .mmrd _ => none
  | .mmwr _ => none
  | .rsplit _ => none
  | .rmerge _ => none
  | .rinv _ => none
  | .rprobe _ => none
  | .slx _ => none
  | .fixedResultLand => none
  | .variableResultLand _ => none
  | .dividerResultLand _ => none
  | .queueEntryPerform _ => none
  | .rtlbWalkComplete _ => none
  | .trapDelivery => none
  | .segmentExpansion _ _ => none
  | .segmentEnd => none
  | .segmentStart => none
  | .taskRetire => none
  | .handlerDormant => none
  | .taskDispatch _ _ => none
  | .jobGranuleWrite _ => none
  | .jobComplete _ => none
  | .slxChunkDeliver _ => none
  | .mmaExecuteStart => none
  | .mmaBlockArrive => none
  | .mmaBlockEnd => none
  | .mmaFault => none
  | .accumulatorLand => none
  | .weirRefill => none
  | .launch _ => none
  | .waitq _ => none
  | .sigq _ => none
  | .sluice _ => none
  | .cpyp _ => none
  | .bkcfg _ => none
  | .basin _ => none
  | .round _ => none
  | .fencep _ => none
  | .hostint _ => none
  | .jump _ => none
  | .stop _ => none
  | .slotDelivery _ => none
  | .launchComplete _ => none
  | .sluiceComplete _ => none
  | .cpypComplete _ => none
  | .cctlGo _ => none
  | .cctlHalt _ => none
  | .cctlKill _ => none
  | .registerWrite _ _ _ => none
  | .registerReadClear _ _ => none
  | .sliceExpiry _ => none
  | .forcedFreeze _ => none
  | .contextSwap _ => none
  | .swapInComplete _ => none
  | .rangeChangeComplete _ => none
  | .markerDrain _ => none
  | .cmpctlGo _ => none
  | .compactionSwap _ => none
  | .compactionDone _ => none
  | .bucketContribution _ _ => none
  | .basinRunStart _ _ => none
  | .basinWord _ _ => none
  | .basinUnitResultLand _ _ => none
  | .ldrRowLand _ _ => none
  | .basinRunHalt _ _ => none
  | .basinSaveMode _ _ => none
  | .allgatherRowReceive _ => none
  | .roundBarrier _ => none
  | .roundBarrierComplete _ => none
  | .jetEvent _ _ _ _ => none
  | .jetmsgArrival _ => none
  | .jetRunStart _ => none
  | .jetRunKill _ _ => none
  | .jl2rd _ => none
  | .jl2wr _ => none
  | .jpf _ => none
  | .jfwd _ => none
  | .jmsg _ => none
  | .jdone _ => none
  | .jbudget _ => none
  | .jlognext _ => none
  | .jlogadv _ => none
  | .jundo _ => none
  | .rocallAppend _ => none
  | .rocallReadQuery _ => none
  | .replayApply _ => none
  | .gets _ => none
  | .getm _ => none
  | .pute _ => none
  | .putm _ => none
  | .fwdGets _ => none
  | .fwdGetm _ => none
  | .inv _ => none
  | .fwdRecall _ => none
  | .farAtomicExecute _ => none
  | .msAccess _ => none
  | .ncWriteback _ _ => none
  | .l2Fill _ _ _ => none
  | .tsvifRetry _ _ _ => none
  | .patrolScrubRow _ _ => none
  | .dramAct _ _ _ _ => none
  | .rowAlert _ _ _ _ => none
  | .trfmExpiry _ _ _ => none
  | .linkReplay _ _ => none
  | .linkRetrainTimeout _ => none
  | .dieReset _ => none
  | .coreRepair _ _ _ => none
  | .inboundPoisonedTlp _ _ _ => none
  | .pcieLinkChange _ => none
  | .powerUp => none
  | .bootgo => none
  | .bootVerifyComplete => none
  | .powerWindow _ => none
  | .pcapWrite _ _ => none
  | .scrubperWrite _ _ _ => none
  | .mthWrite _ _ => none
  | .funcmodeWrite _ _ => none
  | .getVersion _ _ => none
  | .getCapabilities _ _ => none
  | .negotiateAlgorithms _ _ => none
  | .getDigests _ _ => none
  | .getCertificate _ _ => none
  | .challenge _ _ => none
  | .getMeasurements _ _ _ => none
  | .sidebandTelemetryRead _ => none
  | .sidebandErrlogRead _ => none
  | .sidebandPcapAccess _ => none
  | .sidebandDeviceReset => none
  | .sidebandBootRead => none
  | .jetCoreInstruction _ => none
  | .partitionConfiguration _ _ => none
  | .regularRefresh _ _ _ _ => none
  | .scratchpadBankWake _ _ => none
  | .acknowledgement _ => none
  | .linkRetrained _ => none
  | .powerOff => none
  | .inboundMemoryTlp _ _ _ _ => none
  | .remotePackageRequest _ _ _ _ _ => none
  | .allgatherAcknowledgement _ => none

/-- The word of a memory slot (03 R51 to R54). -/
def encMemory : Instr → Option (BitVec 64)
  | .mnop => some (0)
  | .ld r => some (encM 1 r)
  | .st r => some (encM 2 r)
  | .ldv r => some (encM 3 r)
  | .stv r => some (encM 4 r)
  | .ldsc r => some (encM 5 r)
  | .wset r => some (encM 6 r)
  | .qmark r => some (encM 9 r)
  | .fence r => some (encM 10 r)
  | .copy r => some (encM 16 r)
  | .put r => some (encM 17 r)
  | .get r => some (encM 18 r)
  | .gather r => some (encM 19 r)
  | .scatter r => some (encM 20 r)
  | .scadd r => some (encM 21 r)
  | .awr r => some (encM 22 r)
  | .engwait r => some (encM 23 r)
  | .cpresume r => some (encM 24 r)
  | .cpabort r => some (encM 25 r)
  | .semsig r => some (encM 32 r)
  | .phreg r => some (encM 33 r)
  | .phdrop r => some (encM 34 r)
  | .phsig r => some (encM 35 r)
  | .phwait r => some (encM 36 r)
  | .phsw r => some (encM 37 r)
  | .phstat r => some (encM 38 r)
  | .ring r => some (encM 39 r)
  | .sptest r => some (encM 40 r)
  | .rocall r => some (encM 42 r)
  | .rowait r => some (encM 43 r)
  | .jetmsg r => some (encM 44 r)
  | .mmz r => some (encM 49 r)
  | .mmld r => some (encM 50 r)
  | .mmst r => some (encM 51 r)
  | .mmrd r => some (encM 52 r)
  | .mmwr r => some (encM 53 r)
  | .rsplit r => some (encM 56 r)
  | .rmerge r => some (encM 57 r)
  | .rinv r => some (encM 58 r)
  | .rprobe r => some (encM 59 r)
  | .slx r => some (encM 60 r)
  | .cflushClean r => some (encM 7 (withFn 0 r))
  | .cflushFlush r => some (encM 7 (withFn 1 r))
  | .cflushInv r => some (encM 7 (withFn 2 r))
  | .cflushRangenc r => some (encM 7 (withFn 3 r))
  | .atomSwap r => some (encM 8 (withAtom 0 r))
  | .atomCas r => some (encM 8 (withAtom 1 r))
  | .atomAdd r => some (encM 8 (withAtom 2 r))
  | .atomAnd r => some (encM 8 (withAtom 3 r))
  | .atomOr r => some (encM 8 (withAtom 4 r))
  | .atomXor r => some (encM 8 (withAtom 5 r))
  | .atomMin r => some (encM 8 (withAtom 6 r))
  | .atomMax r => some (encM 8 (withAtom 7 r))
  | .atomMinu r => some (encM 8 (withAtom 8 r))
  | .atomMaxu r => some (encM 8 (withAtom 9 r))
  | .atomFadd r => some (encM 8 (withAtom 10 r))
  | .atomIncw r => some (encM 8 (withAtom 11 r))
  | .atomLd r => some (encM 8 (withAtom 12 r))
  | .spcastExplicit r => some (encM 41 (withFn 0 r))
  | .spcastSelf r => some (encM 41 (withFn 1 r))
  | .spcastTocluster r => some (encM 41 (withFn 2 r))
  | .spcastFromcluster r => some (encM 41 (withFn 3 r))
  | .spcastClexplicit r => some (encM 41 (withFn 4 r))
  | .spcastClself r => some (encM 41 (withFn 5 r))
  | .mma r => some (encMma r)
  | .snop => none
  | .add _ => none
  | .sub _ => none
  | .mul _ => none
  | .mulh _ => none
  | .mulhu _ => none
  | .mulhsu _ => none
  | .div _ => none
  | .divu _ => none
  | .rem _ => none
  | .remu _ => none
  | .and _ => none
  | .or _ => none
  | .xor _ => none
  | .andn _ => none
  | .shl _ => none
  | .shr _ => none
  | .sar _ => none
  | .ror _ => none
  | .min _ => none
  | .minu _ => none
  | .max _ => none
  | .maxu _ => none
  | .cmp _ => none
  | .cmpu _ => none
  | .sel _ => none
  | .clz _ => none
  | .ctz _ => none
  | .popc _ => none
  | .brev _ => none
  | .sextb _ => none
  | .sexth _ => none
  | .sextw _ => none
  | .zextw _ => none
  | .pand _ => none
  | .por _ => none
  | .pxor _ => none
  | .pandn _ => none
  | .mfp _ => none
  | .mtp _ => none
  | .bfx _ => none
  | .bfi _ => none
  | .addi _ => none
  | .andi _ => none
  | .ori _ => none
  | .xori _ => none
  | .shli _ => none
  | .shri _ => none
  | .sari _ => none
  | .muli _ => none
  | .cmpi _ => none
  | .movi _ => none
  | .movk _ => none
  | .vget _ => none
  | .br _ => none
  | .loop _ => none
  | .nest _ => none
  | .next _ => none
  | .calls _ => none
  | .rets _ => none
  | .yieldEnd _ => none
  | .yieldExit _ => none
  | .yieldHdone _ => none
  | .trap _ => none
  | .mfs _ => none
  | .mts _ => none
  | .rdtimePtime _ => none
  | .rdtimeCycles _ => none
  | .pureDelayBundle => none
  | .nullBundle => none
  | .vnop => none
  | .vadd _ => none
  | .vsub _ => none
  | .vmul _ => none
  | .vfma _ => none
  | .vfms _ => none
  | .vfnma _ => none
  | .vmin _ => none
  | .vmax _ => none
  | .vminn _ => none
  | .vmaxn _ => none
  | .vabs _ => none
  | .vneg _ => none
  | .vand _ => none
  | .vor _ => none
  | .vxor _ => none
  | .vandn _ => none
  | .vshl _ => none
  | .vshr _ => none
  | .vsar _ => none
  | .vshli _ => none
  | .vshri _ => none
  | .vsari _ => none
  | .vcmp _ => none
  | .vsel _ => none
  | .vcvt _ => none
  | .vperm _ => none
  | .vshuf _ => none
  | .vbcast _ => none
  | .vmovi _ => none
  | .vred _ => none
  | .vscan _ => none
  | .vmov _ => none
  | .vclz _ => none
  | .vpopc _ => none
  | .vmulh _ => none
  | .vdot4 _ => none
  | .vmxq _ => none
  | .vmxdq _ => none
  | .vmlog _ => none
  | .vmcnt _ => none
  | .vins _ => none
  | .fnop => none
  | .fexp2 _ => none
  | .flog2 _ => none
  | .frcp _ => none
  | .frsqrt _ => none
  | .fsqrt _ => none
  | .ftanh _ => none
  | .fsin _ => none
  | .fcos _ => none
  | .spk24 _ => none
  | .spx24 _ => none
  | .vsort _ => none
  | .vsrch _ => none
  | .mxscl _ => none
  | .vundc _ => none
  | .frill _ => none
  | .fixedResultLand => none
  | .variableResultLand _ => none
  | .dividerResultLand _ => none
  | .queueEntryPerform _ => none
  | .rtlbWalkComplete _ => none
  | .trapDelivery => none
  | .segmentExpansion _ _ => none
  | .segmentEnd => none
  | .segmentStart => none
  | .taskRetire => none
  | .handlerDormant => none
  | .taskDispatch _ _ => none
  | .jobGranuleWrite _ => none
  | .jobComplete _ => none
  | .slxChunkDeliver _ => none
  | .mmaExecuteStart => none
  | .mmaBlockArrive => none
  | .mmaBlockEnd => none
  | .mmaFault => none
  | .accumulatorLand => none
  | .weirRefill => none
  | .launch _ => none
  | .waitq _ => none
  | .sigq _ => none
  | .sluice _ => none
  | .cpyp _ => none
  | .bkcfg _ => none
  | .basin _ => none
  | .round _ => none
  | .fencep _ => none
  | .hostint _ => none
  | .jump _ => none
  | .stop _ => none
  | .slotDelivery _ => none
  | .launchComplete _ => none
  | .sluiceComplete _ => none
  | .cpypComplete _ => none
  | .cctlGo _ => none
  | .cctlHalt _ => none
  | .cctlKill _ => none
  | .registerWrite _ _ _ => none
  | .registerReadClear _ _ => none
  | .sliceExpiry _ => none
  | .forcedFreeze _ => none
  | .contextSwap _ => none
  | .swapInComplete _ => none
  | .rangeChangeComplete _ => none
  | .markerDrain _ => none
  | .cmpctlGo _ => none
  | .compactionSwap _ => none
  | .compactionDone _ => none
  | .bucketContribution _ _ => none
  | .basinRunStart _ _ => none
  | .basinWord _ _ => none
  | .basinUnitResultLand _ _ => none
  | .ldrRowLand _ _ => none
  | .basinRunHalt _ _ => none
  | .basinSaveMode _ _ => none
  | .allgatherRowReceive _ => none
  | .roundBarrier _ => none
  | .roundBarrierComplete _ => none
  | .jetEvent _ _ _ _ => none
  | .jetmsgArrival _ => none
  | .jetRunStart _ => none
  | .jetRunKill _ _ => none
  | .jl2rd _ => none
  | .jl2wr _ => none
  | .jpf _ => none
  | .jfwd _ => none
  | .jmsg _ => none
  | .jdone _ => none
  | .jbudget _ => none
  | .jlognext _ => none
  | .jlogadv _ => none
  | .jundo _ => none
  | .rocallAppend _ => none
  | .rocallReadQuery _ => none
  | .replayApply _ => none
  | .gets _ => none
  | .getm _ => none
  | .pute _ => none
  | .putm _ => none
  | .fwdGets _ => none
  | .fwdGetm _ => none
  | .inv _ => none
  | .fwdRecall _ => none
  | .farAtomicExecute _ => none
  | .msAccess _ => none
  | .ncWriteback _ _ => none
  | .l2Fill _ _ _ => none
  | .tsvifRetry _ _ _ => none
  | .patrolScrubRow _ _ => none
  | .dramAct _ _ _ _ => none
  | .rowAlert _ _ _ _ => none
  | .trfmExpiry _ _ _ => none
  | .linkReplay _ _ => none
  | .linkRetrainTimeout _ => none
  | .dieReset _ => none
  | .coreRepair _ _ _ => none
  | .inboundPoisonedTlp _ _ _ => none
  | .pcieLinkChange _ => none
  | .powerUp => none
  | .bootgo => none
  | .bootVerifyComplete => none
  | .powerWindow _ => none
  | .pcapWrite _ _ => none
  | .scrubperWrite _ _ _ => none
  | .mthWrite _ _ => none
  | .funcmodeWrite _ _ => none
  | .getVersion _ _ => none
  | .getCapabilities _ _ => none
  | .negotiateAlgorithms _ _ => none
  | .getDigests _ _ => none
  | .getCertificate _ _ => none
  | .challenge _ _ => none
  | .getMeasurements _ _ _ => none
  | .sidebandTelemetryRead _ => none
  | .sidebandErrlogRead _ => none
  | .sidebandPcapAccess _ => none
  | .sidebandDeviceReset => none
  | .sidebandBootRead => none
  | .jetCoreInstruction _ => none
  | .partitionConfiguration _ _ => none
  | .regularRefresh _ _ _ _ => none
  | .scratchpadBankWake _ _ => none
  | .acknowledgement _ => none
  | .linkRetrained _ => none
  | .powerOff => none
  | .inboundMemoryTlp _ _ _ _ => none
  | .remotePackageRequest _ _ _ _ _ => none
  | .allgatherAcknowledgement _ => none

/-- The word of an Xjet instruction (17 R313). -/
def encXjet : Instr → Option (BitVec 32)
  | .jl2rd r => some (encX 0 0 r.s r.d)
  | .jl2wr r => some (encX 1 r.t r.s 0)
  | .jpf r => some (encX 2 0 r.s 0)
  | .jfwd r => some (encX 3 r.t r.s 0)
  | .jmsg r => some (encX 4 0 r.s 0)
  | .jdone r => some (encX 5 0 r.s 0)
  | .jbudget r => some (encX 6 0 0 r.d)
  | .jlognext r => some (encX 7 r.t r.s r.d)
  | .jlogadv r => some (encX 8 r.t r.s 0)
  | .jundo r => some (encX 9 0 r.s 0)
  | .snop => none
  | .add _ => none
  | .sub _ => none
  | .mul _ => none
  | .mulh _ => none
  | .mulhu _ => none
  | .mulhsu _ => none
  | .div _ => none
  | .divu _ => none
  | .rem _ => none
  | .remu _ => none
  | .and _ => none
  | .or _ => none
  | .xor _ => none
  | .andn _ => none
  | .shl _ => none
  | .shr _ => none
  | .sar _ => none
  | .ror _ => none
  | .min _ => none
  | .minu _ => none
  | .max _ => none
  | .maxu _ => none
  | .cmp _ => none
  | .cmpu _ => none
  | .sel _ => none
  | .clz _ => none
  | .ctz _ => none
  | .popc _ => none
  | .brev _ => none
  | .sextb _ => none
  | .sexth _ => none
  | .sextw _ => none
  | .zextw _ => none
  | .pand _ => none
  | .por _ => none
  | .pxor _ => none
  | .pandn _ => none
  | .mfp _ => none
  | .mtp _ => none
  | .bfx _ => none
  | .bfi _ => none
  | .addi _ => none
  | .andi _ => none
  | .ori _ => none
  | .xori _ => none
  | .shli _ => none
  | .shri _ => none
  | .sari _ => none
  | .muli _ => none
  | .cmpi _ => none
  | .movi _ => none
  | .movk _ => none
  | .vget _ => none
  | .br _ => none
  | .loop _ => none
  | .nest _ => none
  | .next _ => none
  | .calls _ => none
  | .rets _ => none
  | .yieldEnd _ => none
  | .yieldExit _ => none
  | .yieldHdone _ => none
  | .trap _ => none
  | .mfs _ => none
  | .mts _ => none
  | .rdtimePtime _ => none
  | .rdtimeCycles _ => none
  | .pureDelayBundle => none
  | .nullBundle => none
  | .vnop => none
  | .vadd _ => none
  | .vsub _ => none
  | .vmul _ => none
  | .vfma _ => none
  | .vfms _ => none
  | .vfnma _ => none
  | .vmin _ => none
  | .vmax _ => none
  | .vminn _ => none
  | .vmaxn _ => none
  | .vabs _ => none
  | .vneg _ => none
  | .vand _ => none
  | .vor _ => none
  | .vxor _ => none
  | .vandn _ => none
  | .vshl _ => none
  | .vshr _ => none
  | .vsar _ => none
  | .vshli _ => none
  | .vshri _ => none
  | .vsari _ => none
  | .vcmp _ => none
  | .vsel _ => none
  | .vcvt _ => none
  | .vperm _ => none
  | .vshuf _ => none
  | .vbcast _ => none
  | .vmovi _ => none
  | .vred _ => none
  | .vscan _ => none
  | .vmov _ => none
  | .vclz _ => none
  | .vpopc _ => none
  | .vmulh _ => none
  | .vdot4 _ => none
  | .vmxq _ => none
  | .vmxdq _ => none
  | .vmlog _ => none
  | .vmcnt _ => none
  | .vins _ => none
  | .fnop => none
  | .fexp2 _ => none
  | .flog2 _ => none
  | .frcp _ => none
  | .frsqrt _ => none
  | .fsqrt _ => none
  | .ftanh _ => none
  | .fsin _ => none
  | .fcos _ => none
  | .spk24 _ => none
  | .spx24 _ => none
  | .vsort _ => none
  | .vsrch _ => none
  | .mxscl _ => none
  | .vundc _ => none
  | .frill _ => none
  | .mnop => none
  | .ld _ => none
  | .st _ => none
  | .ldv _ => none
  | .stv _ => none
  | .ldsc _ => none
  | .wset _ => none
  | .cflushClean _ => none
  | .cflushFlush _ => none
  | .cflushInv _ => none
  | .cflushRangenc _ => none
  | .atomSwap _ => none
  | .atomCas _ => none
  | .atomAdd _ => none
  | .atomAnd _ => none
  | .atomOr _ => none
  | .atomXor _ => none
  | .atomMin _ => none
  | .atomMax _ => none
  | .atomMinu _ => none
  | .atomMaxu _ => none
  | .atomFadd _ => none
  | .atomIncw _ => none
  | .atomLd _ => none
  | .qmark _ => none
  | .fence _ => none
  | .copy _ => none
  | .put _ => none
  | .get _ => none
  | .gather _ => none
  | .scatter _ => none
  | .scadd _ => none
  | .awr _ => none
  | .engwait _ => none
  | .cpresume _ => none
  | .cpabort _ => none
  | .semsig _ => none
  | .phreg _ => none
  | .phdrop _ => none
  | .phsig _ => none
  | .phwait _ => none
  | .phsw _ => none
  | .phstat _ => none
  | .ring _ => none
  | .sptest _ => none
  | .spcastExplicit _ => none
  | .spcastSelf _ => none
  | .spcastTocluster _ => none
  | .spcastFromcluster _ => none
  | .spcastClexplicit _ => none
  | .spcastClself _ => none
  | .rocall _ => none
  | .rowait _ => none
  | .jetmsg _ => none
  | .mma _ => none
  | .mmz _ => none
  | .mmld _ => none
  | .mmst _ => none
  | .mmrd _ => none
  | .mmwr _ => none
  | .rsplit _ => none
  | .rmerge _ => none
  | .rinv _ => none
  | .rprobe _ => none
  | .slx _ => none
  | .fixedResultLand => none
  | .variableResultLand _ => none
  | .dividerResultLand _ => none
  | .queueEntryPerform _ => none
  | .rtlbWalkComplete _ => none
  | .trapDelivery => none
  | .segmentExpansion _ _ => none
  | .segmentEnd => none
  | .segmentStart => none
  | .taskRetire => none
  | .handlerDormant => none
  | .taskDispatch _ _ => none
  | .jobGranuleWrite _ => none
  | .jobComplete _ => none
  | .slxChunkDeliver _ => none
  | .mmaExecuteStart => none
  | .mmaBlockArrive => none
  | .mmaBlockEnd => none
  | .mmaFault => none
  | .accumulatorLand => none
  | .weirRefill => none
  | .launch _ => none
  | .waitq _ => none
  | .sigq _ => none
  | .sluice _ => none
  | .cpyp _ => none
  | .bkcfg _ => none
  | .basin _ => none
  | .round _ => none
  | .fencep _ => none
  | .hostint _ => none
  | .jump _ => none
  | .stop _ => none
  | .slotDelivery _ => none
  | .launchComplete _ => none
  | .sluiceComplete _ => none
  | .cpypComplete _ => none
  | .cctlGo _ => none
  | .cctlHalt _ => none
  | .cctlKill _ => none
  | .registerWrite _ _ _ => none
  | .registerReadClear _ _ => none
  | .sliceExpiry _ => none
  | .forcedFreeze _ => none
  | .contextSwap _ => none
  | .swapInComplete _ => none
  | .rangeChangeComplete _ => none
  | .markerDrain _ => none
  | .cmpctlGo _ => none
  | .compactionSwap _ => none
  | .compactionDone _ => none
  | .bucketContribution _ _ => none
  | .basinRunStart _ _ => none
  | .basinWord _ _ => none
  | .basinUnitResultLand _ _ => none
  | .ldrRowLand _ _ => none
  | .basinRunHalt _ _ => none
  | .basinSaveMode _ _ => none
  | .allgatherRowReceive _ => none
  | .roundBarrier _ => none
  | .roundBarrierComplete _ => none
  | .jetEvent _ _ _ _ => none
  | .jetmsgArrival _ => none
  | .jetRunStart _ => none
  | .jetRunKill _ _ => none
  | .rocallAppend _ => none
  | .rocallReadQuery _ => none
  | .replayApply _ => none
  | .gets _ => none
  | .getm _ => none
  | .pute _ => none
  | .putm _ => none
  | .fwdGets _ => none
  | .fwdGetm _ => none
  | .inv _ => none
  | .fwdRecall _ => none
  | .farAtomicExecute _ => none
  | .msAccess _ => none
  | .ncWriteback _ _ => none
  | .l2Fill _ _ _ => none
  | .tsvifRetry _ _ _ => none
  | .patrolScrubRow _ _ => none
  | .dramAct _ _ _ _ => none
  | .rowAlert _ _ _ _ => none
  | .trfmExpiry _ _ _ => none
  | .linkReplay _ _ => none
  | .linkRetrainTimeout _ => none
  | .dieReset _ => none
  | .coreRepair _ _ _ => none
  | .inboundPoisonedTlp _ _ _ => none
  | .pcieLinkChange _ => none
  | .powerUp => none
  | .bootgo => none
  | .bootVerifyComplete => none
  | .powerWindow _ => none
  | .pcapWrite _ _ => none
  | .scrubperWrite _ _ _ => none
  | .mthWrite _ _ => none
  | .funcmodeWrite _ _ => none
  | .getVersion _ _ => none
  | .getCapabilities _ _ => none
  | .negotiateAlgorithms _ _ => none
  | .getDigests _ _ => none
  | .getCertificate _ _ => none
  | .challenge _ _ => none
  | .getMeasurements _ _ _ => none
  | .sidebandTelemetryRead _ => none
  | .sidebandErrlogRead _ => none
  | .sidebandPcapAccess _ => none
  | .sidebandDeviceReset => none
  | .sidebandBootRead => none
  | .jetCoreInstruction _ => none
  | .partitionConfiguration _ _ => none
  | .regularRefresh _ _ _ _ => none
  | .scratchpadBankWake _ _ => none
  | .acknowledgement _ => none
  | .linkRetrained _ => none
  | .powerOff => none
  | .inboundMemoryTlp _ _ _ _ => none
  | .remotePackageRequest _ _ _ _ _ => none
  | .allgatherAcknowledgement _ => none

/-- The scalar instruction of a word, before its unused fields are checked; an unassigned opcode is ILLEGAL, a
reserved function code FORMAT (03 R46). -/
def parseScalar (w : BitVec 32) : Except Cause Instr :=
  match (w.extractLsb' 26 6).toNat, (w.extractLsb' 0 2).toNat with
  | 0, _ => .ok .snop
  | 1, _ => .ok (.add (getSR w))
  | 2, _ => .ok (.sub (getSR w))
  | 3, _ => .ok (.mul (getSR w))
  | 4, 0 => .ok (.mulh (getSR w))
  | 4, 1 => .ok (.mulhu (getSR w))
  | 4, 2 => .ok (.mulhsu (getSR w))
  | 4, _ => .error .format
  | 5, 0 => .ok (.div (getSR w))
  | 5, 1 => .ok (.divu (getSR w))
  | 5, 2 => .ok (.rem (getSR w))
  | 5, 3 => .ok (.remu (getSR w))
  | 6, _ => .ok (.and (getSR w))
  | 7, _ => .ok (.or (getSR w))
  | 8, _ => .ok (.xor (getSR w))
  | 9, _ => .ok (.andn (getSR w))
  | 10, _ => .ok (.shl (getSR w))
  | 11, _ => .ok (.shr (getSR w))
  | 12, _ => .ok (.sar (getSR w))
  | 13, _ => .ok (.ror (getSR w))
  | 14, 0 => .ok (.min (getSR w))
  | 14, 1 => .ok (.minu (getSR w))
  | 14, 2 => .ok (.max (getSR w))
  | 14, 3 => .ok (.maxu (getSR w))
  | 17, _ => .ok (.sel (getSR w))
  | 15, _ => .ok (.cmp (getCmp w))
  | 16, _ => .ok (.cmpu (getCmp w))
  | 18, 0 => .ok (.clz (getUn w))
  | 18, 1 => .ok (.ctz (getUn w))
  | 18, 2 => .ok (.popc (getUn w))
  | 18, 3 => .ok (.brev (getUn w))
  | 19, 0 => .ok (.sextb (getUn w))
  | 19, 1 => .ok (.sexth (getUn w))
  | 19, 2 => .ok (.sextw (getUn w))
  | 19, 3 => .ok (.zextw (getUn w))
  | 20, 0 => .ok (.pand (getPP w))
  | 20, 1 => .ok (.por (getPP w))
  | 20, 2 => .ok (.pxor (getPP w))
  | 20, 3 => .ok (.pandn (getPP w))
  | 21, 0 => .ok (.mfp ⟨getG w, w.extractLsb' 16 6⟩)
  | 21, 1 => .ok (.mtp ⟨getG w, w.extractLsb' 10 6, w.getLsbD 3⟩)
  | 21, _ => if w.extractLsb' 4 6 = 0 && !w.getLsbD 2 then .error .format else .error .rsvd
  | 22, _ => .ok (.bfx (getSF w))
  | 23, _ => .ok (.bfi (getSF w))
  | 24, _ => .ok (.addi (getSI w))
  | 25, _ => .ok (.andi (getSI w))
  | 26, _ => .ok (.ori (getSI w))
  | 27, _ => .ok (.xori (getSI w))
  | 28, _ => .ok (.shli (getSI w))
  | 29, _ => .ok (.shri (getSI w))
  | 30, _ => .ok (.sari (getSI w))
  | 31, _ => .ok (.muli (getSI w))
  | 32, _ => .ok (.cmpi ⟨getG w, w.extractLsb' 16 3, w.extractLsb' 10 6, w.getLsbD 9, w.extractLsb' 6 3, w.extractLsb' 0 6⟩)
  | 33, _ => .ok (.movi ⟨getG w, w.extractLsb' 16 6, w.extractLsb' 0 16⟩)
  | 34, _ => .ok (.movk ⟨w.extractLsb' 24 2, w.extractLsb' 16 6, w.extractLsb' 0 16⟩)
  | 35, _ => .ok (.vget ⟨getG w, w.extractLsb' 16 6, w.extractLsb' 10 6, w.getLsbD 9, w.extractLsb' 7 2, w.extractLsb' 0 7⟩)
  | 40, _ => .ok (.br ⟨getG w, w.extractLsb' 0 8⟩)
  | 41, _ => .ok (.loop ⟨getG w, w.extractLsb' 8 6, w.extractLsb' 0 8⟩)
  | 42, _ => .ok (.nest ⟨getG w, w.extractLsb' 18 4, w.extractLsb' 8 6, w.extractLsb' 0 8⟩)
  | 43, _ => .ok (.next (getG w))
  | 44, _ => .ok (.calls ⟨getG w, w.extractLsb' 8 6⟩)
  | 45, _ => .ok (.rets (getG w))
  | 46, _ =>
    match (w.extractLsb' 18 4).toNat with
    | 0 => .ok (.yieldEnd (getG w))
    | 1 => .ok (.yieldExit (getG w))
    | 2 => .ok (.yieldHdone (getG w))
    | _ => if w.extractLsb' 0 18 = 0 then .error .format else .error .rsvd
  | 47, _ => .ok (.trap ⟨getG w, w.extractLsb' 8 10⟩)
  | 48, _ => .ok (.mfs ⟨getG w, w.extractLsb' 16 6, w.extractLsb' 4 12⟩)
  | 49, _ => .ok (.mts ⟨getG w, w.extractLsb' 16 6, w.extractLsb' 4 12, w.getLsbD 3⟩)
  | 50, _ =>
    match (w.extractLsb' 4 12).toNat with
    | 0 => .ok (.rdtimePtime ⟨getG w, w.extractLsb' 16 6⟩)
    | 1 => .ok (.rdtimeCycles ⟨getG w, w.extractLsb' 16 6⟩)
    | _ => if w.extractLsb' 0 4 = 0 then .error .format else .error .rsvd
  | _, _ => .error .illegal

/-- The vector instruction of a word (03 R49). -/
def parseVector (w : BitVec 48) : Except Cause Instr :=
  match (w.extractLsb' 41 7).toNat with
  | 0 => .ok .vnop
  | 1 => .ok (.vadd (getV w))
  | 2 => .ok (.vsub (getV w))
  | 3 => .ok (.vmul (getV w))
  | 4 => .ok (.vfma (getV w))
  | 5 => .ok (.vfms (getV w))
  | 6 => .ok (.vfnma (getV w))
  | 7 => .ok (.vmin (getV w))
  | 8 => .ok (.vmax (getV w))
  | 9 => .ok (.vminn (getV w))
  | 10 => .ok (.vmaxn (getV w))
  | 11 => .ok (.vabs (getV w))
  | 12 => .ok (.vneg (getV w))
  | 13 => .ok (.vand (getV w))
  | 14 => .ok (.vor (getV w))
  | 15 => .ok (.vxor (getV w))
  | 16 => .ok (.vandn (getV w))
  | 17 => .ok (.vshl (getV w))
  | 18 => .ok (.vshr (getV w))
  | 19 => .ok (.vsar (getV w))
  | 20 => .ok (.vshli (getV w))
  | 21 => .ok (.vshri (getV w))
  | 22 => .ok (.vsari (getV w))
  | 23 => .ok (.vcmp (getV w))
  | 24 => .ok (.vsel (getV w))
  | 25 => .ok (.vcvt (getV w))
  | 26 => .ok (.vperm (getV w))
  | 27 => .ok (.vshuf (getV w))
  | 28 => .ok (.vbcast (getV w))
  | 29 => .ok (.vmovi (getV w))
  | 30 => .ok (.vred (getV w))
  | 31 => .ok (.vscan (getV w))
  | 32 => .ok (.vmov (getV w))
  | 33 => .ok (.vclz (getV w))
  | 34 => .ok (.vpopc (getV w))
  | 35 => .ok (.vmulh (getV w))
  | 36 => .ok (.vdot4 (getV w))
  | 37 => .ok (.vmxq (getV w))
  | 38 => .ok (.vmxdq (getV w))
  | 39 => .ok (.vmlog (getV w))
  | 40 => .ok (.vmcnt (getV w))
  | 41 => .ok (.vins (getV w))
  | _ => .error .illegal

/-- The F-slot instruction of a word (03 R50). -/
def parseSpecial (w : BitVec 32) : Except Cause Instr :=
  match (w.extractLsb' 26 6).toNat with
  | 0 => .ok .fnop
  | 1 => .ok (.fexp2 (getF w))
  | 2 => .ok (.flog2 (getF w))
  | 3 => .ok (.frcp (getF w))
  | 4 => .ok (.frsqrt (getF w))
  | 5 => .ok (.fsqrt (getF w))
  | 6 => .ok (.ftanh (getF w))
  | 7 => .ok (.fsin (getF w))
  | 8 => .ok (.fcos (getF w))
  | 10 => .ok (.spk24 (getF w))
  | 11 => .ok (.spx24 (getF w))
  | 12 => .ok (.vsort (getF w))
  | 13 => .ok (.vsrch (getF w))
  | 14 => .ok (.mxscl (getF w))
  | 15 => .ok (.vundc (getF w))
  | 16 => .ok (.frill (getF w))
  | _ => .error .illegal

/-- The memory-slot instruction of a word (03 R53, 08 R168, R169, R187). -/
def parseMemory (w : BitVec 64) : Except Cause Instr :=
  match (w.extractLsb' 57 7).toNat with
  | 0 => .ok .mnop
  | 1 => .ok (.ld (getM w))
  | 2 => .ok (.st (getM w))
  | 3 => .ok (.ldv (getM w))
  | 4 => .ok (.stv (getM w))
  | 5 => .ok (.ldsc (getM w))
  | 6 => .ok (.wset (getM w))
  | 7 =>
    match (w.extractLsb' 50 3).toNat with
    | 0 => .ok (.cflushClean (withFn 0 (getM w)))
    | 1 => .ok (.cflushFlush (withFn 0 (getM w)))
    | 2 => .ok (.cflushInv (withFn 0 (getM w)))
    | 3 => .ok (.cflushRangenc (withFn 0 (getM w)))
    | _ => badCode (checkFlush (withFn 0 (getM w)))
  | 8 =>
    match (w.extractLsb' 24 5).toNat with
    | 0 => .ok (.atomSwap (withAtom 0 (getM w)))
    | 1 => .ok (.atomCas (withAtom 0 (getM w)))
    | 2 => .ok (.atomAdd (withAtom 0 (getM w)))
    | 3 => .ok (.atomAnd (withAtom 0 (getM w)))
    | 4 => .ok (.atomOr (withAtom 0 (getM w)))
    | 5 => .ok (.atomXor (withAtom 0 (getM w)))
    | 6 => .ok (.atomMin (withAtom 0 (getM w)))
    | 7 => .ok (.atomMax (withAtom 0 (getM w)))
    | 8 => .ok (.atomMinu (withAtom 0 (getM w)))
    | 9 => .ok (.atomMaxu (withAtom 0 (getM w)))
    | 10 => .ok (.atomFadd (withAtom 0 (getM w)))
    | 11 => .ok (.atomIncw (withAtom 0 (getM w)))
    | 12 => .ok (.atomLd (withAtom 0 (getM w)))
    | _ => badCode (checkAtom false (withAtom 0 (getM w)))
  | 9 => .ok (.qmark (getM w))
  | 10 => .ok (.fence (getM w))
  | 16 => .ok (.copy (getM w))
  | 17 => .ok (.put (getM w))
  | 18 => .ok (.get (getM w))
  | 19 => .ok (.gather (getM w))
  | 20 => .ok (.scatter (getM w))
  | 21 => .ok (.scadd (getM w))
  | 22 => .ok (.awr (getM w))
  | 23 => .ok (.engwait (getM w))
  | 24 => .ok (.cpresume (getM w))
  | 25 => .ok (.cpabort (getM w))
  | 32 => .ok (.semsig (getM w))
  | 33 => .ok (.phreg (getM w))
  | 34 => .ok (.phdrop (getM w))
  | 35 => .ok (.phsig (getM w))
  | 36 => .ok (.phwait (getM w))
  | 37 => .ok (.phsw (getM w))
  | 38 => .ok (.phstat (getM w))
  | 39 => .ok (.ring (getM w))
  | 40 => .ok (.sptest (getM w))
  | 41 =>
    match (w.extractLsb' 50 3).toNat with
    | 0 => .ok (.spcastExplicit (withFn 0 (getM w)))
    | 1 => .ok (.spcastSelf (withFn 0 (getM w)))
    | 2 => .ok (.spcastTocluster (withFn 0 (getM w)))
    | 3 => .ok (.spcastFromcluster (withFn 0 (getM w)))
    | 4 => .ok (.spcastClexplicit (withFn 0 (getM w)))
    | 5 => .ok (.spcastClself (withFn 0 (getM w)))
    | _ => badCode (rsvdM mDA (withFn 0 (getM w)))
  | 42 => .ok (.rocall (getM w))
  | 43 => .ok (.rowait (getM w))
  | 44 => .ok (.jetmsg (getM w))
  | 48 => .ok (.mma (getMma w))
  | 49 => .ok (.mmz (getM w))
  | 50 => .ok (.mmld (getM w))
  | 51 => .ok (.mmst (getM w))
  | 52 => .ok (.mmrd (getM w))
  | 53 => .ok (.mmwr (getM w))
  | 56 => .ok (.rsplit (getM w))
  | 57 => .ok (.rmerge (getM w))
  | 58 => .ok (.rinv (getM w))
  | 59 => .ok (.rprobe (getM w))
  | 60 => .ok (.slx (getM w))
  | _ => .error .illegal

/-- The Xjet instruction of a word (17 R313); none where funct7 or the opcode is unassigned. -/
def parseXjet (w : BitVec 32) : Option Instr :=
  if w.extractLsb' 0 7 = 11 then
    match (w.extractLsb' 25 7).toNat with
    | 0 => some (.jl2rd (getX w))
    | 1 => some (.jl2wr (getX w))
    | 2 => some (.jpf (getX w))
    | 3 => some (.jfwd (getX w))
    | 4 => some (.jmsg (getX w))
    | 5 => some (.jdone (getX w))
    | 6 => some (.jbudget (getX w))
    | 7 => some (.jlognext (getX w))
    | 8 => some (.jlogadv (getX w))
    | 9 => some (.jundo (getX w))
    | _ => none
  else none

/-- The checks that follow parsing, in the order of 03 R60: a word that differs from the encoding of what was
parsed holds a non-zero unused field or reserved bit (RSVD); then the instruction's own checks. -/
def finish {n : Nat} (enc : Instr → Option (BitVec n)) (w : BitVec n) (p : Except Cause Instr) : Except Cause Instr :=
  match p with
  | .error c => .error c
  | .ok i =>
    if enc i = some w then
      match i.check with
      | some c => .error c
      | none => .ok i
    else .error .rsvd

def decodeScalar (w : BitVec 32) : Except Cause Instr := finish encScalar w (parseScalar w)
def decodeVector (w : BitVec 48) : Except Cause Instr := finish encVector w (parseVector w)
def decodeSpecial (w : BitVec 32) : Except Cause Instr := finish encSpecial w (parseSpecial w)
def decodeMemory (w : BitVec 64) : Except Cause Instr := finish encMemory w (parseMemory w)

/-- The Xjet instruction of a word: any other funct7 and any non-zero unused field is illegal (17 R313). -/
def decodeXjet (w : BitVec 32) : Option Instr :=
  match parseXjet w with
  | some i => if encXjet i = some w then some i else none
  | none => none

/-- The instruction of slot number n (0 S0 to 7 M1) whose word is w (03 R41). -/
def decodeSlot (n : Nat) (w : Word) : Except Cause Instr :=
  if n ≤ 1 then decodeScalar (w.setWidth 32)
  else if n ≤ 4 then decodeVector (w.setWidth 48)
  else if n = 5 then decodeSpecial (w.setWidth 32)
  else decodeMemory w

/-- Opcode field of a memory slot's word. -/
def memoryOp (w : Word) : Nat := (w.extractLsb' 57 7).toNat

/-- The encoding of an instruction: its length in bits and its word. Events have none. -/
def encode (i : Instr) : Option (Nat × Word) :=
  match encScalar i with
  | some w => some (32, w.setWidth 64)
  | none =>
    match encVector i with
    | some w => some (48, w.setWidth 64)
    | none =>
      match encSpecial i with
      | some w => some (32, w.setWidth 64)
      | none =>
        match encMemory i with
        | some w => some (64, w)
        | none =>
          match encXjet i with
          | some w => some (32, w.setWidth 64)
          | none => none

/-- A bundle header's bytes and slot lengths: bytes of slot n (03 R41). -/
def slotBytes (n : Nat) : Nat := if n ≤ 1 || n = 5 then 4 else if n ≤ 4 then 6 else 8

/-- The presence of slot n in a bundle header (03 R40). -/
def present (hdr : BitVec 16) (n : Nat) : Bool := hdr.getLsbD n

/-- Length in bytes of a bundle with this header (03 R41). -/
def bundleBytes (hdr : BitVec 16) : Nat :=
  2 + ((List.range 8).filter (present hdr)).foldl (fun n k => n + slotBytes k) 0

/-- An instruction word numbered as spec/opcode_table.json numbers it. A 32-bit word is one of three classes
whose words overlap; it is read as a scalar slot, then as an F slot, then as an Xjet word. A 48-bit word is a
vector slot, a 64-bit word a memory slot. -/
def decodeTableWord (nbits w : Nat) : Option Instr :=
  if nbits ≤ 32 then
    match decodeScalar (BitVec.ofNat 32 w) with
    | .ok i => some i
    | .error _ =>
      match decodeSpecial (BitVec.ofNat 32 w) with
      | .ok i => some i
      | .error _ => decodeXjet (BitVec.ofNat 32 w)
  else if nbits ≤ 48 then (decodeVector (BitVec.ofNat 48 w)).toOption
  else (decodeMemory (BitVec.ofNat 64 w)).toOption

end Sys2Proof
end

