-- ==== Sys2Proof/Config.lean ====
section
/-! DEFINITION. Values that the spec leaves open or that are fixed outside it: opaque constants, about which
nothing can be proved. -/

namespace Sys2Proof.Config

/-- Which of several enabled agents moves next when the agenda is empty, as a function of the free-value
counter (10 R221: every order that the axioms admit may be observed). -/
opaque arb : Nat → Nat

/-- The fused digest of the firmware key, 32 bytes (23 R362). -/
opaque keyDigest : BitVec 256

/-- The fused minimum security version (23 R362). -/
opaque minSvn : Nat

/-- The fused unique secret, 64 bytes (23 R364). -/
opaque uds : BitVec 512

/-- The bytes of the boot ROM, which MR0 is extended with (23 R363). -/
opaque bootRom : List Byte

/-- tRFM of a channel in ns, programmed from its memory's parameters (21 R353, R355), by the number of the channel. -/
opaque trfm : Nat → Nat

/-- The quarters of a 256-byte block in which the compressor stores it, 0 to 4 modulo 5 (10 R217), as a function of the
free-value counter. -/
opaque storedSize : Nat → Nat

/-- The octets of an SPDM response whose encoding the spec leaves to SPDM 1.3 (23 R365), as a function of the
request's kind and of the free-value counter. -/
opaque spdmOctets : Nat → Nat → List Byte

/-- Address of window offset 0, or of method-code offset 0, as a jet core's program counter holds it: 17 gives offsets
only. -/
opaque jetPcBase : BitVec 64

/-- Whether a jet core's misaligned access to an address that it may not reach counts as misaligned (17 R311). -/
opaque jetMisalignedFirst : Bool

/-- The reason that a jet kill by ECALL or EBREAK shows (17 R311). -/
opaque jetCallReason : Nat

/-- The octets of a partition's configuration as loaded, which PMR0 is extended with (23 R363). -/
opaque configOctets : PartConfig → List Byte

/-- The octets of the identity's certificate chain before its public key (23 R364, R365). -/
opaque certificate : List Byte

/-- Offset in BAR2 of the register block of a partition (23 R360). -/
opaque partBlock : Nat → Nat

/-- Bytes of the state of one core's context in a swap image (14 R259, R260), beside its scratchpad. -/
opaque coreImage : Nat

/-- Bytes of an image that a die's cistern has staged while its context is swapped out, as a function of the die and of the
free-value counter (14 R260). -/
opaque staged : Nat → Nat → Nat

/-- Whether the boot ROM multiplies the equation of an Ed448 verification by the cofactor, which RFC 8032 leaves open. -/
opaque ed448Cofactored : Bool

end Sys2Proof.Config
end

