-- ==== Sys2Proof/Machine/State.lean ====
section
/-! DEFINITION. The machine's state as plain data, and the state right after device reset. -/

namespace Sys2Proof.Machine

open Sys2Proof

/-! ### Registers of a context (02 R24) -/

/-- A scalar register: value, full/empty bit, poison bit. -/
structure SReg where
  v : Word := 0
  full : Bool := true
  pois : Bool := false
  deriving DecidableEq, Repr

/-- A predicate: value and poison bit. -/
structure PReg where
  v : Bool := false
  pois : Bool := false
  deriving DecidableEq, Repr

/-- A vector register: value, full/empty bit and one poison bit per 32-bit lane position. -/
structure VReg where
  v : VWord := 0
  full : Bool := true
  pois : BitVec 32 := 0
  deriving DecidableEq, Repr

/-- A mask register: one bit per 8-bit lane, one poison bit per 32-bit lane position. -/
structure MReg where
  v : BitVec 128 := 0
  pois : BitVec 32 := 0
  deriving DecidableEq, Repr

/-- A scale register: 128 bytes, one poison bit per 32-byte quarter. -/
structure KReg where
  v : VWord := 0
  pois : BitVec 4 := 0
  deriving DecidableEq, Repr

/-- A walker: base, and strides 1 to 6 from bit 0 up. -/
structure WReg where
  base : Word := 0
  strides : BitVec 192 := 0
  full : Bool := true
  pois : Bool := false
  deriving DecidableEq, Repr

/-- A nest counter. -/
structure NReg where
  v : Word32 := 0
  pois : Bool := false
  deriving DecidableEq, Repr

/-! ### Results in flight (02 R33 to R38) -/

/-- What a result lands on. -/
inductive Dest
  | s (i : BitVec 6) | p (i : BitVec 3) | v (i : BitVec 6) | m (i : BitVec 3) | k (i : BitVec 4)
  | w (i : BitVec 3) | sr (n : BitVec 12)
  deriving DecidableEq, Repr

/-- A result that has been computed and not yet landed: the advancing cycle from which it can be read (for a
shadow latch, the number r of 19 R326), the issuing slot and issue order, the bits that it writes with their
mask, the poison of the lane positions that it writes, the flags it raises (02 R32), those that it raises unless one of
some lane positions ends poisoned (04 R78), and the underflow counts it adds (04 R75). -/
structure Landing where
  due : Nat
  slot : Nat
  seq : Nat
  dest : Dest
  val : VWord
  wm : VWord
  pois : BitVec 32
  pm : BitVec 32
  flags : BitVec 192 := 0
  ucnt : List (Nat × Nat) := []
  pflags : List (BitVec 32 × BitVec 192) := []
  deriving DecidableEq, Repr

/-- The value of a variable-latency producer that has arrived and not yet been written (02 R34). -/
structure Arrived where
  dest : Dest
  slot : Nat
  val : VWord
  wm : VWord
  pois : BitVec 32
  pm : BitVec 32
  deriving DecidableEq, Repr

/-! ### Memory locations and queues (08 R161; 10 R213 to R216) -/

/-- Where a translated byte is held (10 R216). -/
inductive Space
  | spad | coh | nc | ms | host | remote
  deriving DecidableEq, Repr

/-- A translated location: its space, and in it the physical address (for a scratchpad, core × 2^21 +
core offset). -/
structure Loc where
  space : Space
  pa : Nat
  deriving DecidableEq, Repr

/-- The operations of ATOM (08 R169). -/
inductive AtomOp
  | swap | cas | add | and | or | xor | min | max | minu | maxu | fadd | incw | ld
  deriving DecidableEq, Repr

/-- The operations of CFLUSH (08 R168). -/
inductive FlushOp
  | clean | flush | inv | rangenc
  deriving DecidableEq, Repr

/-- What a queue entry does when it performs. -/
inductive QOp
  /-- LD into s<d> (bytes, sign extension), `.fe`. -/
  | load (d : BitVec 6) (bytes : Nat) (signed fe : Bool)
  /-- LDV into v<d>. -/
  | loadv (d : BitVec 6) (bytes : Nat) (fe : Bool)
  /-- WSET into w<d>, `.fe`. -/
  | wset (d : BitVec 3) (fe : Bool)
  /-- ST or STV, or a row of MMST: data, its length, poison of each 32-bit lane of it. -/
  | store (data : BitVec 4096) (bytes : Nat) (pois : BitVec 128) (fe : Bool)
  /-- CFLUSH with the extents in PAs of the range that holds the address, one per buffer. -/
  | cflush (op : FlushOp) (ext : List (Nat × Nat))
  | atom (op : AtomOp) (d : BitVec 6) (wide far : Bool) (x c : Word)
  | qmark
  | fence (scope : Nat) (alias_ eng : Bool)
  | semsig (target : Nat) (count : Nat)
  | phsig (id : Nat)
  | phsw (id : Nat)
  | jetmsg (va : Nat) (msg : Loc)
  | rocall (d : BitVec 6) (obj method : Nat) (arg : Loc)
  /-- The operand reads of an MMA or MMLD, which stand in the load queue at the instruction's place (07 R142). -/
  | matrix
  /-- The row stores of an MMST: data and lane poison of each row. -/
  | mmst (rows : List (BitVec 4096 × BitVec 128))
  | rsplit (d : BitVec 6) (va : Nat)
  | rmerge (d : BitVec 6) (va : Nat)
  | rinv (va : Nat)
  deriving DecidableEq, Repr

/-- A load- or store-queue entry. An entry held in both queues has the same id in both. -/
structure QEntry where
  id : Nat
  slot : Nat
  op : QOp
  /-- The translated place and length of each part of the access, one per 32-byte sector. -/
  locs : List (Loc × Nat) := []
  /-- VA of the lowest byte. -/
  va : Nat := 0
  /-- The entry has sent a request and waits for its answer. -/
  sent : Bool := false
  /-- Parts that have performed, and the bytes that they read. -/
  done : Nat := 0
  got : List (Byte × Bool) := []
  /-- The extents in VAs of the range entries that it was translated through, with VERS (15 R272). -/
  via : List (Nat × Nat × Bool) := []
  /-- The rows of an MMLD or MMST, as VAs; of any other access none. -/
  rows : List Nat := []
  deriving DecidableEq, Repr

/-! ### Ranges (15 R264, R268) -/

/-- A range table entry, with the index at which it stood. -/
structure RangeEntry where
  index : Nat
  base : Nat
  limit : Nat
  valid : Bool
  lock : Bool
  x : Bool
  w : Bool
  r : Bool
  kind : Nat
  vsh : Nat
  vers : Bool
  remote : Bool
  host : Bool
  cmpr : Bool
  jet : Nat
  offset : Nat
  win : Nat
  res : Word
  reserved : Bool
  deriving DecidableEq, Repr

/-- A cached range entry: the entry, the ROUND parity sampled with it, the partition, the time it was read
and its expiry. -/
structure Cached where
  entry : RangeEntry
  parity : Bool
  part : Nat
  tread : Nat
  expiry : Nat
  deriving DecidableEq, Repr

/-! ### Jobs (08 R173 to R183) -/

inductive JobKind
  | copy | put | get | gather | scatter | scadd | awr | slx
  deriving DecidableEq, Repr

inductive JobState
  | active | faulted | paused
  deriving DecidableEq, Repr

/-- An engine job working from the snapshot of its card. -/
structure Job where
  kind : JobKind
  card : BitVec 512
  cardVa : Nat
  /-- Issue order within the context, shared with queue entries. -/
  seq : Nat
  st : JobState := .active
  /-- Destination bytes written so far, keyed by member position for a multicast and 0 otherwise. -/
  streams : SMap Nat := []
  /-- Members whose completion steps are done. -/
  finished : List Nat := []
  /-- AWR: bucket segments that have answered, and their number (18 R322). -/
  answered : List Nat := []
  progress : Nat := 0
  cause : Byte := 0
  /-- Phaser of a job with PHV. -/
  phaser : Option Nat := none
  /-- Copies of the range entries that cover the footprints, taken at issue. -/
  copies : List Cached := []
  /-- AWR: a rejected duplicate; VA and PA of the first poisoned gradient sector; segments sent. -/
  dup : Bool := false
  poisoned : Option (Nat × Nat) := none
  sent : Nat := 0
  /-- Scratchpad lines written, with their member, for FEDST. -/
  lines : List (Nat × Nat) := []
  deriving DecidableEq, Repr

/-! ### Control state of a context (05 R101; 09; 19) -/

/-- A segment header that passed 03 R55. -/
structure SegHdr where
  va : Nat := 0
  handler : Bool := false
  safeEntry : Bool := false
  safeExit : Bool := false
  hint : Bool := false
  len : Nat := 0
  cycles : Nat := 0
  count : Nat := 0
  waits : List (Nat × Nat) := []
  next0 : Nat := 0
  next1 : Nat := 0
  deriving DecidableEq, Repr

/-- The exit action (05 R102, 19 R329). -/
inductive ExitAct
  | none | call (va : Nat) | ret | finish | exit | hdone | trapReturn
  deriving DecidableEq, Repr

/-- The loop state (05 R98, R100). -/
inductive LoopState
  | inactive
  | loop (first last left : Nat)
  | nest (first last levels : Nat) (lims : List Nat) (wmask : Byte)
  deriving DecidableEq, Repr

/-- What a context is doing. -/
inductive Phase
  /-- No task, or a dormant handler context. -/
  | free
  /-- Its pending segment waits to be chosen (09 R195). -/
  | pending (va : Nat)
  /-- It resumes a segment after a trap return or a swap, without a segment start (19 R329). -/
  | resuming
  | running
  /-- LAST has completed; fixed-latency results drain (09 R197). -/
  | draining
  /-- Waiting under 05 R104 to retire with a status and disposition. -/
  | retiring (status : Word32) (disp : Byte)
  /-- A handler activation waiting under 05 R104 to become dormant. -/
  | ending
  /-- Parked under 19 R331. -/
  | parked
  deriving DecidableEq, Repr

/-- A bundle of a body: its byte offset, header and the words of its present slots with their slot numbers. -/
structure RawBundle where
  off : Nat
  hdr : BitVec 16
  slots : List (Nat × Word)
  deriving DecidableEq, Repr

/-- The trap frame of 19 R328. -/
structure TrapFrame where
  /-- Bundle index to resume at; `after` when the resume point is the bundle after it (05 R105). -/
  pc : Nat
  after : Bool
  hdr : SegHdr
  loop : LoopState
  act : ExitAct
  sel : Bool
  depth : Nat
  latches : List Landing
  body : List RawBundle
  segStart : Option Nat
  nexted : Bool
  deriving DecidableEq, Repr

/-- A trap to be delivered: cause, DEFERRED, auxiliary code, address and slot (02 R31). -/
structure TrapInfo where
  cause : Cause
  aux : Nat := 0
  deferred : Bool := false
  va : Nat := 0
  slot : Option Nat := none
  /-- The register that a consumption names in its record (21 R349). -/
  reg : Option Nat := none
  /-- PA of the index or gradient sector of a deferred consumption (22 R358). -/
  pa : Option Nat := none
  deriving DecidableEq, Repr

/-- The interrupted MMA of 07 R141: everything its execution needs. -/
structure MmaRec where
  w : MmaW
  wa : WReg
  wb : WReg
  wm : WReg
  ka : KReg
  kb : KReg
  rank : Nat
  start : Nat
  /-- Energy measured so far, in quarters of a unit (07 R159). -/
  energy : Nat := 0
  /-- Number of this MMA among the task's gang MMAs on its group (07 R149). -/
  gangNo : Nat := 0
  /-- It restarts from a restart record (07 R156), or goes on after a swap. -/
  resumed : Bool := false
  deriving DecidableEq, Repr

/-- A task, handler or sluice context. -/
structure Ctx where
  s : SMap SReg := []
  p : SMap PReg := []
  v : SMap VReg := []
  m : SMap MReg := []
  k : SMap KReg := []
  w : SMap WReg := []
  n : SMap NReg := []
  /-- Accumulators: quarter-rows of 32 FP32 elements, keyed (acc × 64 + row) × 4 + quarter. -/
  acc : SMap VWord := []
  /-- Bit a set: accumulator a is empty. -/
  accEmpty : BitVec 4 := 0
  /-- Segment poison, bit acc × 1,024 + row × 16 + segment. -/
  accPois : BitVec 4096 := 0
  -- state registers (02 R31)
  vflg : BitVec 192 := 0
  mflags : BitVec 5 := 0
  rmode : BitVec 3 := 0
  srseed : Word32 := 0
  srctr : Word32 := 0
  thresh : BitVec 6 := 0
  policy : Bool := false
  undcSat : Bool := false
  undc : Word32 := 0
  ucnt : SMap (BitVec 6) := []
  ebudget : Word32 := 0
  eunder : Word32 := 0
  mprog : BitVec 9 := 0
  taskid : BitVec 20 := 0
  coord : BitVec 60 := 0
  team : BitVec 5 := 0
  groups : BitVec 36 := 0
  launchid : Word32 := 0
  brb : BitVec 39 := 0
  retstack : List Nat := []
  trapcause : BitVec 19 := 0
  trapva : BitVec 52 := 0
  trappc : BitVec 52 := 0
  trapslot : BitVec 4 := 0
  asyncf : BitVec 6 := 0
  wcol : Byte := 0
  -- placement (09 R190 to R193)
  /-- Key of the fontanier context that the launch belongs to. -/
  owner : Nat := 0
  sluice : Bool := false
  matrixShare : Nat := 0
  sliceBase : Nat := 0
  sliceSize : Nat := 0
  privBase : Nat := 0
  privSize : Nat := 0
  -- control
  phase : Phase := .free
  hdr : SegHdr := {}
  /-- The bundles of the running segment: the expansion that its start used, whole (03 R59). -/
  body : List RawBundle := []
  pc : Nat := 0
  hold : Nat := 0
  /-- A bundle has issued and its end (branch, pass end, LAST) has not been processed. -/
  bend : Bool := false
  /-- The taken branch target of the bundle that issued. -/
  branch : Option Nat := none
  loop : LoopState := .inactive
  act : ExitAct := .none
  sel : Bool := false
  /-- A NEXT has executed in the running segment (09 R196). -/
  nexted : Bool := false
  adv : Nat := 0
  issued : Nat := 0
  pend : List Landing := []
  arrived : List Arrived := []
  /-- Destinations that the issuing bundle marks empty once all its slots have read (02 R34). -/
  marks : List Dest := []
  /-- Walker advances of the issuing bundle (08 R163): walker and level. -/
  advances : List (BitVec 3 × Nat) := []
  latches : List Landing := []
  frame : Option TrapFrame := none
  deferred : List TrapInfo := []
  /-- An MMA fault to be delivered at the next bundle boundary (07 R155). -/
  mmaTrap : Option TrapInfo := none
  /-- Phaser waits of issued bundles (08 R186): phaser, phase, and the instruction's place in program order. -/
  phwait : List (Nat × Word32 × Nat) := []
  /-- The issuing bundle has read UNDC, which the read clears (02 R31, R34). -/
  undcRead : Bool := false
  /-- BRB as it is for the bundles after the issuing one. -/
  brbNext : Option (BitVec 39) := none
  restart : Option MmaRec := none
  gangSeq : SMap Nat := []
  ldq : List QEntry := []
  stq : List QEntry := []
  /-- The 32-byte sectors of windows 000 to 010 that the context has stored to since its last FENCE with alias
  (11 R231). -/
  stored : List Nat := []
  jobs : SMap Job := []
  /-- Completion words of finished jobs, newest last: card address, job, word. -/
  kept : List (Nat × Nat × Word) := []
  /-- ENGWAITs in flight: destination, slot, job, and the instruction's place in program order. -/
  engwaits : List (BitVec 6 × Nat × Nat × Nat) := []
  /-- ROWAITs in flight: destination, slot, result word. -/
  rowaits : List (BitVec 6 × Nat × Word) := []
  deficit : Int := 0
  /-- Core cycle in which the running segment's first bundle issued (09 R198). -/
  segStart : Option Nat := none
  /-- Handler table index of a handler activation, for HCTL at its end. -/
  hindex : Nat := 0
  deriving DecidableEq, Repr

/-! ### A core (02 R24; 03 R57; 07 R140; 09) -/

/-- A loop-buffer half (03 R57): the expansion of the segment at hdr.va, or the fault that its start raises. -/
structure Half where
  va : Nat := 0
  complete : Bool := false
  hdr : SegHdr := {}
  bundles : List RawBundle := []
  fault : Option (Cause × Nat × Nat) := none
  deriving DecidableEq, Repr

/-- An operation in the matrix queue (07 R140). -/
inductive MatOp
  | mma (r : MmaRec) | mmz (acc : BitVec 2) | mmld (acc : BitVec 2) (got : Option (List (Byte × Bool)))
  | mmwr (acc : BitVec 2) (row quarter : Nat) (v : VWord) (pois : BitVec 32)
  deriving DecidableEq, Repr

/-- A matrix queue place: the issuing context's slot and the operation. -/
structure MatEntry where
  slot : Nat
  seq : Nat
  op : MatOp
  deriving DecidableEq, Repr

/-- The operands of one K block with the poison of their sectors: rows of A, metadata rows, columns of B. -/
structure MatBlock where
  a : List (List (Byte × Bool))
  m : List (List (Byte × Bool))
  b : List (List (Byte × Bool))
  deriving DecidableEq, Repr

/-- The execution of the operation at the head of the matrix queue. -/
structure MatExec where
  started : Bool := false
  /-- Next K block to compute, and the blocks from it on that have arrived. -/
  blk : Nat := 0
  blocks : List MatBlock := []
  /-- Operands of the block after them that have been translated, in the order of 07 R154, and not yet read. -/
  ops : List (Nat × List (Loc × Nat)) := []
  /-- Lines of 128 bytes that a gang partner's fetch has delivered, each with its block (07 R149). -/
  given : List (Nat × Loc × List (Byte × Bool)) := []
  flags : BitVec 5 := 0
  energy : Nat := 0
  deriving DecidableEq, Repr

/-- A divider that holds an unlanded result (05 R88): context slot, destination, value, poison, landing time. -/
structure DivBusy where
  slot : Nat
  dest : BitVec 6
  val : Word
  pois : Bool
  due : Nat
  deriving DecidableEq, Repr

/-- The states in which an L1 holds a line (11 R223, R228). -/
inductive L1State
  | shared | exclusive | modified | ncClean | ncDirty
  deriving DecidableEq, Repr

/-- A 128-byte L1 line with a poison bit per 32-byte sector. -/
structure L1Line where
  st : L1State
  data : VWord
  pois : BitVec 4
  deriving DecidableEq, Repr

/-- A handler arrival (09 R203). -/
structure HArrival where
  hidx : Nat
  payload : Nat
  bytes : Nat
  sender : Nat
  senderCore : Nat
  word : Word32
  /-- Core cycle of the arrival. -/
  cycle : Nat
  deriving DecidableEq, Repr

structure Core where
  q : SMap (BitVec 16) := []
  qstat : BitVec 16 := 0
  /-- Increments of the semaphores in their last cycles, by semaphore: the core cycle, their sum in it, and the QOVF bit before
  them (05 R106). -/
  qinc : SMap (Nat × Nat × Bool) := []
  hmax : BitVec 4 := 8
  rrp : Nat := 0
  hrun : Nat := 0
  overruns : Nat := 0
  inq : List HArrival := []
  /-- Handler context slots in arrival order of their activations (09 R199). -/
  active : List Nat := []
  h0 : Half := {}
  h1 : Half := {}
  running : Option Nat := none
  /-- The half that the running segment, or the last one to run, uses (09 R196). -/
  ended : Option Bool := none
  /-- The context that the sequencer has chosen and whose segment is not yet expanded. -/
  chosen : Option Nat := none
  /-- Time before which the core has used its cycle. -/
  busy : Nat := 0
  matq : List MatEntry := []
  mat : MatExec := {}
  div0 : Option DivBusy := none
  div1 : Option DivBusy := none
  rtlb : List Cached := []
  mrt : List Cached := []
  /-- The VA of a range walk that the core waits for. -/
  walk : Option Nat := none
  /-- The VA for which the last walk found no entry: the access that waited for it takes RANGE_MISS. -/
  missVa : Option Nat := none
  /-- The same of the matrix unit's range table (07 R154). -/
  mwalk : Option Nat := none
  mmiss : Option Nat := none
  /-- L1 in 256 KiB granules, and the L1 lines keyed line × 2 + NC. -/
  l1gran : Nat := 0
  l1 : SMap L1Line := []
  /-- Write-back buffer of lines whose PUTE or PUTM awaits its acknowledgement. -/
  wb : SMap L1Line := []
  gated : Byte := 0
  /-- The context resident on the core, if any (14 R257). -/
  resident : Option Nat := none
  stopReq : Bool := false
  stopped : Bool := false
  frozen : Bool := false
  deriving DecidableEq, Repr

/-! ### Memory, L2 and directory (10; 11) -/

/-- The byte-addressed memory of the whole package, in one canonical form (see Machine/Ops.lean for the regions). -/
abbrev Memory := List Host.Cell

/-- A 256-byte L2 line. -/
structure L2Line where
  data : BitVec 2048
  pois : Byte
  dirty : Bool
  /-- VA and JET index recorded at allocation (17 R308). -/
  va : Nat := 0
  jet : Nat := 0
  part : Nat := 0
  /-- The way that holds it, and whether its range stores it compressed (10 R217; 14 R254). -/
  way : Nat := 0
  cmpr : Bool := false
  deriving DecidableEq, Repr

inductive DirState
  | s | sw | e | m
  deriving DecidableEq, Repr

/-- A fill that an L2 slice has asked of memory: its 256-byte line, and of the first request that waits for it the
partition, CTXID, task, VA and core (21 R347, 22 R356), the JET index and CMPR of its range. -/
structure FillReq where
  line : Nat
  part : Option Nat := none
  ctxid : Nat := 0xFFFF
  taskid : Nat := 0
  va : Option Nat := none
  core : Option Nat := none
  jet : Nat := 0
  cmpr : Bool := false
  /-- It has waited on a blocked bank, and has been counted there (21 R353). -/
  waited : Bool := false
  deriving DecidableEq, Repr

inductive MsgKind
  | gets | getm | pute | putm | fwdGets | fwdGetm | inv | fwdRecall | ack | putAck
  deriving DecidableEq, Repr

/-- A coherence message in flight (11 R224): kind, line, core concerned, data, and the incarnations of the
core's die and of the home's (11 R232). -/
structure Msg where
  kind : MsgKind
  line : Nat
  core : Nat
  data : VWord := 0
  pois : BitVec 4 := 0
  dirty : Bool := false
  inc : Byte := 0
  hinc : Byte := 0
  /-- Of a GETS or GETM: the fill that it asks for where the home's L2 has no copy. -/
  req : FillReq := { line := 0 }
  /-- The time at which it was sent (19 R339). -/
  sent : Nat := 0
  deriving DecidableEq, Repr

/-- What a busy directory entry is waiting for. -/
inductive Txn
  /-- L2 fill before the data can be sent to the requester, whose grant is M or not. -/
  | fill (requester : Nat) (m : Bool)
  /-- Acknowledgements of INVs, left to count, then grant M to the requester. -/
  | getm (requester left : Nat) (req : FillReq)
  /-- FWD-GETS sent to the owner. -/
  | fwdGets (requester : Nat)
  | fwdGetm (requester : Nat)
  /-- A recall that makes room for a request: acknowledgements left, and the request, which is served when the entry is free
  (11 R226). -/
  | recall (left : Nat) (waiting : Msg)
  deriving DecidableEq, Repr

/-- A directory entry (11 R222). -/
structure DirEntry where
  st : DirState
  sharers : List Nat := []
  mask : BitVec 72 := 0
  owner : Nat := 0
  age : Nat := 0
  busy : Option Txn := none
  deriving DecidableEq, Repr

/-- A home operation waiting at a slice: a far atomic, MS access, or jet or scrub access (11 R229, R230). -/
structure HomeOp where
  ctx : Nat
  id : Nat
  far : Bool
  deriving DecidableEq, Repr

structure Mem where
  bytes : Memory := []
  /-- Poisoned 32-byte sectors, keyed by address div 32. -/
  pois : SMap Bool := []
  /-- Full scratchpad lines, keyed by (core × 2^21 + offset) div 128 (08 R165). -/
  full : SMap Bool := []
  l2 : SMap L2Line := []
  dir : SMap DirEntry := []
  msgs : List Msg := []
  homeops : List HomeOp := []
  fills : List FillReq := []
  /-- Stored size of a compressed 256-byte block in quarters of it, keyed by storage address div 256; 4 where none is given
  (10 R217). -/
  cmp : SMap (BitVec 3) := []
  /-- FAILED pseudo-channels (stack × 64 + pseudo-channel) and second-tier channels (768 + channel) (21 R344). -/
  failed : SMap Bool := []
  age : Nat := 0
  /-- Reservations of LR by slice: the 128-byte line, until a store to it (17 R306). -/
  resv : SMap Nat := []
  deriving DecidableEq, Repr

/-! ### Phasers (08 R185) -/

inductive PhMode
  | signalOnly | waitOnly | signalWait
  deriving DecidableEq, Repr

/-- A member: its context key, or the job bound to the phaser, its mode and whether it has signalled. -/
structure Member where
  ctx : Nat
  job : Option Nat
  mode : PhMode
  signalled : Bool
  deriving DecidableEq, Repr

structure Phaser where
  phase : Word32 := 0
  members : List Member := []
  /-- Registrations and drops that wait for the next phase boundary. -/
  joining : List Member := []
  leaving : List Nat := []
  /-- Bound jobs that are FAULTED; FAULTED is whether there is one. -/
  faulted : Nat := 0
  dropf : Byte := 0
  deriving DecidableEq, Repr

/-! ### Dies -/

/-- A range walk queued or in flight at a die's walker (15 R270). -/
structure Walk where
  core : Nat
  va : Nat
  part : Nat
  /-- It serves the core's matrix unit. -/
  mat : Bool := false
  deriving DecidableEq, Repr

/-- The counters of a pseudo-channel, channel or link end (21 R346). -/
structure Chan where
  tsvifCe : Word32 := 0
  arrayCe : Word32 := 0
  arrayUe : Word32 := 0
  scrubCe : Word32 := 0
  scrubUe : Word32 := 0
  alerts : Word32 := 0
  bankBackoff : Word32 := 0
  /-- Consecutive failed retries of the transfer in progress. -/
  retries : Nat := 0
  deriving DecidableEq, Repr

structure Die where
  incarnation : Byte := 0
  lastReset : Option Nat := none
  staleRsp : Word32 := 0
  skew : SMap (BitVec 16) := []
  walks : List Walk := []
  scrubper : BitVec 16 := 1440
  chans : SMap Chan := []
  deriving DecidableEq, Repr

/-! ### The fontanier (14) -/

/-- The state of a task of a launch. -/
inductive TaskState
  | waiting | resident (core slot : Nat) | retired (status : Word32) (disp : Byte) | skipped
  deriving DecidableEq, Repr

structure Group where
  valid : Bool
  phdef : Bool
  phid : Nat
  members : List Nat
  deriving DecidableEq, Repr

/-- An increment held for a member task that is not resident (09 R206). -/
structure Held where
  task : Nat
  sem : Nat
  count : Nat
  deriving DecidableEq, Repr

/-- The parameter block of a launch (14 R250). -/
structure LaunchParams where
  entry : Nat
  fx : Nat
  fy : Nat
  fz : Nat
  scratch : Nat
  l1g : Nat
  matrix : Nat
  team : Nat
  packed : Bool
  priv : Nat
  privb : Nat
  gtab : Nat
  gcount : Nat
  csem : Nat
  csemv : Bool
  htab : Nat
  trapseg : Nat
  crec : Nat
  skip : Nat
  phdie : Word
  phpkg : Word
  launchid : Word32
  deriving DecidableEq, Repr

/-- A launch in flight. -/
structure Launch where
  par : LaunchParams
  dies : BitVec 4
  /-- Dies to which the LAUNCH has been delivered. -/
  delivered : BitVec 4 := 0
  cores : List Nat
  /-- Number of tasks per core (09 R191). -/
  nteam : Nat
  ntask : Nat
  /-- Core of each task that the passes of 09 R194 place. -/
  assigned : SMap Nat := []
  /-- With gang=packed, the groups that are placed as units. -/
  packed : List (List Nat) := []
  /-- State of each task that is not waiting, keyed by index. -/
  tasks : SMap TaskState := []
  groups : List Group := []
  /-- Die-to-die links that its routes use, fixed at its start (19 R338). -/
  links : List Nat := []
  handlers : List (Nat × Byte) := []
  held : List Held := []
  /-- The completion record's places, in pieces of at most 32 bytes (14 R250). -/
  crecLocs : List (Loc × Nat) := []
  /-- STATE of the record of a launch that is killed or LINK_LOST. -/
  ending : Option Byte := none
  deriving DecidableEq, Repr

/-- Runnability of a context's command ring (14 R242). -/
inductive CmdState
  | stopped | running | faulted
  deriving DecidableEq, Repr

/-- A SLUICE command that has not completed (14 R245): its program, CSEM, the named dies whose sluice has not retired it,
and the dies that it has been delivered to. -/
structure SluiceCmd where
  num : Nat
  va : Nat
  csem : Option Nat
  waiting : BitVec 4
  arrived : BitVec 4 := 0
  deriving DecidableEq, Repr

/-- A fontanier context: its registers (14 R242), its list entry (R256), its launch and slice state. -/
structure FCtx where
  cpbase : BitVec 52 := 0
  cpsize : BitVec 25 := 0
  head : BitVec 24 := 0
  tail : BitVec 24 := 0
  pbase : BitVec 52 := 0
  cslot : BitVec 2 := 0
  cword : BitVec 24 := 0
  ccause : Byte := 0
  cstate : CmdState := .stopped
  csem : SMap Word32 := []
  /-- The last increment of each CSEM: its time in ns and the sum of that ns (14 R246). -/
  csinc : SMap (Nat × Nat) := []
  /-- Bytes of the swapped-out image that each die's cistern holds staged (14 R260). -/
  cistern : SMap Nat := []
  skewlate : Word32 := 0
  entry : Option ContextEntry := none
  /-- Effective RATE, lowered by 14 R262. -/
  rate : Nat := 0
  launch : Option Launch := none
  /-- The `.data scratch` image of the launch (09 R193), which comes with the program. -/
  image : List Byte := []
  /-- Number of the next command slot that issues. -/
  cmdno : Nat := 0
  /-- Resident since this ptime (end of swap-in); eunder sum at that time. -/
  since : Option Nat := none
  eunder0 : Nat := 0
  /-- SLUICE commands in progress, in issue order. -/
  sluiceCmds : List SluiceCmd := []
  /-- MSI-X vectors raised on the context's function, oldest first. -/
  msix : List Nat := []
  deriving DecidableEq, Repr

/-- A copy engine job of CPYP (14 R245). -/
structure CopyJob where
  k : Nat
  die : Nat
  src : Nat
  dst : Nat
  len : Nat
  done : Nat
  csem : Option Nat
  tissue : Nat
  copies : List Cached
  /-- Number of the command, and its word and slot for CSTAT. -/
  num : Nat := 0
  word : Nat := 0
  slot : Nat := 0
  deriving DecidableEq, Repr

/-- A range change in progress (15 R271 to R273). -/
structure RangeChange where
  part : Nat
  /-- Change time C. -/
  time : Nat
  /-- VAs concerned: the entry's extent, or none for every versioned entry. -/
  va : Option Nat
  len : Nat := 1
  drained : Bool := false
  /-- Jobs ahead of its markers, by context key and job, and copy engine jobs; queue entries translated before C
  through an entry that covers the VA, by context key and entry (R272, R273). -/
  ahead : List (Nat × Nat) := []
  copies : List Nat := []
  entries : List (Nat × Nat) := []
  /-- RINV's context and entry id, or none for a flip or a swap. -/
  issuer : Option (Nat × Nat) := none
  flip : Bool := false
  swap : Bool := false
  /-- Of a flip that a ROUND waits for: the time at which it completed. -/
  complete : Option Nat := none
  deriving DecidableEq, Repr

inductive CmpState
  | idle | copy | forward | done | refused
  deriving DecidableEq, Repr

/-- An error log (21 R347). -/
structure ErrLog where
  base : BitVec 52 := 0
  size : BitVec 16 := 0
  head : BitVec 16 := 0
  tail : BitVec 16 := 0
  drop : Word32 := 0
  seq : Word32 := 0
  deriving DecidableEq, Repr

/-- A partition (14 R254; 15 R263, R275; 19 R335; 21 R347; 17 R307, R314; 23 R363). -/
structure Part where
  config : Option PartConfig := none
  rtbase : BitVec 51 := 0
  rtcap : BitVec 17 := 0
  rtn : BitVec 17 := 0
  leasens : BitVec 16 := 8000
  round : Bool := false
  cmpva : BitVec 52 := 0
  cmpoff : Word := 0
  cmpreason : Byte := 0
  cmpstate : CmpState := .idle
  /-- The entry words that the compaction engine read at GO. -/
  cmpentry : Option RangeEntry := none
  /-- The new offset in bytes, fixed at GO, and the 256-byte lines copied (15 R276). -/
  cmpnew : Nat := 0
  cmplines : Nat := 0
  wbase : SMap (BitVec 52) := []
  wctl : SMap Word := []
  log : ErrLog := {}
  forcedfrz : Word32 := 0
  swaplate : Word32 := 0
  /-- The resident context's key; the ptime up to which the cores of an expired slice may still run; the context whose
  swap-in has not completed. -/
  resident : Option Nat := none
  expired : Option Nat := none
  swapping : Option Nat := none
  /-- The ptime at which the swap in progress exchanged the states. -/
  swapAt : Nat := 0
  /-- Offsets of placed method code by object (17 R314). -/
  code : List (Nat × Nat × Nat) := []
  /-- Telemetry events, oldest first: 1 and a core, a segment overrun (09 R198); 2 and a context, a RATE lowered (14 R262). -/
  telemetry : List (Nat × Nat) := []
  pmr0 : BitVec 512 := 0
  pmr1 : BitVec 512 := 0
  pmr2 : BitVec 512 := 0
  deriving DecidableEq, Repr

/-- A ROUND in flight (16 R303, R304). -/
structure RoundCmd where
  k : Nat
  part : Nat
  n : Nat
  handles : List (Nat × Nat)
  semv : Bool
  rsem : Nat
  group : Nat
  csem : Option Nat
  recLocs : List (Loc × Nat)
  rxrows : Nat
  num : Nat := 0
  /-- It has been delivered to the fontanier. -/
  arrived : Bool := false
  rxdone : Nat := 0
  /-- The stack and row of each row received. -/
  gathered : List (Nat × Nat) := []
  /-- The time of its flip, once that has been requested. -/
  flip : Option Nat := none
  deriving DecidableEq, Repr

/-! ### Basin dies (16) -/

inductive SState
  | open_ | queued | running | done | poisoned | failed
  deriving DecidableEq, Repr

/-- A staged value of a segment (16 R291): its key (a contributor id, or level × 8,192 + node of a tree), its place in the
staging pool where it has one, and its elements with their poison. -/
structure Staged where
  key : Nat
  place : Option Nat
  data : List (Word32 × Bool)
  deriving DecidableEq, Repr

/-- A bucket segment (16 R288). -/
structure Seg where
  cnt : Nat := 0
  bitmap : List Nat := []
  st : SState := .open_
  poisonf : Bool := false
  staged : List Staged := []
  /-- Next id that RANKED combines. -/
  nextid : Nat := 0
  deriving DecidableEq, Repr

/-- A shape record (16 R284). -/
structure Shape where
  layout : Nat
  stack : Nat
  etype : Nat
  elems : Nat
  row0 : Nat
  rows : Nat
  va : Nat
  deriving DecidableEq, Repr

/-- A bucket set (16 R286). -/
structure BucketSet where
  part : Nat
  mode : Nat
  wcrne : Bool
  policy1 : Bool
  fwd : Bool
  elems : Nat
  seglog2 : Nat
  thresh : Nat
  expect : Nat
  seed : Word32
  bucket : Shape
  m1 : Shape
  m2 : Shape
  master : Shape
  wc : Shape
  ws : Option Shape
  stage : Option Shape
  wcvsh : Nat
  hpva : Nat
  prog : Nat
  wcfmt : Nat
  round : Nat
  agpkg : List Nat
  budget : Nat
  fwdhandle : Nat
  fwdpkg : Nat
  segs : SMap Seg := []
  hyper : List Word32 := []
  /-- The ROUND for the open round has issued. -/
  started : Bool := false
  flags : BitVec 5 := 0
  dups : Nat := 0
  uf : Nat := 0
  /-- All-gather rows sent and not acknowledged. -/
  agout : Nat := 0
  /-- Segments' worth of rows of the staging pool. -/
  pool : Nat := 0
  /-- Rows that the runs and the poison writes of the open round have written (16 R304). -/
  wrote : List Nat := []
  deriving DecidableEq, Repr

/-- A loaded basin program (16 R298). -/
structure BasinProg where
  words : List Word
  layouts : List Nat
  deriving DecidableEq, Repr

/-- What a delivery brings to a die or to the fontanier (14 R244, R247). -/
inductive Payload
  | launch
  | sigq (n count : Nat)
  | sluice (num : Nat)
  | cpyp (src dst len : Nat) (csem : Option Nat)
  | bkcfg (stack handle : Nat) (x : BucketSet)
  | bkrelease (stack handle : Nat)
  | basin (stack prog : Nat) (x : BasinProg)
  | round (num : Nat)
  | hostint (vec : Nat)
  deriving DecidableEq, Repr

/-- A delivery scheduled by 14 R247: its time, die and kind, the context, and the number, word and slot of the command. -/
structure Delivery where
  due : Nat
  die : Nat
  kind : Nat
  k : Nat
  num : Nat
  word : Nat
  slot : Nat
  body : Payload
  deriving DecidableEq, Repr

/-- A contribution of an AWR job to one segment (16 R290). -/
structure Contribution where
  part : Nat
  handle : Nat
  round : Nat
  id : Nat
  seg : Nat
  data : List (Word32 × Bool)
  ctx : Nat
  job : Nat
  /-- The basin cycle of its arrival. -/
  bcy : Nat := 0
  /-- Held for the next round or for a full pool, and counted as such. -/
  held : Bool := false
  deriving DecidableEq, Repr

/-- 64 lanes of 32 bits with a poison bit each. -/
structure Lanes where
  v : BitVec 2048 := 0
  pois : BitVec 64 := 0
  deriving DecidableEq, Repr

/-- The ports of a unit (16 R294). -/
structure UnitPorts where
  x : Lanes := {}
  y : Lanes := {}
  t : Lanes := {}
  r : Lanes := {}
  deriving DecidableEq, Repr

inductive HaltReason
  | bill | brow | bpoison | btime | bpc
  deriving DecidableEq, Repr

/-- What a basin unit's result does when it lands, beside the value that goes to the unit's port r (16 R296). -/
inductive UnitEffect
  | value
  /-- CMP: into G0 or G1. -/
  | cmp (g1 : Bool)
  | cntLoad (n : Word32)
  | cntDec
  | branch (target : Nat)
  deriving DecidableEq, Repr

/-- A result in flight in a basin engine: unit, cycle at which it lands, value. -/
structure UnitResult where
  unit : Nat
  due : Nat
  eff : UnitEffect := .value
  val : Lanes := {}
  deriving DecidableEq, Repr

/-- A basin engine (16 R292 to R302). -/
structure Engine where
  b : SMap Lanes := []
  z : SMap Lanes := []
  g0 : BitVec 64 := 0
  g1 : BitVec 64 := 0
  /-- Poison of the lanes of G0 and G1. -/
  g0p : BitVec 64 := 0
  g1p : BitVec 64 := 0
  cnt : Word32 := 0
  units : SMap UnitPorts := []
  inflight : List UnitResult := []
  /-- LDR rows requested and not landed, each with its number among the run's LDRs and STRs; landed and not taken. -/
  ldrq : List (Nat × Nat) := []
  ldr : List Lanes := []
  /-- STRs triggered and not performed: that number, row, y, data. -/
  strq : List (Nat × Nat × Nat × Lanes) := []
  rowops : Nat := 0
  pc : Nat := 0
  nextpc : Option Nat := none
  retired : Nat := 0
  bcy : Nat := 0
  halting : Bool := false
  syncing : Bool := false
  halt : Option HaltReason := none
  ucnt : SMap (BitVec 6) := []
  /-- The run: key of its bucket set, and segment. -/
  run : Option (Nat × Nat) := none
  /-- It is to enter save mode and issues nothing. -/
  saving : Bool := false
  /-- Working-copy rows written by the run. -/
  wrote : List Nat := []
  /-- Row window of the loaded partition. -/
  base : Nat := 0
  limit : Nat := 0
  deriving DecidableEq, Repr

structure Basin where
  /-- Keyed partition × 4,096 + handle. -/
  sets : SMap BucketSet := []
  /-- Keyed partition × 256 + PROG. -/
  progs : SMap BasinProg := []
  engines : SMap Engine := []
  /-- Runs in save mode. -/
  saved : List Engine := []
  /-- QUEUED segments in order: key of the set, and segment. -/
  queue : List (Nat × Nat) := []
  /-- All-gather rows sent to other packages, oldest first. -/
  agsent : List (Nat × GatherRow) := []
  inbound : List Contribution := []
  /-- Incoming all-gather rows held for their ROUND. -/
  heldRows : List GatherRow := []
  duprej : Word32 := 0
  bkheld : Word32 := 0
  bkstale : Word32 := 0
  staleRsp : Word32 := 0
  scrubper : BitVec 16 := 1440
  scrubnext : Nat := 0
  /-- The time before which the next row is not scrubbed: in ninths of a ns, times the rows of a pass (21 R350). -/
  scrubdue : Nat := 0
  mth : BitVec 16 := 2048
  chans : SMap Chan := []
  /-- Row activation counters, keyed (pc × 1,024 + bank) × 2^15 + row; banks blocked until, and last ALERT time,
  keyed pc × 1,024 + bank. -/
  acts : SMap Nat := []
  blocked : SMap Nat := []
  alertAt : SMap Nat := []
  /-- Banks in which an ACT has brought a row to the threshold, with the row and the first request that the ACT opened; its ALERT
  is to come (21 R353). -/
  alertDue : SMap (Nat × Option FillReq) := []
  /-- The scrubber waits on a blocked bank, and has been counted there (21 R353). -/
  scrubWaited : Bool := false
  deriving DecidableEq, Repr

/-! ### Slices, jet cores and objects (17) -/

/-- An entry of a jet core's FIFO (17 R309). -/
inductive JetItem
  | event (ev : JetEvent) (part jet va requester : Nat) (line : BitVec 2048) (pois : Byte) (msg : BitVec 512)
      (pa : Nat)
  /-- Replay of a log position by this replica. -/
  | replay (part obj : Nat)
  /-- A read-only call: caller's context, destination, slot. -/
  | read (part obj method tail : Nat) (args : BitVec 512) (ctx : Nat) (d : BitVec 6) (slot : Nat)
  deriving DecidableEq, Repr

/-- The run of a jet core. -/
structure JetRun where
  item : JetItem
  x : SMap Word := []
  pc : Nat := 0
  count : Nat := 0
  undo : List (Nat × Word) := []
  /-- Reservation of LR (RV64A): address, and the value that it read. -/
  resv : Option (Nat × Word) := none
  deriving DecidableEq, Repr

structure Slice where
  sfovf : Word32 := 0
  recalls : Word32 := 0
  jevdrop : Word32 := 0
  jkill : Word32 := 0
  jfwddrop : Word32 := 0
  /-- The FIFO, oldest first, each item with the basin cycle of its arrival (17 R309). -/
  fifo : List (Nat × JetItem) := []
  /-- Events that the slice has come upon and not yet raised, with that cycle. -/
  raised : List (Nat × JetItem) := []
  run : Option JetRun := none
  /-- M mode of the jet core: the registers and pc with which a monitor instruction executes. -/
  mode : Bool := true
  mx : SMap Word := []
  mhalt : Bool := false
  /-- JETMSGs waiting to be accepted: context and entry id. -/
  msgs : List (Nat × Nat) := []
  deriving DecidableEq, Repr

/-- The log of an object (17 R315, R316): tail, the records of the last 4,096 positions, and for each replica
the number of applied positions and its result ring. -/
structure ObjLog where
  tail : Nat := 0
  records : SMap (BitVec 512) := []
  applied : SMap Nat := []
  results : SMap Word := []
  deriving DecidableEq, Repr

/-- A ROCALL waiting at its home: context, entry id, object, method, argument bytes, destination. -/
structure CallReq where
  ctx : Nat
  id : Nat
  part : Nat
  obj : Nat
  method : Nat
  args : BitVec 512
  d : BitVec 6
  /-- The basin cycle of its arrival (17 R316). -/
  bcy : Nat := 0
  deriving DecidableEq, Repr

/-! ### Host, boot, links and power (19 R338; 21 R344; 23) -/

inductive LinkState
  | up | retraining (since : Nat) | failed
  deriving DecidableEq, Repr

structure Link where
  st : LinkState := .up
  replays : Nat := 0
  /-- LINK_CE of its ends, keyed by their dies: 0 to 3 compute, 4 + k the basin die of stack k (21 R346). -/
  ces : SMap Word32 := []
  deriving DecidableEq, Repr

/-- Octets and register values sent to the outside: a PCIe read completion, SPDM response or side-band
answer, newest first. -/
structure Answer where
  who : Requester
  data : List Byte
  deriving DecidableEq, Repr

/-- A voltage-frequency island (23 R369): 0 to 647 of the physical cores, 648 to 651 of the die fabrics, 652 to 699 of the slices,
700 to 703 of control. -/
structure Island where
  gated : Bool := true
  step : BitVec 4 := 15
  deriving DecidableEq, Repr

/-- A record that waits to be written to a log, that of a partition or of the device, until the host link is up (21 R347; 23
R360). -/
structure LogWrite where
  log : Option Nat
  part : Nat
  body : List Byte
  phys : List Byte
  time : Nat
  deriving DecidableEq, Repr

structure Dev where
  /-- The boot ROM has started since the last device reset (23 R361). -/
  powered : Bool := false
  bootstat : Byte := 0
  fwsvn : Byte := 0
  /-- The image under verification. -/
  verifying : Bool := false
  mr0 : BitVec 512 := 0
  mr1 : BitVec 512 := 0
  log : ErrLog := {}
  funcmode : BitVec 12 := 0
  pcap : BitVec 16 := 3600
  /-- A PCAP write that takes effect at the next window, with its arrival time and whether the side-band port made it. -/
  pcapNext : Option (BitVec 16 × Nat × Bool) := none
  pscale : BitVec 9 := 256
  pwr : BitVec 16 := 0
  capevt : Word32 := 0
  /-- Weir refills made so far: the next one is due at the following multiple of 1,000 ns (14 R261). -/
  refills : Nat := 0
  /-- Power windows that have ended (23 R370). -/
  windows : Nat := 0
  /-- The raw PSCALE that expert control applies, once it has been written (23 R368). -/
  pscaleRaw : Option (BitVec 9) := none
  islands : SMap Island := []
  /-- Island steps that expert control writes (23 R368). -/
  islandRaw : SMap (BitVec 4) := []
  pcieUp : Bool := true
  links : SMap Link := []
  answers : List Answer := []
  /-- Place in its cluster of each logical core that has moved to a spare (19 R336). -/
  coremap : SMap Nat := []
  spareUsed : BitVec 72 := 0
  /-- Logical cores that are lost: no launch is placed on them (19 R336). -/
  lost : List Nat := []
  /-- Records that wait for the PCIe link, oldest first. -/
  logq : List LogWrite := []
  /-- HOSTINT writes that wait for the PCIe link. -/
  intwait : List (Nat × Nat) := []
  deriving DecidableEq, Repr

/-! ### The machine -/

/-- Whose move is next: plain data that stands for arrival orders and outside inputs. -/
inductive Turn
  | core (c : Nat) | sluice (d : Nat) | jet (sl : Nat) | event (i : Instr)
  /-- The monitor of jet core sl executes an instruction in M mode (17 R306, R313). -/
  | monitor (sl : Nat) (i : Instr)
  /-- An event of context slot k of core c (or of core c where the event has no context). -/
  | onCtx (c k : Nat) (i : Instr)
  /-- L1 of core c chooses the line of key k as victim (11 R223, R228). -/
  | evict (c k : Nat)
  deriving DecidableEq, Repr

/-- The context for which the operation being executed acts: core (or 576 + die for a sluice), context slot,
bundle slot, whether the checks of the bundle have passed, and the L2 slice of a jet core's operation. -/
structure Cursor where
  core : Nat := 0
  slot : Nat := 0
  bslot : Nat := 0
  go : Bool := false
  jet : Nat := 0
  deriving DecidableEq, Repr

structure State where
  /-- Time since device reset in ninths of a ns: ptime is its ninth part, a core cycle 4, a basin cycle 6. -/
  now : Nat
  agenda : List Turn
  cur : Cursor
  /-- Counter of the free values. -/
  freeIx : Nat
  /-- Contexts, keyed core × 8 + slot; the sluice context of die d is that of core 576 + d, slot 0. What is saved of
  fontanier context k while it is swapped out stands at core numbers raised by (k + 1) × 8,192. -/
  ctxs : SMap Ctx
  cores : SMap Core
  mem : Mem
  phasers : SMap Phaser
  dies : SMap Die
  parts : SMap Part
  /-- Fontanier contexts, keyed partition × 64 + entry. -/
  fctxs : SMap FCtx
  deliveries : List Delivery
  copyjobs : List CopyJob
  changes : List RangeChange
  rounds : List RoundCmd
  basins : SMap Basin
  slices : SMap Slice
  objects : SMap ObjLog
  calls : List CallReq
  dev : Dev
  deriving DecidableEq, Repr

/-- Why the machine stops: only a label that names a unit which the package does not have (00 R1). Raised by the events of
Machine/Ras.lean whose stack, pseudo-channel, bank, link, die or core is beyond the package's; safe, since no such event
exists. -/
inductive Fault
  | noSuchUnit
  deriving DecidableEq, Repr

/-- Why an instruction has no meaning: raised by exec for an instruction that is not modelled, by name; safe. -/
inductive Refusal
  | notModelled (mnemonic : String)
  deriving DecidableEq, Repr

/-- The machine right after device reset. -/
def State.reset : State where
  now := 0
  agenda := []
  cur := {}
  freeIx := 0
  ctxs := []
  cores := []
  mem := {}
  phasers := []
  dies := []
  parts := []
  fctxs := []
  deliveries := []
  copyjobs := []
  changes := []
  rounds := []
  basins := []
  slices := []
  objects := []
  calls := []
  dev := {}

end Sys2Proof.Machine
end

