-- ==== Sys2Proof/Machine/Mem.lean ====
section
/-! DEFINITION. Sparse maps, the byte memory in canonical form, and the regions of its keys. -/

namespace Sys2Proof.Machine

/-! ### Sparse maps -/

/-- The value at key k, or the default d. -/
def sget {α : Type} (d : α) : SMap α → Nat → α
  | [], _ => d
  | (j, v) :: m, k => if j = k then v else sget d m k

/-- The value at key k, if there is one. -/
def sget? {α : Type} : SMap α → Nat → Option α
  | [], _ => none
  | (j, v) :: m, k => if j = k then some v else sget? m k

/-- The map with value v at key k. -/
def sset {α : Type} : SMap α → Nat → α → SMap α
  | [], k, v => [(k, v)]
  | (j, w) :: m, k, v =>
    if k < j then (k, v) :: (j, w) :: m else if k = j then (k, v) :: m else (j, w) :: sset m k v

/-- The map without key k. -/
def sdel {α : Type} (m : SMap α) (k : Nat) : SMap α := m.filter (fun e => e.1 ≠ k)

/-- The map with the value at k replaced by f of it (of d where there is none). -/
def smod {α : Type} (d : α) (m : SMap α) (k : Nat) (f : α → α) : SMap α := sset m k (f (sget d m k))

/-- Keys strictly rising. -/
def srising {α : Type} : SMap α → Bool
  | [] => true
  | [_] => true
  | (j, _) :: (k, v) :: m => j < k && srising ((k, v) :: m)

/-! ### The byte memory

One address space of natural numbers holds every byte-addressed storage of the package and of what it
reaches. An unlisted byte reads as zero (log 2). -/

/-- The canonical form: addresses strictly rising, no byte equal to what an unlisted address reads as. -/
def Memory.wf (m : Memory) : Bool := srising m && m.all (fun e => e.2 ≠ 0)

def mget (m : Memory) (a : Nat) : Byte := sget 0 m a

def mset (m : Memory) (a : Nat) (b : Byte) : Memory := if b = 0 then sdel m a else sset m a b

/-- The n bytes from address a up. -/
def mgets (m : Memory) (a : Nat) : Nat → List Byte
  | 0 => []
  | n + 1 => mget m a :: mgets m (a + 1) n

def msets (m : Memory) (a : Nat) : List Byte → Memory
  | [] => m
  | b :: bs => msets (mset m a b) (a + 1) bs

/-- Little-endian number of a byte list (00 R6). -/
def leNat : List Byte → Nat
  | [] => 0
  | b :: bs => b.toNat + 256 * leNat bs

/-- The n little-endian bytes of a number. -/
def leBytes (v : Nat) : Nat → List Byte
  | 0 => []
  | n + 1 => BitVec.ofNat 8 v :: leBytes (v / 256) n

/-! ### Regions of the address space (10 R214, R215) -/

/-- HBM: 64 GiB per stack, 12 stacks (00 R1). -/
def hbmAddr (stack off : Nat) : Nat := stack * 2 ^ 36 + off
/-- Second tier (00 R1). -/
def tier2Addr (off : Nat) : Nat := 2 ^ 41 + off
/-- Scratchpads: core offset of a logical core. -/
def spadAddr (core off : Nat) : Nat := 2 ^ 60 + core * 2 ^ 21 + off
/-- Jet SRAM, replica state blocks and the boot window. -/
def jetAddr (sl off : Nat) : Nat := 2 ^ 43 + sl * 2 ^ 16 + off
def replicaAddr (part obj die off : Nat) : Nat := 2 ^ 44 + ((part * 256 + obj) * 4 + die) * 2 ^ 16 + off
def bootAddr (off : Nat) : Nat := 2 ^ 45 + off
def hostAddr (a : Nat) : Nat := 2 ^ 50 + a
def remoteAddr (a : Nat) : Nat := 2 ^ 51 + a

/-- Window of a physical address, PA<50:48>. -/
def paWin (pa : Nat) : Nat := pa / 2 ^ 48 % 8
def paLow (pa : Nat) : Nat := pa % 2 ^ 48

/-- Where windows 000, 001 and 010 place a byte: stack and stack offset (10 R215). -/
def hbmPlace (pa : Nat) : Nat × Nat :=
  let o := paLow pa
  match paWin pa with
  | 0 =>
    let g := o / 4096
    (g % 12, g / 12 * 4096 + o % 4096)
  | 1 => (o / 2 ^ 36, o % 2 ^ 36)
  | _ =>
    let ch := o / 2 ^ 31 % 32
    let pc := o / 2 ^ 30 % 2
    let pcoff := o % 2 ^ 30
    (o / 2 ^ 36, pcoff / 256 * 16384 + (ch * 2 + pc) * 256 + pcoff % 256)

/-- Channel × 2 + pseudo-channel, and the offset in the pseudo-channel, of a stack offset (10 R215). -/
def pchOf (so : Nat) : Nat := so / 256 % 64
def pcoffOf (so : Nat) : Nat := so / 16384 * 256 + so % 256

/-- The physical address in window w of the DRAM byte at (stack, stack offset): the inverse of hbmPlace. -/
def paOf (w stack so : Nat) : Nat :=
  match w with
  | 0 => (so / 4096 * 12 + stack) * 4096 + so % 4096
  | 1 => 2 ^ 48 + stack * 2 ^ 36 + so
  | _ => 2 * 2 ^ 48 + stack * 2 ^ 36 + pchOf so * 2 ^ 30 + pcoffOf so

/-- Whether a physical address lies in its window's size and keeps its zero bits (10 R214). -/
def paValid (pa : Nat) : Bool :=
  let o := paLow pa
  match paWin pa with
  | 0 => o < 12 * 2 ^ 36
  | 1 => o < 12 * 2 ^ 36
  | 2 => o < 12 * 2 ^ 36
  | 3 => o < 1920 * 2 ^ 30
  | 4 => true
  | 5 => true
  | _ => false

/-- The storage key of a physical address outside the device-register windows. -/
def paKey (pa : Nat) : Nat :=
  match paWin pa with
  | 3 => tier2Addr (paLow pa)
  | 4 => hostAddr (paLow pa)
  | 5 => remoteAddr (paLow pa)
  | _ => let p := hbmPlace pa; hbmAddr p.1 p.2

/-- The memory channel of a PA of windows 000 to 011: stack × 64 + pseudo-channel, or 768 + second-tier channel. -/
def chanOf (pa : Nat) : Nat :=
  if paWin pa = 3 then 768 + paLow pa / 4096 % 80
  else let p := hbmPlace pa; p.1 * 64 + pchOf p.2

/-- Home of a line (11 R221, the rule of that number in 11_coherence): slice number stack × 4 + slice. -/
def homeSlice (pa : Nat) : Nat :=
  if paWin pa = 3 then
    let c := paLow pa / 4096 % 80
    (3 * (c / 20) + c % 20 % 3) * 4 + c % 20 / 5
  else
    let p := hbmPlace pa
    p.1 * 4 + pchOf p.2 / 2 / 8

/-- Directory set of a line at its home (11 R221). -/
def homeSet (pa : Nat) : Nat :=
  if paWin pa = 3 then
    let o := paLow pa
    (o / 327680 * 4096 + o % 4096) / 128 % 8192
  else
    let p := hbmPlace pa
    ((pcoffOf p.2 / 128) ^^^ (512 * (pchOf p.2 % 16))) % 8192

end Sys2Proof.Machine
end

