-- ==== Sys2Proof/Machine/Operands.lean ====
section
/-! DEFINITION. Operand forms: reading and writing the registers of a context (02 R24, R25), the full/empty
tests of a slot's operands (02 R35, R36), and access to the contexts and cores of the state. -/

namespace Sys2Proof.Machine

/-! ### Registers -/

/-- s0 reads as zero, full and clean (02 R25). -/
def Ctx.sreg (c : Ctx) (i : BitVec 6) : SReg := if i = 0 then {} else sget {} c.s i.toNat
/-- p0 reads as true (02 R25). -/
def Ctx.preg (c : Ctx) (i : BitVec 3) : PReg := if i = 0 then { v := true } else sget {} c.p i.toNat
def Ctx.vreg (c : Ctx) (i : BitVec 6) : VReg := sget {} c.v i.toNat
/-- m0 reads as all ones (02 R25). -/
def Ctx.mreg (c : Ctx) (i : BitVec 3) : MReg := if i = 0 then { v := BitVec.allOnes 128 } else sget {} c.m i.toNat
def Ctx.kreg (c : Ctx) (i : BitVec 4) : KReg := sget {} c.k i.toNat
def Ctx.wreg (c : Ctx) (i : BitVec 3) : WReg := sget {} c.w i.toNat
def Ctx.nreg (c : Ctx) (i : Nat) : NReg := sget {} c.n i

/-- A write to s0 is discarded (02 R25). -/
def Ctx.setSreg (c : Ctx) (i : BitVec 6) (r : SReg) : Ctx := if i = 0 then c else { c with s := sset c.s i.toNat r }
def Ctx.setPreg (c : Ctx) (i : BitVec 3) (r : PReg) : Ctx := if i = 0 then c else { c with p := sset c.p i.toNat r }
def Ctx.setVreg (c : Ctx) (i : BitVec 6) (r : VReg) : Ctx := { c with v := sset c.v i.toNat r }
def Ctx.setMreg (c : Ctx) (i : BitVec 3) (r : MReg) : Ctx := if i = 0 then c else { c with m := sset c.m i.toNat r }
def Ctx.setKreg (c : Ctx) (i : BitVec 4) (r : KReg) : Ctx := { c with k := sset c.k i.toNat r }
def Ctx.setWreg (c : Ctx) (i : BitVec 3) (r : WReg) : Ctx := { c with w := sset c.w i.toNat r }
def Ctx.setNreg (c : Ctx) (i : Nat) (r : NReg) : Ctx := { c with n := sset c.n i r }

/-- Stride l (1 to 6) of a walker (02 R24). -/
def WReg.stride (w : WReg) (l : Nat) : Word := (w.strides.extractLsb' (32 * (l - 1)) 32).signExtend 64

/-- The walker with the level-l stride added to its base (08 R163, 05 R100). -/
def WReg.advance (w : WReg) (l : Nat) : WReg := { w with base := w.base + w.stride l }

/-! ### Full/empty bits -/

/-- A register with a full/empty bit (02 R35). -/
inductive FReg
  | s (i : BitVec 6) | v (i : BitVec 6) | w (i : BitVec 3) | a (n : BitVec 2)
  deriving DecidableEq, Repr

def Ctx.isFull (c : Ctx) : FReg → Bool
  | .s i => (c.sreg i).full
  | .v i => (c.vreg i).full
  | .w i => (c.wreg i).full
  | .a n => !c.accEmpty.getLsbD n.toNat

/-- Mark a register empty, as a variable-latency producer does to its destination (02 R34); s0 never is (R25). -/
def Ctx.markEmpty (c : Ctx) : Dest → Ctx
  | .s i => c.setSreg i { c.sreg i with full := false }
  | .v i => c.setVreg i { c.vreg i with full := false }
  | .w i => c.setWreg i { c.wreg i with full := false }
  | .p _ => c
  | .m _ => c
  | .k _ => c
  | .sr _ => c

/-- Mark a register full, its value unchanged. -/
def Ctx.markFull (c : Ctx) : Dest → Ctx
  | .s i => c.setSreg i { c.sreg i with full := true }
  | .v i => c.setVreg i { c.vreg i with full := true }
  | .w i => c.setWreg i { c.wreg i with full := true }
  | .p _ => c
  | .m _ => c
  | .k _ => c
  | .sr _ => c

def Ctx.destFull (c : Ctx) : Dest → Bool
  | .s i => (c.sreg i).full
  | .v i => (c.vreg i).full
  | .w i => (c.wreg i).full
  | .p _ => true
  | .m _ => true
  | .k _ => true
  | .sr _ => true

/-- Mark an accumulator empty or full (07 R140). -/
def Ctx.setAccEmpty (c : Ctx) (a : Nat) (empty : Bool) : Ctx :=
  { c with accEmpty := if empty then c.accEmpty ||| (1#4 <<< a) else c.accEmpty &&& ~~~(1#4 <<< a) }

/-! ### Accumulators (02 R24) -/

def accKey (a row quarter : Nat) : Nat := (a * 64 + row) * 4 + quarter
def Ctx.accQuarter (c : Ctx) (a row quarter : Nat) : VWord := sget 0 c.acc (accKey a row quarter)
def Ctx.setAccQuarter (c : Ctx) (a row quarter : Nat) (v : VWord) : Ctx :=
  { c with acc := sset c.acc (accKey a row quarter) v }
/-- Poison bit of segment seg (0 to 15) of a row. -/
def Ctx.accPoisoned (c : Ctx) (a row seg : Nat) : Bool := c.accPois.getLsbD (a * 1024 + row * 16 + seg)
def setBit {n : Nat} (x : BitVec n) (i : Nat) (b : Bool) : BitVec n :=
  if b then x ||| (1#n <<< i) else x &&& ~~~(1#n <<< i)
def Ctx.setAccPoisoned (c : Ctx) (a row seg : Nat) (b : Bool) : Ctx :=
  { c with accPois := setBit c.accPois (a * 1024 + row * 16 + seg) b }

/-! ### Counters -/

def satInc {n : Nat} (x : BitVec n) : BitVec n := if x = BitVec.allOnes n then x else x + 1
def satAdd {n : Nat} (x : BitVec n) (k : Nat) : BitVec n :=
  if 2 ^ n ≤ x.toNat + k then BitVec.allOnes n else x + BitVec.ofNat n k

/-- Which of n possibilities the hardware takes: a free value. -/
def State.pick (s : State) (n : Nat) : Nat × State := (Config.arb s.freeIx % n, { s with freeIx := s.freeIx + 1 })

/-! ### Contexts and cores of the state -/

def ctxKey (core slot : Nat) : Nat := core * 8 + slot

/-- The state of a context that is swapped out stands at core numbers above 8,192: the logical core id and the offset
at which the image stands. -/
def coreNo (core : Nat) : Nat := core % 8192
def coreBase (core : Nat) : Nat := core - core % 8192
/-- Core numbers of the saved image of fontanier context k. -/
def imageBase (k : Nat) : Nat := (k + 1) * 8192

/-- The key of the context that the operation acts for. -/
def State.key (s : State) : Nat := ctxKey s.cur.core s.cur.slot
def State.ctxAt (s : State) (k : Nat) : Ctx := sget {} s.ctxs k
def State.ctx (s : State) : Ctx := s.ctxAt s.key
def State.setCtxAt (s : State) (k : Nat) (c : Ctx) : State := { s with ctxs := sset s.ctxs k c }
def State.setCtx (s : State) (c : Ctx) : State := s.setCtxAt s.key c
def State.modCtxAt (s : State) (k : Nat) (f : Ctx → Ctx) : State := s.setCtxAt k (f (s.ctxAt k))
def State.modCtx (s : State) (f : Ctx → Ctx) : State := s.modCtxAt s.key f

def State.coreAt (s : State) (c : Nat) : Core := sget {} s.cores c
def State.core (s : State) : Core := s.coreAt s.cur.core
def State.setCoreAt (s : State) (c : Nat) (x : Core) : State := { s with cores := sset s.cores c x }
def State.modCoreAt (s : State) (c : Nat) (f : Core → Core) : State := s.setCoreAt c (f (s.coreAt c))
def State.modCore (s : State) (f : Core → Core) : State := s.modCoreAt s.cur.core f

def State.dieAt (s : State) (d : Nat) : Die := sget {} s.dies d
def State.modDie (s : State) (d : Nat) (f : Die → Die) : State := { s with dies := smod {} s.dies d f }
def State.partAt (s : State) (p : Nat) : Part := sget {} s.parts p
def State.modPart (s : State) (p : Nat) (f : Part → Part) : State := { s with parts := smod {} s.parts p f }
def State.fctxAt (s : State) (k : Nat) : FCtx := sget {} s.fctxs k
def State.modFctx (s : State) (k : Nat) (f : FCtx → FCtx) : State := { s with fctxs := smod {} s.fctxs k f }
def State.basinAt (s : State) (b : Nat) : Basin := sget {} s.basins b
def State.modBasin (s : State) (b : Nat) (f : Basin → Basin) : State := { s with basins := smod {} s.basins b f }
def State.sliceAt (s : State) (x : Nat) : Slice := sget {} s.slices x
def State.modSlice (s : State) (x : Nat) (f : Slice → Slice) : State := { s with slices := smod {} s.slices x f }
def State.phaserAt (s : State) (x : Nat) : Phaser := sget {} s.phasers x
def State.modPhaser (s : State) (x : Nat) (f : Phaser → Phaser) : State := { s with phasers := smod {} s.phasers x f }
def State.modMem (s : State) (f : Mem → Mem) : State := { s with mem := f s.mem }

/-- A core makes no move while it is frozen or lost. -/
def State.coreStands (s : State) (c : Nat) : Bool := (s.coreAt c).frozen || s.dev.lost.contains c

/-- Handler contexts are slots 4 to 7 of a core (00 R1). -/
def State.isHandler (s : State) : Bool := 4 ≤ s.cur.slot
/-- The sluice context of die d stands at core number 576 + d. -/
def State.isSluice (s : State) : Bool := 576 ≤ coreNo s.cur.core

/-! ### Topology (00 R1, R2) and time (00 R3) -/

def clusterOf (core : Nat) : Nat := coreNo core / 8
/-- Die of a logical core, or of a sluice's core number. -/
def dieOf (core : Nat) : Nat := if coreNo core < 576 then coreNo core / 144 else coreNo core - 576
def stackDie (stack : Nat) : Nat := stack / 3
def partOfKey (k : Nat) : Nat := k / 64
def entryOfKey (k : Nat) : Nat := k % 64

/-- Package time in ns (00 R3). -/
def State.ptime (s : State) : Nat := s.now / 9
/-- Core clock count since device reset (05 R107). -/
def State.cycles (s : State) : Nat := s.now / 4

/-! ### The operand checks of a slot (02 R35, R36; 03 R61) -/

inductive Verdict
  /-- The slot may issue. -/
  | go
  /-- The core freezes in this cycle. -/
  | freeze
  /-- The core freezes for a range walk of this VA. -/
  | walk (va : Nat)
  | trap (t : TrapInfo)
  deriving DecidableEq, Repr

/-- What the checks and the effect of a slot instruction are made of. `srcs` are the full/empty-tested
sources with their mode bits, `dsts` the destinations under the interlock. -/
structure SlotSem where
  /-- The guard, where the form has one (03 R61). -/
  guard : Option Guard := none
  /-- The context check that precedes every field check (02 R26, 03 R60). -/
  first : State → Option Cause := fun _ => none
  /-- Static checks that depend on the context (03 R60). -/
  stat : State → Option Cause := fun _ => none
  srcs : List (FReg × Bool) := []
  dsts : List FReg := []
  /-- Load-queue and store-queue entries that it takes (08 R161). -/
  need : Nat × Nat := (0, 0)
  /-- Job slots that it takes (08 R176). -/
  jobs : Nat := 0
  /-- Run-time checks, with the slot that a trap names filled in by the caller. -/
  run : State → Verdict := fun _ => .go
  eff : State → State

/-- Whether a slot's guard holds (03 R61). -/
def Ctx.holds (c : Ctx) : Option Guard → Bool
  | none => true
  | some g => (c.preg g.pg).v != g.pn

def Ctx.guardPoisoned (c : Ctx) : Option Guard → Bool
  | none => false
  | some g => (c.preg g.pg).pois

/-- A trap-mode operand is empty (02 R35). -/
def Ctx.trapsEmpty (c : Ctx) (srcs : List (FReg × Bool)) : Bool := srcs.any (fun o => o.2 && !c.isFull o.1)
/-- A blocking operand or a destination is empty (02 R35, R36). -/
def Ctx.blocks (c : Ctx) (srcs : List (FReg × Bool)) (dsts : List FReg) : Bool :=
  srcs.any (fun o => !o.2 && !c.isFull o.1) || dsts.any (fun d => !c.isFull d)

/-- The context's queues have room for n entries (08 R161). -/
def Ctx.room (c : Ctx) (n : Nat × Nat) : Bool :=
  (n.1 = 0 || decide (c.ldq.length + n.1 ≤ 32)) && (n.2 = 0 || decide (c.stq.length + n.2 ≤ 32))

/-- Whether n more jobs find a slot: 16 jobs of a context that have not ended hold one each (08 R176). -/
def Ctx.jobRoom (c : Ctx) (n : Nat) : Bool := n = 0 || (c.jobs.filter (fun j => j.2.st ≠ .faulted)).length + n ≤ 16

end Sys2Proof.Machine
end

