-- ==== Sys2Proof/Machine/Flags.lean ====
section
/-! DEFINITION. Flags and the landing of results: the flag vector (02 R32, 04 R78), underflow counters
(04 R75), the settling of landings that meet (02 R37), and the state registers (02 R30, R31). -/

namespace Sys2Proof.Machine

/-! ### IEEE flags -/

/-- Flags of one element: NX in bit 4, then UF, OF, DZ, and NV in bit 0 (02 R31, MFLAGS; the numbers of R32). -/
abbrev Flags := BitVec 5
def fNV : Flags := 1
def fDZ : Flags := 2
def fOF : Flags := 4
def fUF : Flags := 8
def fNX : Flags := 16

/-- The bits of VFLG2:VFLG1:VFLG0 that flags f at lane position i set (02 R32): flag numbers NV 0, DZ 1, OF 2, UF 3, NX 4. -/
def laneFlags (f : Flags) (i : Nat) : BitVec 192 :=
  let bit (b n : Nat) : BitVec 192 := if f.getLsbD b then 1#192 <<< (32 * n + i) else 0
  bit 0 0 ||| bit 1 1 ||| bit 2 2 ||| bit 3 3 ||| bit 4 4

/-! ### Writing the state registers (02 R30, R31) -/

/-- Semaphore n of a core. -/
def Core.sem (c : Core) (n : Nat) : BitVec 16 := sget 0 c.q n

/-- Add to a semaphore, saturating at 0xFFFF and setting its QOVF bit (08 R178, R184). -/
def Core.bumpSem (c : Core) (n count : Nat) : Core :=
  let v := (c.sem n).toNat + count
  if 0xFFFF < v then { c with q := sset c.q n 0xFFFF, qstat := setBit c.qstat n true }
  else { c with q := sset c.q n (BitVec.ofNat 16 v) }

/-- The increments of semaphore n that core cycle t has had, and the QOVF bit before them. -/
def Core.incsOf (c : Core) (t n : Nat) : Nat × Bool :=
  match sget? c.qinc n with
  | some (u, k, o) => if u = t then (k, o) else (0, c.qstat.getLsbD n)
  | none => (0, c.qstat.getLsbD n)

/-- An increment of a semaphore in core cycle t, which remembers it for a write of the same cycle (05 R106). -/
def Core.addSem (c : Core) (t n count : Nat) : Core :=
  let r := c.incsOf t n
  { c.bumpSem n count with qinc := sset c.qinc n (t, r.1 + count, r.2) }

/-- A write of a semaphore in core cycle t: the value is stored first, and the increments of the cycle are added to it
(05 R106). -/
def Core.setSem (c : Core) (t n : Nat) (v : BitVec 16) : Core :=
  let r := c.incsOf t n
  { c with q := sset c.q n v, qstat := setBit c.qstat n r.2 }.bumpSem n r.1

/-- What an MTS does to a register of its context when it takes effect: RW fields are replaced, 1 bits of
W1C fields are cleared (02 R30). MPROG: 07 R157. -/
def Ctx.writeSreg (c : Ctx) (n : BitVec 12) (v : Word) : Ctx :=
  match n.toNat with
  | 0x00 => { c with vflg := c.vflg &&& ~~~(v.setWidth 192) }
  | 0x01 => { c with vflg := c.vflg &&& ~~~((v.setWidth 192) <<< 64) }
  | 0x02 => { c with vflg := c.vflg &&& ~~~((v.setWidth 192) <<< 128) }
  | 0x03 => { c with mflags := c.mflags &&& ~~~(v.setWidth 5) }
  | 0x04 => { c with rmode := v.setWidth 3 }
  | 0x05 => { c with srseed := v.setWidth 32 }
  | 0x06 => { c with srctr := v.setWidth 32 }
  | 0x07 => { c with thresh := v.extractLsb' 8 6, policy := v.getLsbD 0 }
  | 0x70 => { c with asyncf := c.asyncf &&& ~~~(v.setWidth 6) }
  | 0x80 => { c with wcol := c.wcol &&& ~~~(v.setWidth 8) }
  | _ => c

/-- What an MTS does in core cycle t to a register held once per core (02 R31, 05 R106). -/
def Core.writeSreg (c : Core) (t : Nat) (n : BitVec 12) (v : Word) : Core :=
  let k := n.toNat
  if 0x40 ≤ k && k ≤ 0x4F then c.setSem t (k - 0x40) (v.setWidth 16)
  else if k = 0x50 then { c with qstat := c.qstat &&& ~~~(v.setWidth 16) }
  else c

/-- Discarding a restart record by an MTS of 0 to MPROG marks the accumulator full with the blocks that were
completed, and compares the measured energy with the debit (07 R157, R160). -/
def Ctx.cancelRestart (c : Ctx) : Ctx :=
  match c.restart with
  | none => { c with mprog := 0 }
  | some r =>
    let debit := 16 * 2 ^ r.w.ec.toNat
    let c := { c with restart := none, mprog := 0 }
    let c := c.setAccEmpty r.w.acc.toNat false
    if 4 * debit < r.energy then { c with eunder := if c.eunder = 0xFFFFFFFF then c.eunder else c.eunder + 1 } else c

/-! ### Landing -/

/-- A register written under a bit mask. -/
def mergeBits (old new mask : VWord) : VWord := (old &&& ~~~mask) ||| (new &&& mask)

/-- The destination takes the bits that the result writes (02 R37), and the poison of the lane positions it
writes. -/
def Ctx.landOn (c : Ctx) (d : Dest) (val wm : VWord) (pois pm : BitVec 32) : Ctx :=
  match d with
  | .s i => c.setSreg i { v := val.setWidth 64, full := true, pois := pois.getLsbD 0 }
  | .p i => c.setPreg i { v := val.getLsbD 0, pois := pois.getLsbD 0 }
  | .v i =>
    let r := c.vreg i
    c.setVreg i { v := mergeBits r.v val wm, full := true, pois := (r.pois &&& ~~~pm) ||| (pois &&& pm) }
  | .m i =>
    let r := c.mreg i
    c.setMreg i { v := (mergeBits (r.v.setWidth 1024) val wm).setWidth 128,
                  pois := (r.pois &&& ~~~pm) ||| (pois &&& pm) }
  | .k i => c.setKreg i { v := val, pois := pois.setWidth 4 }
  | .w i => c.setWreg i { base := val.setWidth 64, strides := (val >>> 64).setWidth 192, full := true, pois := pois.getLsbD 0 }
  | .sr n => if n.toNat = 0x18 then (if val.getLsbD 8 then c else c.cancelRestart) else c.writeSreg n (val.setWidth 64)

/-- The poison of the lane positions of a vector or mask register. -/
def Ctx.lanePoison (c : Ctx) : Dest → BitVec 32
  | .v i => (c.vreg i).pois
  | .m i => (c.mreg i).pois
  | .s _ => 0
  | .p _ => 0
  | .k _ => 0
  | .w _ => 0
  | .sr _ => 0

/-- A conversion's underflow counts replace UCNT and add to UNDC, saturating (04 R75, 02 R31). -/
def Ctx.addUcnt (c : Ctx) (u : Nat × Nat) : Ctx :=
  let sum := c.undc.toNat + u.2
  { c with ucnt := sset c.ucnt u.1 (BitVec.ofNat 6 u.2),
           undc := if 0xFFFFFFFF < sum then 0xFFFFFFFF else BitVec.ofNat 32 sum,
           undcSat := c.undcSat || decide (0xFFFFFFFF < sum) }

/-- Whether landing x beats landing y on one register in one cycle (02 R37). -/
def Landing.beats (x y : Landing) : Bool := y.slot < x.slot || (x.slot = y.slot && y.seq < x.seq)

/-- The result is lost: another due result on its register wins, or its register was marked empty by a
later variable-latency producer (02 R37). A fixed-latency result counts as earlier than a variable-latency producer of its own
bundle too: DESIGN CHOICE, log 51. -/
def Ctx.loses (c : Ctx) (due : List Landing) (x : Landing) : Bool :=
  due.any (fun y => y.dest = x.dest && y.beats x) || !c.destFull x.dest

/-- The due results in slot and issue order. -/
def insLanding (x : Landing) : List Landing → List Landing
  | [] => [x]
  | y :: l => if x.beats y then y :: insLanding x l else x :: y :: l

def sortLandings (l : List Landing) : List Landing := l.foldr insLanding []

/-- The flags that a result raises where its register's lane positions end with poison p: those of the lane positions that it
writes whole, and of the others those that end clean (04 R78). -/
def Landing.raised (x : Landing) (p : BitVec 32) : BitVec 192 :=
  (x.pflags.filter (fun f => f.1 &&& p = 0)).foldl (fun a f => a ||| f.2) x.flags

/-- One result that is not lost takes effect: its value, then its flags and counts (02 R32, R37; 06 R139). -/
def Ctx.landOne (c : Ctx) (x : Landing) : Ctx :=
  let c := c.landOn x.dest x.val x.wm x.pois x.pm
  x.ucnt.foldl Ctx.addUcnt { c with vflg := c.vflg ||| x.raised (c.lanePoison x.dest) }

/-- Every result due at the context's advancing cycle lands (02 R33, R37). State-register writes take effect
before the flags of the same cycle (04 R78), and after the WCOL bits of its collisions (DESIGN CHOICE, log 51). -/
def Ctx.landDue (c : Ctx) : Ctx :=
  let due := c.pend.filter (fun x => x.due ≤ c.adv)
  let lost := due.filter (c.loses due)
  let won := sortLandings (due.filter (fun x => !c.loses due x))
  let isSr (x : Landing) : Bool := match x.dest with | .sr _ => true | _ => false
  let c := { c with pend := c.pend.filter (fun x => !(x.due ≤ c.adv)),
                    wcol := lost.foldl (fun w x => setBit w x.slot true) c.wcol }
  let c := (won.filter isSr).foldl Ctx.landOne c
  (won.filter (fun x => !isSr x)).foldl Ctx.landOne c

/-- The state-register writes among the due results that act on the core in its cycle t (05 R106). -/
def Core.landDue (k : Core) (t : Nat) (c : Ctx) : Core :=
  let due := c.pend.filter (fun x => x.due ≤ c.adv)
  let won := sortLandings (due.filter (fun x => !c.loses due x))
  won.foldl (fun k x => match x.dest with | .sr n => k.writeSreg t n (x.val.setWidth 64) | _ => k) k

/-- A fixed-latency result issued in the current advancing cycle with latency lat (02 R33). A result for s0, p0 or
m0 is discarded (02 R25). -/
def Ctx.issue (c : Ctx) (slot lat : Nat) (d : Dest) (val wm : VWord) (pois pm : BitVec 32)
    (flags : BitVec 192 := 0) (ucnt : List (Nat × Nat) := []) (pflags : List (BitVec 32 × BitVec 192) := []) : Ctx :=
  if d = .s 0 || d = .p 0 || d = .m 0 then c
  else { c with pend := c.pend ++ [{ due := c.adv + lat, slot, seq := c.issued, dest := d, val, wm, pois, pm, flags, ucnt, pflags }] }

/-- Values of variable-latency producers land on one register in one cycle and fill it (02 R34). They meet each other, and the
fixed-latency results that are due on it: the higher slot is written, at one slot the later producer, and the others are
lost (02 R37). -/
def Ctx.landSet (c : Ctx) (d : Dest) (vs : List Landing) : Ctx :=
  let due (x : Landing) : Bool := x.dest = d && x.due ≤ c.adv
  let all := c.pend.filter due ++ vs
  let lost (x : Landing) : Bool := all.any (fun y => y.beats x)
  let c := { c with pend := c.pend.filter (fun x => !due x),
                    wcol := (all.filter lost).foldl (fun w (x : Landing) => setBit w x.slot true) c.wcol }
  (all.filter (fun x => !lost x)).foldl Ctx.landOne c

/-- A variable-latency value as a landing, which is later than the fixed-latency results that its register still awaits
(02 R36). -/
def Ctx.varLanding (c : Ctx) (slot : Nat) (d : Dest) (val wm : VWord) (pois pm : BitVec 32) : Landing :=
  { due := c.adv, slot, seq := c.issued + 1, dest := d, val, wm, pois, pm }

/-- The value of a variable-latency producer of the given slot lands alone. -/
def Ctx.landVar (c : Ctx) (slot : Nat) (d : Dest) (val wm : VWord) (pois pm : BitVec 32) : Ctx :=
  c.landSet d [c.varLanding slot d val wm pois pm]

/-- One bit as a lane-poison vector. -/
def pois1 (b : Bool) : BitVec 32 := if b then 1 else 0

/-- A scalar result (05 R85). -/
def Ctx.issueS (c : Ctx) (slot lat : Nat) (d : BitVec 6) (v : Word) (p : Bool) : Ctx :=
  c.issue slot lat (.s d) (v.setWidth 1024) (BitVec.allOnes 1024) (pois1 p) 1

/-- A predicate result (05 R90). -/
def Ctx.issueP (c : Ctx) (slot lat : Nat) (d : BitVec 3) (v p : Bool) : Ctx :=
  c.issue slot lat (.p d) (if v then 1 else 0) (BitVec.allOnes 1024) (pois1 p) 1

end Sys2Proof.Machine
end

