-- ==== Sys2Proof/Machine/Cache.lean ====
section
/-! DEFINITION. Bytes with their poison in storage, L2 and L1 (19 R333, 21 R345; 10 R216), and the reading and
writing of a translated location by an agent that works at the home. -/

namespace Sys2Proof.Machine

/-- A byte with the poison bit of the sector that it comes from, or of the value that it was stored with. -/
abbrev PByte := Byte × Bool

def pvals (l : List PByte) : List Byte := l.map (·.1)
def pany (l : List PByte) : Bool := l.any (·.2)
def pnat (l : List PByte) : Nat := leNat (pvals l)
def clean (l : List Byte) : List PByte := l.map (fun b => (b, false))
/-- n bytes of a number, all with one poison bit. -/
def pbytes (v n : Nat) (p : Bool) : List PByte := (leBytes v n).map (fun b => (b, p))

/-- Poison of sector t after bytes l are written from address a up: poisoned when a poisoned value is written into
it, clean when it is written whole with clean values, otherwise unchanged (08 R164, 21 R345). -/
def sectorAfter (old : Bool) (a : Nat) (l : List PByte) (t : Nat) : Bool :=
  let w := (l.zipIdx.filter (fun e => (a + e.2) / 32 = t)).map (·.1)
  pany w || (old && w.length < 32)

/-- The sectors that n bytes from a touch. -/
def sectorsOf (a n : Nat) : List Nat := (List.range ((a + n + 31) / 32 - a / 32)).map (fun i => a / 32 + i)

/-! ### Storage -/

def Mem.rd (m : Mem) (a n : Nat) : List PByte :=
  (mgets m.bytes a n).zipIdx.map (fun e => (e.1, sget false m.pois ((a + e.2) / 32)))

/-- The canonical form of the sector-poison map: a clean sector is not listed. -/
def setFlag (m : SMap Bool) (k : Nat) (b : Bool) : SMap Bool := if b then sset m k true else sdel m k

def Mem.wr (m : Mem) (a : Nat) (l : List PByte) : Mem :=
  { m with
    bytes := msets m.bytes a (pvals l),
    pois := (sectorsOf a l.length).foldl (fun p t => setFlag p t (sectorAfter (sget false m.pois t) a l t)) m.pois }

/-! ### Lines -/

def lineBytes {w : Nat} (d : BitVec w) (off n : Nat) : List Byte := leBytes (d.toNat / 2 ^ (8 * off)) n

def setLine {w : Nat} (d : BitVec w) (off : Nat) (l : List Byte) : BitVec w :=
  let mask : BitVec w := BitVec.ofNat w ((2 ^ (8 * l.length) - 1) * 2 ^ (8 * off))
  (d &&& ~~~mask) ||| BitVec.ofNat w (leNat l * 2 ^ (8 * off))

def rdLine {w k : Nat} (d : BitVec w) (p : BitVec k) (off n : Nat) : List PByte :=
  (lineBytes d off n).zipIdx.map (fun e => (e.1, p.getLsbD ((off + e.2) / 32)))

def linePois {k : Nat} (p : BitVec k) (off : Nat) (l : List PByte) : BitVec k :=
  (sectorsOf off l.length).foldl (fun q t => setBit q t (sectorAfter (p.getLsbD t) off l t)) p

def L2Line.rd (x : L2Line) (off n : Nat) : List PByte := rdLine x.data x.pois off n
def L2Line.wr (x : L2Line) (off : Nat) (l : List PByte) : L2Line :=
  { x with data := setLine x.data off (pvals l), pois := linePois x.pois off l, dirty := true }
def L1Line.rd (x : L1Line) (off n : Nat) : List PByte := rdLine x.data x.pois off n
def L1Line.wr (x : L1Line) (off : Nat) (l : List PByte) : L1Line :=
  { x with data := setLine x.data off (pvals l), pois := linePois x.pois off l }

/-! ### The home (10 R216, 11 R221 to R230) -/

/-- n bytes at a physical address, within one 256-byte line, as the home slice holds them. -/
def Mem.homeRd (m : Mem) (pa n : Nat) : List PByte :=
  match sget? m.l2 (pa / 256) with
  | some x => x.rd (pa % 256) n
  | none => if sget false m.failed (chanOf pa) then (m.rd (paKey pa) n).map (fun b => (b.1, true)) else m.rd (paKey pa) n

def Mem.homeWr (m : Mem) (pa : Nat) (l : List PByte) : Mem :=
  match sget? m.l2 (pa / 256) with
  | some x => { m with l2 := sset m.l2 (pa / 256) (x.wr (pa % 256) l) }
  | none =>
    -- a block that is written in place is stored whole (10 R217)
    if sget false m.failed (chanOf pa) then m else { m.wr (paKey pa) l with cmp := sdel m.cmp (paKey pa / 256) }

/-- L2 holds the 256-byte line of a PA. -/
def State.inL2 (s : State) (pa : Nat) : Bool := (sget? s.mem.l2 (pa / 256)).isSome

/-- The L1 key of a line: COH and NC copies of one PA are separate (11 R228). -/
def l1Key (line : Nat) (nc : Bool) : Nat := line * 2 + (if nc then 1 else 0)

/-- The cores that a directory entry records (11 R222). -/
def DirEntry.holders (e : DirEntry) : List Nat :=
  match e.st with
  | .s => e.sharers
  | .sw => (List.range 576).filter (fun c => e.mask.getLsbD (clusterOf c))
  | .e => [e.owner]
  | .m => [e.owner]

/-- A core's coherent copy of a line: in its L1, or in its write-back buffer while a PUT is on its way (11 R224). -/
def State.copyOf (s : State) (line core : Nat) : Option L1Line :=
  (sget? (s.coreAt core).l1 (l1Key line false)).or (sget? (s.coreAt core).wb line)

def State.dropL1 (s : State) (line core : Nat) (nc : Bool) : State :=
  s.modCoreAt core (fun k => { k with l1 := sdel k.l1 (l1Key line nc) })

/-! ### Writes at the home, which a compaction repeats (15 R276) -/

/-- First byte of an entry's extent under an offset. -/
def RangeEntry.firstPa (e : RangeEntry) (off : Nat) : Nat := (e.base * 256 + off) % 2 ^ 64

def RangeEntry.size (e : RangeEntry) : Nat := (e.limit + 1 - e.base) * 256

/-- The new place of a byte of the old extent, where a compaction in the given state has copied its line or forwards it. -/
def Part.movedTo (p : Part) (st : CmpState) (pa : Nat) : Option Nat :=
  match p.cmpentry with
  | none => none
  | some e =>
    let old := e.firstPa (e.offset * 256)
    if p.cmpstate = st && old ≤ pa && pa < old + min e.size (256 * p.cmplines) then some (e.firstPa p.cmpnew + (pa - old)) else none

/-- Every recorded copy of a line is written where `put` says when dirty, and invalidated; the entry is freed. -/
def State.recallWith (s : State) (put : State → Nat → List PByte → State) (line : Nat) : State :=
  match sget? s.mem.dir line with
  | none => s
  | some e =>
    let s := e.holders.foldl (fun (s : State) (c : Nat) =>
      let s : State := match s.copyOf line c with
        | some x => if x.st = .modified then put s (line * 128) (x.rd 0 128) else s
        | none => s
      s.dropL1 line c false) s
    s.modMem (fun m => { m with dir := sdel m.dir line })

/-- A store to a line ends the reservations of it that jet cores hold (17 R306). -/
def Mem.storeTo (m : Mem) (pa : Nat) : Mem := { m with resv := m.resv.filter (fun r => r.2 ≠ pa / 128) }

/-- A write within one 256-byte line performs at its home. One at a line that a compaction has copied is repeated at the new
line, where no L1 keeps a copy. -/
def State.homeWr (s : State) (pa : Nat) (l : List PByte) : State :=
  let put (s : State) (a : Nat) (b : List PByte) : State := s.modMem (fun m => (m.homeWr a b).storeTo a)
  (s.parts.filterMap (fun p => p.2.movedTo .copy pa)).foldl (fun s a => put (s.recallWith put (a / 128)) a l) (put s pa l)

/-- The dirty data of a core's copy of a line goes to the home; the line is written as a whole. -/
def State.writeBack (s : State) (line core : Nat) : State :=
  match s.copyOf line core with
  | some x => if x.st = .modified then s.homeWr (line * 128) (x.rd 0 128) else s
  | none => s

/-- A recall made within one step of an agent at the home: every recorded copy is written back where dirty and
invalidated, and the entry is freed (11 R224, R229). -/
def State.recallNow (s : State) (line : Nat) : State := s.recallWith State.homeWr line

/-- A recall made for a far atomic, an MS access, an alias fence or a compaction, which counts it (11 R227). -/
def State.countedRecall (s : State) (line : Nat) : State :=
  if (sget? s.mem.dir line).isSome then
    (s.recallNow line).modSlice (homeSlice (line * 128)) (fun x => { x with recalls := satInc x.recalls })
  else s

/-- A 256-byte line that a MSG event holds busy from its arrival to the end of its run (17 R309). -/
def State.msgHeld (s : State) (line : Nat) : Bool :=
  let sl := s.sliceAt (homeSlice (line * 256))
  let holds (i : JetItem) : Bool := match i with
    | .event .msg _ _ _ _ _ _ _ pa => pa / 256 = line
    | _ => false
  sl.fifo.any (fun i => holds i.2) || (match sl.run with | some r => holds r.item | none => false)

/-- The request for which a directory entry is being recalled (11 R226). -/
def DirEntry.waiting (e : DirEntry) : Option Msg :=
  match e.busy with
  | some (.recall _ m) => some m
  | some (.fill _ _) => none
  | some (.getm _ _ _) => none
  | some (.fwdGets _) => none
  | some (.fwdGetm _) => none
  | none => none

/-- A 128-byte line that is busy: a request to its directory entry is in progress (11 R222), or to the line, which waits for an
entry to be recalled (R226), or a jet run holds it. -/
def State.lineBusy (s : State) (line : Nat) : Bool :=
  (match sget? s.mem.dir line with | some e => e.busy.isSome | none => false) ||
    s.mem.dir.any (fun e => e.2.waiting.any (fun m => m.line = line)) || s.msgHeld (line / 2)

/-- A coherent read of n bytes within one 128-byte line: the copy of an owner, otherwise the home's (10 R216). -/
def State.cohRd (s : State) (pa n : Nat) : List PByte :=
  match sget? s.mem.dir (pa / 128) with
  | some e =>
    if e.st = .e || e.st = .m then
      match s.copyOf (pa / 128) e.owner with
      | some x => x.rd (pa % 128) n
      | none => s.mem.homeRd pa n
    else s.mem.homeRd pa n
  | none => s.mem.homeRd pa n

/-- A write by an agent at the home: L1 copies are recalled first (11 R229). -/
def State.cohWr (s : State) (pa : Nat) (l : List PByte) : State := (s.recallNow (pa / 128)).homeWr pa l

/-! ### Translated locations -/

/-- The storage key of a location that no cache holds. -/
def Loc.key (l : Loc) : Nat :=
  match l.space with
  | .spad => spadAddr 0 0 + l.pa
  | .coh => paKey l.pa
  | .nc => paKey l.pa
  | .ms => paKey l.pa
  | .host => paKey l.pa
  | .remote => paKey l.pa

/-- While a compaction forwards, an access that reaches the old extent is performed at the new line, uncached (15 R276). -/
def State.redirect (s : State) (l : Loc) : Loc :=
  match l.space, s.parts.findSome? (fun p => p.2.movedTo .forward l.pa) with
  | .coh, some pa => { space := .ms, pa }
  | .nc, some pa => { space := .ms, pa }
  | .ms, some pa => { space := .ms, pa }
  | _, _ => l

/-- n bytes at a location, within one 128-byte line, read by an agent other than the issuing L1. -/
def State.rdLoc (s : State) (l : Loc) (n : Nat) : List PByte :=
  let l := s.redirect l
  match l.space with
  | .spad => s.mem.rd l.key n
  | .coh => s.cohRd l.pa n
  | .nc => s.mem.homeRd l.pa n
  | .ms => s.cohRd l.pa n
  | .host => s.mem.rd l.key n
  | .remote => s.mem.rd l.key n

def State.wrLoc (s : State) (l : Loc) (b : List PByte) : State :=
  let l := s.redirect l
  match l.space with
  | .spad => s.modMem (fun m => m.wr l.key b)
  | .coh => s.cohWr l.pa b
  | .nc => s.homeWr l.pa b
  | .ms => (s.countedRecall (l.pa / 128)).homeWr l.pa b
  | .host => s.modMem (fun m => m.wr l.key b)
  | .remote => s.modMem (fun m => m.wr l.key b)

/-- The location n bytes further. -/
def Loc.plus (l : Loc) (n : Nat) : Loc := { l with pa := l.pa + n }

/-- Whether an agent at the home must wait for the location's line (11 R224). -/
def State.locBusy (s : State) (l : Loc) : Bool :=
  let l := s.redirect l
  match l.space with
  | .spad => false
  | .coh => s.lineBusy (l.pa / 128)
  | .nc => s.lineBusy (l.pa / 128)
  | .ms => s.lineBusy (l.pa / 128)
  | .host => !s.dev.pcieUp
  | .remote => false

/-- The read of a location that an agent makes has its effect on the directory: an access to an MS range recalls the entry of
its line first, and counts that (11 R227, R229). -/
def State.recallMs (s : State) (l : Loc) : State :=
  let l := s.redirect l
  if l.space = .ms then s.countedRecall (l.pa / 128) else s

def State.recallsMs (s : State) (ps : List (Loc × Nat)) : State := ps.foldl (fun s p => s.recallMs p.1) s

/-- Bytes at a location given in pieces of at most 32 bytes, one per sector. -/
def State.rdPieces (s : State) : List (Loc × Nat) → List PByte
  | [] => []
  | (l, n) :: r => s.rdLoc l n ++ s.rdPieces r

def State.wrPieces (s : State) : List (Loc × Nat) → List PByte → State
  | [], _ => s
  | (l, n) :: r, b => (s.wrLoc l (b.take n)).wrPieces r (b.drop n)

end Sys2Proof.Machine
end

