-- ==== Sys2Proof/Machine/Ranges.lean ====
section
/-! DEFINITION. Range translation (15 R263 to R269), the virtual windows (10 R211, R212; 09 R192) and the address
checks of 08 R162. -/

namespace Sys2Proof.Machine

/-! ### The range table -/

/-- Word i of a 32-byte entry. -/
def entryWord (b : List Byte) (i : Nat) : Word := BitVec.ofNat 64 (leNat ((b.drop (8 * i)).take 8))

/-- An entry from its 32 bytes (15 R264). -/
def parseEntry (index : Nat) (b : List Byte) : RangeEntry :=
  let w0 := entryWord b 0
  let w1 := entryWord b 1
  let w2 := entryWord b 2
  { index, base := (w0.extractLsb' 8 44).toNat, limit := (w1.extractLsb' 8 44).toNat,
    valid := w0.getLsbD 7, lock := w0.getLsbD 6, x := w0.getLsbD 4, w := w0.getLsbD 3, r := w0.getLsbD 2,
    kind := (w0.extractLsb' 0 2).toNat, vsh := (w1.extractLsb' 58 6).toNat, vers := w1.getLsbD 57,
    remote := w1.getLsbD 56, host := w1.getLsbD 55, cmpr := w1.getLsbD 54, jet := (w1.extractLsb' 0 6).toNat,
    offset := (w2.extractLsb' 8 56).toNat, win := (w2.extractLsb' 5 3).toNat, res := entryWord b 3,
    reserved := w0.extractLsb' 52 12 ≠ 0 || w0.getLsbD 5 || w1.extractLsb' 52 2 ≠ 0 || w1.extractLsb' 6 2 ≠ 0
      || w2.extractLsb' 0 5 ≠ 0 }

/-- The 32 bytes of an entry. -/
def RangeEntry.bytes (e : RangeEntry) : List Byte :=
  let b (x : Bool) (k : Nat) : Nat := if x then 2 ^ k else 0
  let w0 := e.base * 256 + b e.valid 7 + b e.lock 6 + b e.x 4 + b e.w 3 + b e.r 2 + e.kind
  let w1 := e.vsh * 2 ^ 58 + b e.vers 57 + b e.remote 56 + b e.host 55 + b e.cmpr 54 + e.limit * 256 + e.jet
  let w2 := e.offset * 256 + e.win * 32
  leBytes w0 8 ++ leBytes w1 8 ++ leBytes w2 8 ++ leBytes e.res.toNat 8

/-- The PA of entry i of a partition's table. -/
def Part.entryPa (p : Part) (i : Nat) : Nat := p.rtbase.toNat + 32 * i

/-- One entry, read as one 32-byte unit with a coherent read (15 R267). -/
def State.rangeEntry (s : State) (part i : Nat) : RangeEntry :=
  parseEntry i (pvals (s.cohRd ((s.partAt part).entryPa i) 32))

/-- The binary search of 15 R265: the entry with the greatest probed BASE not above the VA. -/
def State.search (s : State) (part v : Nat) : Nat → Int → Int → Option Nat → Option Nat
  | 0, _, _, f => f
  | fuel + 1, lo, hi, f =>
    if lo ≤ hi then
      let m := (lo + hi) / 2
      if (s.rangeEntry part m.toNat).base ≤ v / 256 then s.search part v fuel (m + 1) hi (some m.toNat)
      else s.search part v fuel lo (m - 1) f
    else f

/-- The entries that the search reads. -/
def State.probes (s : State) (part v : Nat) : Nat → Int → Int → List Nat
  | 0, _, _ => []
  | fuel + 1, lo, hi =>
    if lo ≤ hi then
      let m := (lo + hi) / 2
      m.toNat :: (if (s.rangeEntry part m.toNat).base ≤ v / 256 then s.probes part v fuel (m + 1) hi else s.probes part v fuel lo (m - 1))
    else []

/-- The first line of the table that a walk of a VA reads and L2 does not hold: the walk waits for its fill (15 R267). -/
def State.walkLacks (s : State) (part v : Nat) : Option Nat :=
  ((s.probes part v 18 0 ((s.partAt part).rtn.toNat - 1 : Int)).map (s.partAt part).entryPa).findSome? (fun pa =>
    if s.inL2 pa then none else some (pa / 256))

/-- The entry that covers a VA, ignoring VALID (15 R265, R279). -/
def State.walkAny (s : State) (part v : Nat) : Option RangeEntry :=
  match s.search part v 18 0 ((s.partAt part).rtn.toNat - 1 : Int) none with
  | none => none
  | some f =>
    let e := s.rangeEntry part f
    if e.limit < v / 256 || e.reserved || e.kind = 3 then none else some e

/-- A walk (15 R265): none is RANGE_MISS. -/
def State.walk (s : State) (part v : Nat) : Option RangeEntry :=
  match s.walkAny part v with
  | none => none
  | some e => if e.valid then some e else none

def RangeEntry.covers (e : RangeEntry) (v : Nat) : Bool := e.base ≤ v / 256 && v / 256 ≤ e.limit

/-- The cached copy that a walk at this moment makes (15 R268, R269). -/
def State.cachedOf (s : State) (part : Nat) (e : RangeEntry) : Cached :=
  let p := s.partAt part
  { entry := e, parity := p.round, part, tread := s.ptime, expiry := s.ptime + p.leasens.toNat }

/-! ### Translation (15 R266, R269) -/

/-- Sub-extent size U (15 R266). -/
def RangeEntry.sub (e : RangeEntry) : Nat := ((e.size + 63) / 64 + 255) / 256 * 256
/-- Sub-extent of a VA. -/
def RangeEntry.subOf (e : RangeEntry) (v : Nat) : Nat := (v - e.base * 256) / e.sub

/-- The physical address of a VA (15 R269), modulo 2^64. -/
def Cached.pa (c : Cached) (v : Nat) : Nat :=
  (v + c.entry.offset * 256 + (if c.entry.vers && c.parity then 2 ^ c.entry.vsh else 0)) % 2 ^ 64

def RangeEntry.space (e : RangeEntry) : Space :=
  if e.host then .host else if e.remote then .remote
  else match e.kind with | 0 => .coh | 1 => .nc | _ => .ms

/-- What an access needs of an entry (15 R269). -/
inductive Access
  | load | store | atomic | code | probe | flush | flushInv
  deriving DecidableEq, Repr

def Access.allowed (a : Access) (e : RangeEntry) : Bool :=
  match a with
  | .load => e.r
  | .store => e.w
  | .atomic => e.r && e.w && !e.host && !e.remote
  | .code => e.r && e.x
  | .probe => true
  | .flush => true
  | .flushInv => e.w

/-- A PA inside some partition's range table, by whichever window it is named (15 R267). -/
def State.inTable (s : State) (pa : Nat) : Bool :=
  paWin pa ≤ 2 && s.parts.any (fun p =>
    let base := p.2.rtbase.toNat
    let place := hbmPlace pa
    let same := paOf (paWin base) place.1 place.2
    base ≤ same && same < base + 32 * p.2.rtcap.toNat)

/-- Whether a PA is one that the entry may yield (15 R269, 10 R214). -/
def RangeEntry.paOk (e : RangeEntry) (pa : Nat) : Bool :=
  pa < 2 ^ 51 && paWin pa = e.win && paValid pa && (e.host == (paWin pa == 4)) && (e.remote == (paWin pa == 5))

/-- Translation of a VA through an entry: the location, or RANGE_PERM, or RESIDENCY with its sub-extent (08 R162
step 5). -/
def State.throughEntry (s : State) (c : Cached) (a : Access) (super : Bool) (v : Nat) : Except (Cause × Nat) Loc :=
  let pa := c.pa v
  if !a.allowed c.entry || !c.entry.paOk pa || (s.inTable pa && !super) then .error (.rangePerm, 0)
  else if !c.entry.res.getLsbD (c.entry.subOf v) then .error (.residency, c.entry.subOf v)
  else .ok { space := c.entry.space, pa }

/-- A cached entry of a partition that has not expired. -/
def Cached.usable (c : Cached) (part now : Nat) : Bool := c.part = part && c.entry.valid && now < c.expiry

/-- A cached entry that may translate the VA now (15 R268). -/
def lookup (t : List Cached) (part now v : Nat) : Option Cached := t.find? (fun c => c.usable part now && c.entry.covers v)

/-- The entries that translate the pieces of one access: one that covers the whole of it, where there is one; otherwise, for
each piece, that of the piece before where it covers it, so that an access uses one parity in one range (15 R274). -/
def lookups (t : List Cached) (part now : Nat) (prev : Option Cached) : List (Nat × Nat) → List (Nat × Nat × Option Cached)
  | [] => []
  | (v, n) :: r =>
    let last := (r.getLast?.map Prod.fst).getD v
    let whole := t.find? (fun c => c.usable part now && c.entry.covers v && c.entry.covers last)
    let c := whole.or ((prev.filter (fun c => c.entry.covers v)).or (lookup t part now v))
    (v, n, c) :: lookups t part now c r

/-! ### Virtual windows (10 R211, R212; 09 R192; 08 R162 steps 2 and 3) -/

/-- The launch that a context belongs to. -/
def State.launchOf (s : State) (c : Ctx) : Option Launch := (s.fctxAt c.owner).launch

/-- A supervisor task (15 R278): a task of a context bound to the physical function. -/
def State.supervisor (s : State) : Bool :=
  !s.isHandler && !s.isSluice &&
    match (s.fctxAt s.ctx.owner).entry with
    | some e => e.func = 0
    | none => false

/-- The bytes of the scratchpad part of a core: 2 MiB − L (09 R191). -/
def Core.spadSize (k : Core) : Nat := 2 ^ 21 - k.l1gran * 2 ^ 18

/-- What a virtual address names. -/
inductive Target
  /-- A scratchpad byte: core and core offset, and the number of bytes up to the limit. -/
  | spad (core off room : Nat)
  /-- A global VA, and the bytes up to the end of a private window. -/
  | global (va room : Nat)
  | bad (c : Cause)
  deriving DecidableEq, Repr

/-- The window of a VA for the current context (10 R211). -/
def State.resolve (s : State) (va : Word) : Target :=
  let v := va.toNat
  let c := s.ctx
  if 2 ^ 52 ≤ v then .bad .window
  else
    match v / 2 ^ 48 with
    | 15 =>
      let tag := v / 2 ^ 38 % 2 ^ 10
      let off := v % 2 ^ 21
      if v / 2 ^ 21 % 2 ^ 17 ≠ 0 then .bad .window
      else if tag = 0x3FF || (tag = coreNo s.cur.core && !s.isSluice) then
        if s.isSluice then .bad .window
        else if s.isHandler then
          if off < s.core.spadSize then .spad s.cur.core off (s.core.spadSize - off) else .bad .window
        else if off < c.sliceSize then .spad s.cur.core (c.sliceBase + off) (c.sliceSize - off) else .bad .window
      else .bad .spforeign
    | 14 =>
      let tag := v / 2 ^ 40 % 2 ^ 8
      let own := clusterOf s.cur.core
      let member := 8 * own + v / 2 ^ 37 % 8
      let target := coreBase s.cur.core + member
      let off := v % 2 ^ 21
      if v / 2 ^ 21 % 2 ^ 16 ≠ 0 then .bad .window
      else if s.isSluice || !(tag = 0xFF || tag = own) then .bad .clforeign
      else if !((s.launchOf c).map (fun l => l.cores.contains member)).getD false then .bad .clforeign
      else if off < (s.coreAt target).spadSize then .spad target off ((s.coreAt target).spadSize - off)
      else .bad .window
    | 13 =>
      let o := v % 2 ^ 48
      if s.isHandler || s.isSluice || c.privSize ≤ o then .bad .window
      else .global (c.privBase + c.taskid.toNat * ((c.privSize + 4095) / 4096 * 4096) + o) (c.privSize - o)
    | _ => .global v (13 * 2 ^ 48 - v)

/-- `.fe` is allowed on the own scratchpad, by its tag forms or by the own cluster's own member (08 R162). -/
def State.feOk (s : State) (va : Word) : Bool :=
  let v := va.toNat
  if v / 2 ^ 48 = 15 then v / 2 ^ 38 % 2 ^ 10 = 0x3FF || v / 2 ^ 38 % 2 ^ 10 = coreNo s.cur.core
  else v / 2 ^ 48 = 14 && (v / 2 ^ 40 % 2 ^ 8 = 0xFF || v / 2 ^ 40 % 2 ^ 8 = clusterOf s.cur.core)
    && v / 2 ^ 37 % 8 = s.cur.core % 8

/-- The answer of an address check: the pieces of the access with their lengths, a walk that the core must wait
for, or a trap. -/
inductive Addressed
  | ok (pieces : List (Loc × Nat))
  | walk (va : Nat)
  /-- The translation waits for a RINV of the task (15 R281). -/
  | wait
  | trap (t : TrapInfo)
  deriving DecidableEq, Repr

/-- The pieces of n bytes from a: one per 32-byte sector. -/
def pieces (a : Nat) : Nat → Nat → List (Nat × Nat)
  | 0, _ => []
  | _ + 1, 0 => []
  | fuel + 1, n => let k := min n (32 - a % 32); (a, k) :: pieces (a + k) fuel (n - k)

/-- The VAs of the context's RINVs that have not performed and precede program place id, or all of them (15 R281). -/
def Ctx.rinvs (c : Ctx) (id : Option Nat := none) : List Nat :=
  c.stq.filterMap (fun e => match e.op with | .rinv v => if id.all (fun n => e.id < n) then some v else none | _ => none)

/-- Two pieces in one range of the table, through copies of different parity: the later one misses (15 R274). -/
def State.mixes (s : State) (part : Nat) (prev : Option (Nat × Cached)) (v : Nat) (c : Cached) : Bool :=
  match prev with
  | none => false
  | some (w, p) => p.entry.vers && c.entry.vers && p.parity != c.parity && ((s.walk part v).map (fun e => e.covers w)).getD false

/-- Translation of the pieces of an access through the cached entries found for them; `shown` is the VA that TRAPVA shows for
the first byte (10 R212), and `held` the VAs of the RINVs that hold the access back. -/
def State.through (s : State) (a : Access) (part : Nat) (super : Bool) (miss : Option Nat) (held : List Nat) (base shown : Nat)
    (prev : Option (Nat × Cached)) : List (Nat × Nat × Option Cached) → Addressed
  | [] => .ok []
  | (v, _, none) :: _ => if miss = some (v / 32) then .trap { cause := .rangeMiss, va := shown + (v - base) } else .walk v
  | (v, n, some c) :: r =>
    if held.any c.entry.covers then .wait
    else if s.mixes part prev v c then .walk v
    else
      match s.throughEntry c a super v with
      | .error (cause, aux) => .trap { cause, aux, va := shown + (v - base) }
      | .ok l =>
        match s.through a part super miss held base shown (some (v, c)) r with
        | .ok ls => .ok ((l, n) :: ls)
        | .walk w => .walk w
        | .wait => .wait
        | .trap t => .trap t

/-- Translation of global pieces through a table of cached entries. -/
def State.translate (s : State) (table : List Cached) (a : Access) (part : Nat) (super : Bool) (miss : Option Nat) (held : List Nat)
    (base shown : Nat) (ps : List (Nat × Nat)) : Addressed :=
  s.through a part super miss held base shown none (lookups table part s.ptime none ps)

/-- The checks of 08 R162 from step 2 on for an access of n bytes at va with the given alignment, by the
current context, through the core's RTLB. -/
def State.address (s : State) (va : Word) (n align : Nat) (a : Access) (fe : Bool) : Addressed :=
  let v := va.toNat
  let tv (x : Nat) : Nat := x % 2 ^ 52
  match s.resolve va with
  | .bad .window => .trap { cause := .window, va := tv v }
  | t =>
    if fe && !s.feOk va then .trap { cause := .window, va := tv v }
    else
      match t with
      | .bad c => .trap { cause := c, va := tv v }
      | .spad core off room =>
        if room < n then .trap { cause := .window, va := tv (v + room) }
        else if v % align ≠ 0 || (fe && 128 < v % 128 + n) then .trap { cause := .align, va := tv v }
        else .ok ((pieces off n n).map (fun p => ({ space := .spad, pa := core * 2 ^ 21 + p.1 }, p.2)))
      | .global g room =>
        if room < n then .trap { cause := .window, va := tv (v + room) }
        else if v % align ≠ 0 then .trap { cause := .align, va := tv v }
        else s.translate s.core.rtlb a (partOfKey s.ctx.owner) s.supervisor s.core.missVa s.ctx.rinvs g v (pieces g n n)

/-- The extents of the cached entries of a table that an access of n bytes at va goes through. -/
def State.viaIn (s : State) (table : List Cached) (va : Word) (n : Nat) : List (Nat × Nat × Bool) :=
  match s.resolve va with
  | .global g _ =>
    ((lookups table (partOfKey s.ctx.owner) s.ptime none (pieces g n n)).filterMap (fun x => x.2.2)).foldl
      (fun l c => let x := (c.entry.base, c.entry.limit, c.entry.vers); if l.contains x then l else l ++ [x]) []
  | .spad _ _ _ => []
  | .bad _ => []

def State.viaOf (s : State) (va : Word) (n : Nat) : List (Nat × Nat × Bool) := s.viaIn s.core.rtlb va n

end Sys2Proof.Machine
end

