-- ==== Sys2Proof/Machine/Footprints.lean ====
section
/-! DEFINITION. Pointers, groups and the declared footprints of engine jobs, with what they hold back (08 R174 to R176, R187;
12 R233). -/

namespace Sys2Proof.Machine

/-! ### Pointers and groups -/

/-- A pointer's window, with malformed pointers apart. -/
inductive Pointer
  | global | private_
  | cluster (tag member off : Nat)
  | spad (tag off : Nat)
  | malformed
  deriving DecidableEq, Repr

def pointerOf (v : Nat) : Pointer :=
  if 2 ^ 52 ≤ v then .malformed
  else if v / 2 ^ 48 = 15 then
    if v / 2 ^ 21 % 2 ^ 17 = 0 then .spad (v / 2 ^ 38 % 1024) (v % 2 ^ 21) else .malformed
  else if v / 2 ^ 48 = 14 then
    if v / 2 ^ 21 % 2 ^ 16 = 0 then .cluster (v / 2 ^ 40 % 256) (v / 2 ^ 37 % 8) (v % 2 ^ 21) else .malformed
  else if v / 2 ^ 48 = 13 then .private_
  else .global

/-- Member tasks of a group of a launch. -/
def Launch.members (l : Launch) (g : Nat) : Option (List Nat) :=
  match l.groups[g]? with
  | some x => if x.valid then some x.members else none
  | none => none

/-- Whether a job has ended FAULTED; every other job that a context holds has not ended. -/
def Job.ended (j : Job) : Bool := j.st = .faulted

/-! ### Footprints (08 R174, R176) -/

/-- A canonical number of the byte that a VA names for the current context; bytes that no window gives are apart. -/
def State.canon (s : State) (v : Nat) : Nat :=
  match s.resolve (BitVec.ofNat 64 v) with
  | .spad core off _ => 2 ^ 61 + core * 2 ^ 21 + off
  | .global g _ => g
  | .bad _ => 2 ^ 70

/-- A region word: validity, write, first byte and length (08 R174). -/
structure Region where
  v : Bool
  w : Bool
  base : Nat
  len : Nat
  e : Nat
  deriving DecidableEq, Repr

def parseRegion (x : Word) : Region :=
  let e := x.toNat / 2 ^ 52 % 64
  { v := x.getLsbD 63, w := x.getLsbD 62, base := x.toNat % 2 ^ 52, len := (16 + x.toNat / 2 ^ 58 % 16) * 2 ^ e, e }

/-- Region word i of a card. -/
def cardRegion (card : BitVec 512) (i : Nat) : Region := parseRegion (card.extractLsb' (64 * i) 64)

def overlaps (a b : Nat × Nat) : Bool := a.1 < b.1 + b.2 && b.1 < a.1 + a.2

def cardBits (c : BitVec 512) (lo n : Nat) : Nat := (c.extractLsb' lo n).toNat

/-- The used counts, COUNT1 first. -/
def cardCounts (c : BitVec 512) : List Nat := ((List.range 6).map (fun i => cardBits c (256 + 16 * i) 16)).takeWhile (fun n => n ≠ 0)
/-- STRIDE<l> × 2^SSH of level l from 2 up. -/
def cardStep (c : BitVec 512) (l : Nat) : Int := (c.extractLsb' (352 + 16 * (l - 2)) 16).toInt * ((2 ^ cardBits c 432 5 : Nat) : Int)
def cardKflags (c : BitVec 512) : Nat := cardBits c 440 8
def cardEsz (c : BitVec 512) : Nat := 2 ^ cardBits c 448 2
def cardSem (c : BitVec 512) : Nat := cardBits c 450 4
def cardSemv (c : BitVec 512) : Bool := c.getLsbD 454
def cardTarget (c : BitVec 512) : Nat := cardBits c 455 10
def cardHidx (c : BitVec 512) : Nat := cardBits c 465 4
def cardHv (c : BitVec 512) : Bool := c.getLsbD 469
def cardPhv (c : BitVec 512) : Bool := c.getLsbD 470
def cardFedst (c : BitVec 512) : Bool := c.getLsbD 471
def cardWord (c : BitVec 512) : Nat := cardBits c 480 32

/-- Elements of the shape (08 R175). -/
def cardElems (c : BitVec 512) : Nat := (cardCounts c).foldl (fun a n => a * n) 1
def cardTotal (c : BitVec 512) : Nat := cardElems c * cardEsz c

/-- MC of a PUT; SLX multicasts as well (08 R175). -/
def Job.multicast (j : Job) : Bool :=
  match j.kind with
  | .put => cardKflags j.card / 128 = 1
  | .slx => true
  | .copy => false
  | .get => false
  | .gather => false
  | .scatter => false
  | .scadd => false
  | .awr => false

def State.inLaunch (s : State) (core : Nat) : Bool := ((s.launchOf s.ctx).map (fun l => l.cores.contains core)).getD false

/-- What a VA of a job names: a scratchpad window that names another core of the launch reaches it (08 R175). -/
def State.jobResolve (s : State) (va : Word) : Target :=
  match pointerOf va.toNat with
  | .spad tag off =>
    if tag = 0x3FF || tag = coreNo s.cur.core then s.resolve va
    else if !s.inLaunch tag then .bad .spforeign
    else
      let t := coreBase s.cur.core + tag
      if off < (s.coreAt t).spadSize then .spad t off ((s.coreAt t).spadSize - off) else .bad .window
  | _ => s.resolve va

/-- The canonical number of a job's byte, as `canon` numbers the bytes of the context's own accesses. -/
def State.jobCanon (s : State) (v : Nat) : Nat :=
  match s.jobResolve (BitVec.ofNat 64 v) with
  | .spad core off _ => 2 ^ 61 + core * 2 ^ 21 + off
  | .global g _ => g
  | .bad _ => 2 ^ 70

/-- Whether FP1 of a card names a place in each member's slice, which has no address of the issuer's. -/
def memberRegion (k : JobKind) (c : BitVec 512) (i : Nat) : Bool :=
  i = 1 && (k = .slx || (k = .put && cardKflags c / 128 = 1))

/-- First byte and length of each declared footprint of one direction, as addresses. -/
def cardFootprints (k : JobKind) (c : BitVec 512) (w : Bool) : List (Nat × Nat) :=
  ((List.range 4).filter (fun i => !(k = .awr && i = 1) && !memberRegion k c i)).filterMap (fun i =>
    let r := cardRegion c i
    if r.v && r.w = w then some (r.base, r.len) else none)

/-- The member tasks of a multicast; a job with one destination has the one member 0. -/
def State.jobTargets (s : State) (j : Job) : List Nat :=
  if j.multicast then ((s.launchOf s.ctx).bind (fun l => l.members (cardTarget j.card))).getD [] else [0]

/-- A multicast's member as it stands: delivered to at a context, not yet resident, or gone (12 R233). -/
inductive MemberAt
  | here (key : Nat) | held | gone
  deriving DecidableEq, Repr

def State.memberAt (s : State) (task : Nat) : MemberAt :=
  match s.launchOf s.ctx with
  | none => .gone
  | some l =>
    match sget .waiting l.tasks task with
    | .resident c k => .here (ctxKey (coreBase s.cur.core + c) k)
    | .waiting => .held
    | .retired _ _ => .gone
    | .skipped => .gone

/-- The bytes of FP1 in the slice of a member context, none of them beyond the slice, as canonical numbers (12 R233). -/
def memberFp (core : Nat) (c : Ctx) (r : Region) : Nat × Nat :=
  let o := r.base % 2 ^ 21
  (2 ^ 61 + core * 2 ^ 21 + c.sliceBase + o, min r.len (c.sliceSize - o))

/-- Canonical footprints of a job for the edges between it and its issuer. A multicast into the issuer's own slice names it
(12 R233). -/
def State.jobFps (s : State) (j : Job) (w : Bool) : List (Nat × Nat) :=
  let l := (cardFootprints j.kind j.card w).map (fun f => (s.jobCanon f.1, f.2))
  if w && j.kind = .put && j.multicast && (s.jobTargets j).contains s.ctx.taskid.toNat && !s.isHandler then
    memberFp s.cur.core s.ctx (cardRegion j.card 1) :: l
  else l

/-- Footprints of a job for the edges between two jobs: a multicast writes the slice of every member, which is named by the
member's task, and by its place as well once it is resident (08 R176, 12 R233). -/
def State.jobSpans (s : State) (j : Job) (w : Bool) : List (Nat × Nat) :=
  let l := (cardFootprints j.kind j.card w).map (fun f => (s.jobCanon f.1, f.2))
  if w && j.multicast then
    let r := cardRegion j.card 1
    let o := r.base % 2 ^ 21
    l ++ (s.jobTargets j).flatMap (fun t =>
      (2 ^ 62 + t * 2 ^ 21 + o, min r.len (2 ^ 21 - o)) ::
        (match s.memberAt t with
         | .here k => [memberFp (k / 8) (s.ctxAt k) r]
         | .held => []
         | .gone => []))
  else l

/-- The bytes of an access of a queue entry. -/
def QEntry.bytes (e : QEntry) : Nat := e.locs.foldl (fun n l => n + l.2) 0

/-- The bytes of an entry, as first VAs and lengths: 512 bytes per row of an MMLD or MMST. -/
def QEntry.spans (e : QEntry) : List (Nat × Nat) := if e.rows.isEmpty then [(e.va, e.bytes)] else e.rows.map (fun v => (v, 512))

/-- A job of the context issued before program place id has not completed, and its write footprint overlaps the bytes
(08 R176). -/
def State.fpHolds (s : State) (id : Nat) (spans : List (Nat × Nat)) : Bool :=
  s.ctx.jobs.any (fun j => !j.2.ended && j.2.seq < id &&
    (s.jobFps j.2 true).any (fun f => spans.any (fun x => overlaps f (s.canon x.1, x.2))))

/-- A job issued before the entry holds it. -/
def State.fpBlocks (s : State) (e : QEntry) : Bool := s.fpHolds e.id e.spans

/-! ### Scratchpad reads at the issue (08 R166, R173; 05 R100; 10 R218) -/

/-- The bank of a scratchpad byte is gated and must wake first (10 R218). -/
def State.bankGated (s : State) (l : Loc) : Bool :=
  l.space = .spad && (s.coreAt (l.pa / 2 ^ 21)).gated.getLsbD (l.pa % 2 ^ 21 / 2 ^ 18)

/-- A scratchpad access at the issue finds one of its banks gated: the core is frozen until it has woken (10 R218). -/
def State.asleep (s : State) (a : Addressed) : Bool :=
  match a with
  | .ok ps => ps.any (fun p => s.bankGated p.1)
  | .walk _ => false
  | .wait => false
  | .trap _ => false

/-- The number of the entry k that slot n of the issuing bundle takes: program order of one context. -/
def Ctx.entryId (c : Ctx) (n k : Nat) : Nat := (c.issued * 8 + n) * 256 + k

/-- A load that reads at its issue waits for every earlier load-queue entry, for the jobs that write its bytes, for the jobs
that earlier ENGWAITs await, and for its bank (08 R166, R176; 10 R218, R226). -/
def State.readHeld (s : State) (id va n : Nat) (a : Addressed) : Bool :=
  !s.ctx.ldq.isEmpty || s.fpHolds id [(va, n)] || !s.ctx.engwaits.isEmpty || s.asleep a

end Sys2Proof.Machine
end

