-- ==== Sys2Proof/Machine/Records.lean ====
section
/-! DEFINITION. Error records and logs (21 R347 to R349), memory reached through a partition's ranges by an agent
outside the cores, MSI-X vectors, and the issuer's asynchronous flags (19 R332). -/

namespace Sys2Proof.Machine

/-! ### Memory through a partition's ranges, translated afresh -/

/-- Translation by the fontanier, a walker or the host at this moment. -/
def State.transNow (s : State) (part : Nat) (a : Access) (v : Nat) : Except (Cause × Nat) Loc :=
  match s.walk part v with
  | none => .error (.rangeMiss, 0)
  | some e => s.throughEntry (s.cachedOf part e) a false v

/-- n bytes at a global VA, read sector by sector; the first failing sector's cause and VA. -/
def State.readVa (s : State) (part : Nat) (a : Access) : List (Nat × Nat) → Except (Cause × Nat) (List PByte)
  | [] => .ok []
  | (v, n) :: r =>
    match s.transNow part a v with
    | .error (c, _) => .error (c, v)
    | .ok l =>
      match s.readVa part a r with
      | .ok b => .ok (s.rdLoc l n ++ b)
      | .error e => .error e

/-- The locations of n bytes at a global VA. -/
def State.locsVa (s : State) (part : Nat) (a : Access) : List (Nat × Nat) → Except (Cause × Nat) (List (Loc × Nat))
  | [] => .ok []
  | (v, n) :: r =>
    match s.transNow part a v with
    | .error (c, _) => .error (c, v)
    | .ok l =>
      match s.locsVa part a r with
      | .ok b => .ok ((l, n) :: b)
      | .error e => .error e

/-- What an agent outside the cores waits for before it reads or writes somewhere: nothing, or a line that L2 does not hold and
must be asked for, with the VA of the access where it has one, or something that passes by itself. -/
inductive Wait
  | ready | fill (line : Nat) (va : Option Nat) | hold
  deriving DecidableEq, Repr

/-- The wait for one place, whose line must be in L2 and not busy, and the host link up. -/
def State.locWait (s : State) (l : Loc) (va : Option Nat := none) : Wait :=
  let l := s.redirect l
  if s.locBusy l then .hold
  else match l.space with
    | .coh => if s.inL2 l.pa then .ready else .fill (l.pa / 256) va
    | .nc => if s.inL2 l.pa then .ready else .fill (l.pa / 256) va
    | .ms => if s.inL2 l.pa then .ready else .fill (l.pa / 256) va
    | .spad => .ready
    | .host => .ready
    | .remote => .ready

/-- The first wait of some. -/
def firstWait : List Wait → Wait
  | [] => .ready
  | w :: r => match w with | .ready => firstWait r | .fill l v => .fill l v | .hold => .hold

/-- The wait for some bytes at global VAs: for the table lines of each walk, and then for the place. -/
def State.vaWait (s : State) (part : Nat) (a : Access) (ps : List (Nat × Nat)) : Wait :=
  firstWait (ps.map (fun p =>
    match s.walkLacks part p.1 with
    | some l => .fill l none
    | none => match s.transNow part a p.1 with | .ok l => s.locWait l (some p.1) | .error _ => .ready))

/-- Write bytes at a global VA where all of it translates; none otherwise. -/
def State.writeVa (s : State) (part v : Nat) (b : List Byte) : Option State :=
  match s.locsVa part .store (pieces v b.length b.length) with
  | .ok ps => some (s.wrPieces ps (clean b))
  | .error _ => none

/-! ### Error records -/

/-- The fields of a record of any kind other than 0x10 (21 R348, R349). -/
structure ErrRec where
  kind : Nat
  cls : Nat := 0
  cause : Nat := 0
  flags : Nat := 0
  source : Nat := 0
  ctxid : Nat := 0xFFFF
  pa : Nat := 0
  va : Nat := 0
  sectors : Nat := 0
  symbol : Nat := 0
  pch : Nat := 0
  row : Nat := 0
  taskid : Nat := 0
  reg : Nat := 0
  slot : Nat := 0
  pc : Nat := 0
  /-- The physical core, as its three bytes. -/
  phys : List Byte := [0xFF, 0xFF, 0xFF]

/-- Bytes 0 to 47 of a record. -/
def ErrRec.body (r : ErrRec) : List Byte :=
  leBytes r.kind 1 ++ leBytes r.cls 1 ++ leBytes r.cause 1 ++ leBytes r.flags 1 ++ leBytes r.source 2 ++ leBytes r.ctxid 2
    ++ leBytes r.pa 8 ++ leBytes r.va 8 ++ leBytes r.sectors 1 ++ leBytes r.symbol 1 ++ leBytes r.pch 2 ++ leBytes r.row 4
    ++ leBytes r.taskid 4 ++ leBytes r.reg 1 ++ leBytes r.slot 1 ++ leBytes 0 2 ++ leBytes r.pc 8

/-- The physical core of a logical core: die, cluster in the die, core in the cluster; a moved core is its
cluster's spare, number 8 (00 R2, 19 R336; log 9). -/
def State.phys (s : State) (core : Nat) : List Byte :=
  let n := coreNo core
  leBytes (n / 144) 1 ++ leBytes (n / 8 % 18) 1 ++ leBytes (sget (n % 8) s.dev.coremap n) 1

/-- The ring holds ELSIZE records that software has not read: ELHEAD and ELTAIL count on through 16 bits, and name entries
modulo ELSIZE (21 R347; log 10). -/
def ErrLog.isFull (l : ErrLog) : Bool := l.size.toNat ≤ (l.tail - l.head).toNat

/-- The log of a partition, or of the device. -/
def State.logOf (s : State) : Option Nat → ErrLog
  | some p => (s.partAt p).log
  | none => s.dev.log

def State.setLog (s : State) (k : Option Nat) (l : ErrLog) : State :=
  match k with
  | some p => s.modPart p (fun q => { q with log := l })
  | none => { s with dev := { s.dev with log := l } }

/-- VA of the next entry of a log's ring. -/
def ErrLog.place (l : ErrLog) : Nat := l.base.toNat + 64 * (l.tail.toNat % l.size.toNat)

/-- One record of 64 bytes is written whole into a log's ring, and then ELTAIL advances; a record that finds the
ring full, or whose place does not translate, is dropped and counted (21 R347). -/
def State.writeLog (s : State) (w : LogWrite) : State :=
  let l := s.logOf w.log
  let rec64 := w.body ++ leBytes w.time 8 ++ leBytes l.seq.toNat 4 ++ leBytes w.part 1 ++ w.phys
  let dropped : State := s.setLog w.log { l with seq := l.seq + 1, drop := satInc l.drop }
  if l.isFull then dropped
  else
    match s.writeVa (w.log.getD 0) l.place rec64 with
    | none => dropped
    | some s => s.setLog w.log { l with seq := l.seq + 1, tail := l.tail + 1 }

/-- The ring's next entry is host memory while the link is down (23 R360). -/
def State.logWaits (s : State) (k : Option Nat) : Bool :=
  !s.dev.pcieUp && match s.locsVa (k.getD 0) .store (pieces (s.logOf k).place 64 64) with
    | .ok ps => ps.any (fun p => p.1.space = .host)
    | .error _ => false

/-- A record goes to a log, in the order in which the log's records are made. -/
def State.logInto (s : State) (w : LogWrite) : State :=
  if s.dev.logq.any (fun x => x.log = w.log) || s.logWaits w.log then { s with dev := { s.dev with logq := s.dev.logq ++ [w] } }
  else s.writeLog w

/-- The records that have waited for the host link are written. -/
def State.flushLogs (s : State) : State :=
  s.dev.logq.foldl State.writeLog { s with dev := { s.dev with logq := [] } }

/-- A record attributed to a partition goes to its log with a copy to the device log; any other goes to the
device log only (21 R347). -/
def State.recordRaw (s : State) (part : Option Nat) (body phys : List Byte) : State :=
  let w : LogWrite := { log := none, part := part.getD 0xFF, body, phys, time := s.ptime }
  (if part.isSome then s.logInto { w with log := part } else s).logInto w

def State.record (s : State) (part : Option Nat) (r : ErrRec) : State := s.recordRaw part r.body r.phys

/-- CTXID of a fontanier context (02 R31): entry in <10:5>, partition in <4:0>. -/
def ctxidOf (k : Nat) : Nat := entryOfKey k * 32 + partOfKey k

/-- MSI-X vector n of a context's function is raised (14 R248, 19 R331). -/
def State.msix (s : State) (k n : Nat) : State :=
  if s.dev.pcieUp then s.modFctx k (fun f => { f with msix := f.msix ++ [n] })
  else { s with dev := { s.dev with intwait := s.dev.intwait ++ [(k, n)] } }

/-- Flags raised by a context's engine work go to its ASYNCF (19 R332). -/
def Ctx.async (c : Ctx) (f : BitVec 5) (poison : Bool) : Ctx :=
  { c with asyncf := c.asyncf ||| f.setWidth 6 ||| (if poison then 32 else 0) }

end Sys2Proof.Machine
end

