-- ==== Sys2Proof/Machine/Ops.lean ====
section
/-! DEFINITION. The shared operations of a slot instruction: the checks before it issues, taking a trap (19 R325 to
R331), returning from one (19 R329), and the cycles of a core. -/

namespace Sys2Proof.Machine

/-! ### Core cycles (02 R33) -/

/-- The core uses a cycle in which nothing advances. -/
def State.frozenCycle (s : State) : State := s.modCore (fun k => { k with busy := s.now + 4 })

/-- The core uses an advancing cycle of its running context. -/
def State.advance (s : State) : State :=
  (s.modCtx (fun c => { c with adv := c.adv + 1 })).modCore (fun k => { k with busy := s.now + 4 })

/-- A frozen cycle that asks the die's walker for a VA (15 R270). A miss that is already asked for is not asked again. -/
def State.walkCycle (s : State) (va : Nat) : State :=
  let s := s.frozenCycle
  if s.core.walk.isSome then s
  else
    (s.modCore (fun k => { k with walk := some va, missVa := none })).modDie (dieOf s.cur.core)
      (fun d => { d with walks := d.walks ++ [{ core := s.cur.core, va, part := partOfKey s.ctx.owner }] })

/-! ### Taking a trap -/

/-- Address of the header of bundle i of the context's segment. -/
def State.bundleVa (s : State) (i : Nat) : Nat :=
  let c := s.ctx
  c.hdr.va + 64 + (match c.body[i]? with | some b => b.off | none => 0)

/-- TRAPCAUSE, TRAPVA, TRAPPC and TRAPSLOT (02 R31). -/
def Ctx.setTrap (c : Ctx) (t : TrapInfo) (pc : Nat) : Ctx :=
  { c with
    trapcause := BitVec.ofNat 19 (t.cause.code.toNat + t.aux % 1024 * 256 + (if t.deferred then 2 ^ 18 else 0)),
    trapva := BitVec.ofNat 52 t.va, trappc := BitVec.ofNat 52 pc,
    trapslot := match t.slot with | some n => BitVec.ofNat 4 (8 + n) | none => 0 }

/-- Results in flight become shadow latches: a result readable from cycle d > t is held with r = d − t, t being
the advancing cycle in which the trapped bundle would have issued (19 R326). -/
def Ctx.latch (c : Ctx) : List Landing := c.pend.map (fun x => { x with due := x.due - c.adv })

/-- The context ends its segment at the boundary and enters trap mode (19 R328). -/
def Ctx.enterTrap (c : Ctx) (cause : Cause) (seg : Nat) : Ctx :=
  { c with
    frame := some { pc := c.pc, after := cause = .trapSw, hdr := c.hdr, loop := c.loop, act := c.act, sel := c.sel,
                    depth := c.retstack.length, latches := c.latch, body := c.body, segStart := c.segStart, nexted := c.nexted },
    pend := [], loop := .inactive, act := .none, sel := false, nexted := false, hold := 0, bend := false, branch := none,
    phase := .pending seg }

/-- The context is parked with its results in flight latched (19 R330, R331). -/
def Ctx.park (c : Ctx) : Ctx :=
  { c with latches := c.latch, pend := [], hold := 0, bend := false, branch := none, phase := .parked }

/-- TRAPSEG of the launch, when the context may use it: no launch names one for a sluice (09 R209). -/
def State.trapSeg (s : State) : Nat :=
  if s.isSluice then 0
  else match s.launchOf s.ctx with
    | some l => l.par.trapseg
    | none => 0

/-- The VA an error record holds: of a range fault in the private window, the global VA it resolves to (10 R212). -/
def State.recordVa (s : State) (t : TrapInfo) : Nat :=
  if [0x10, 0x11, 0x12].contains t.cause.code.toNat || t.cause = .copyFault && [0x10, 0x11, 0x12].contains t.aux then
    match s.resolve (BitVec.ofNat 64 t.va) with
    | .global va _ => va
    | _ => t.va
  else t.va

/-- The causes whose TRAPVA is an address, whatever it is (19 R324; 22 R358). -/
def TrapInfo.showsVa (t : TrapInfo) : Bool :=
  let c := t.cause.code.toNat
  c = 7 || c = 8 || (0x10 ≤ c && c ≤ 0x16) || (c = 0x20 && t.deferred) || c = 0x30 || c = 0x32 || c = 0x41 || t.va ≠ 0

/-- The error record of a trap in the current context. -/
def State.trapRecord (s : State) (kind : Nat) (t : TrapInfo) (pc : Nat) : ErrRec :=
  { kind, cause := t.cause.code.toNat,
    flags := (if t.deferred then 2 else 1) + (if t.showsVa then 4 else 0) + (if t.pa.isSome then 8 else 0) + (if t.reg.isSome then 16 else 0),
    source := if s.isSluice then 0x5000 else coreNo s.cur.core, ctxid := ctxidOf s.ctx.owner, va := s.recordVa t, pa := t.pa.getD 0,
    taskid := if s.isHandler || s.isSluice then 0 else s.ctx.taskid.toNat,
    reg := t.reg.getD 0, slot := match t.slot with | some n => 8 + n | none => 0,
    pc := if t.deferred then 0 else pc, phys := if s.isSluice then [0xFF, 0xFF, 0xFF] else s.phys s.cur.core }

/-- The core's sequencer makes its selection at once: the context runs no longer (19 R325). -/
def Core.release (k : Core) (slot : Nat) : Core := if k.running = some slot then { k with running := none } else k

/-- Delivery of a trap to the current context at the boundary before the bundle at address pc (19 R325, R326): the
saved registers, then trap mode, or a park where no TRAPSEG is named or the context is in trap mode already. -/
def State.deliver (s : State) (t : TrapInfo) (pc : Nat) : State :=
  let part := partOfKey s.ctx.owner
  let s := if t.cause = .poisonConsume then s.record (some part) (s.trapRecord 0x02 t pc) else s
  let seg := s.trapSeg
  let s := s.modCtx (fun c => c.setTrap t pc)
  -- the next access that misses is walked again (15 R268)
  let s := s.modCore (fun k => { k.release s.cur.slot with missVa := if t.cause = .rangeMiss then none else k.missVa })
  if s.ctx.frame.isNone && seg ≠ 0 then s.modCtx (fun c => c.enterTrap t.cause seg)
  else
    let s := s.modCtx Ctx.park
    (s.record (some part) (s.trapRecord 0x01 t pc)).msix s.ctx.owner 0

/-- A trap at the bundle that would issue next. -/
def State.trapHere (s : State) (t : TrapInfo) : State := s.deliver t (s.bundleVa s.ctx.pc)

/-! ### Trap return (19 R329, R327) -/

/-- The frame is restored and trap mode ends; the latched results are re-delivered relative to the cycle in which
the resumed bundle issues. -/
def Ctx.trapReturn (c : Ctx) : Ctx :=
  match c.frame with
  | none => c
  | some f =>
    { c with
      frame := none, hdr := f.hdr, pc := f.pc, loop := f.loop, act := f.act, sel := f.sel, body := f.body, segStart := f.segStart, nexted := f.nexted,
      pend := f.latches.map (fun x => { x with due := x.due + c.adv }), latches := [],
      bend := f.after, hold := 0, branch := none, phase := .resuming }

/-! ### Watchpoints (19 R335) -/

/-- The watchpoint that an access of n bytes at va hits: the lowest number of those that match, with its lowest
matching byte. -/
def State.watchHit (s : State) (load store : Bool) (va n : Nat) : Option TrapInfo :=
  let p := s.partAt (partOfKey s.ctx.owner)
  if s.isSluice then none
  else
    (List.range 4).findSome? (fun k =>
      let w := sget 0 p.wctl k
      let lo := (sget 0 p.wbase k).toNat
      let hi := w.toNat % 2 ^ 52
      let kind := w.toNat / 2 ^ 62
      let kinds := (load && kind % 2 = 1) || (store && 2 ≤ kind)
      let first := max lo va
      if kinds && first ≤ hi && first < va + n then some { cause := .watch, aux := k, va := first } else none)

/-- The address checks of 08 R162 and then the watchpoints, which come after every one of them. -/
def State.accessCheck (s : State) (va : Word) (n align : Nat) (a : Access) (fe load store : Bool) : Addressed :=
  match s.address va n align a fe with
  | .ok ps =>
    match s.watchHit load store va.toNat n with
    | some t => .trap t
    | none => .ok ps
  | .walk v => .walk v
  | .wait => .wait
  | .trap t => .trap t

/-! ### A slot instruction -/

/-- The static checks of a slot in the order of 03 R60. -/
def staticOf (i : Instr) (m : SlotSem) (s : State) : Option Cause := ((m.first s).or i.check).or (m.stat s)

/-- The operand and run-time checks of a slot whose static checks pass (03 R61). A slot whose guard is false tests
nothing else; a poisoned guard is consumed (02 R28, 05 R86). -/
def SlotSem.verdict (m : SlotSem) (s : State) : Verdict :=
  let c := s.ctx
  let poisoned : Verdict := .trap { cause := .poisonConsume, reg := (m.guard.map (fun g => 0xC0 + g.pg.toNat)) }
  if !c.holds m.guard then (if c.guardPoisoned m.guard then poisoned else .go)
  else if c.trapsEmpty m.srcs then .trap { cause := .feEmpty }
  else if c.blocks m.srcs m.dsts then .freeze
  else if c.guardPoisoned m.guard then poisoned
  else
    match m.run s with
    | .go => if c.room m.need && c.jobRoom m.jobs then .go else .freeze
    | v => v

/-- The effect of a slot that issues: none where its guard is false (03 R61). -/
def SlotSem.apply (m : SlotSem) (s : State) : State := if s.ctx.holds m.guard then m.eff s else s

/-- A slot instruction of the current context: its checks, and then its effect. In a bundle whose checks have all
passed (`cur.go`) only the effect remains. -/
def runSlot (i : Instr) (m : SlotSem) (s : State) : Host.Outcome State Fault Refusal :=
  if s.cur.go then .next (m.apply s)
  else
    match staticOf i m s with
    | some cause => .next (s.trapHere { cause, slot := some s.cur.bslot })
    | none =>
      match m.verdict s with
      | .go => .next (m.apply s)
      | .freeze => .next s.frozenCycle
      | .walk va => .next (s.walkCycle va)
      | .trap t => .next (s.trapHere { t with slot := some s.cur.bslot })

end Sys2Proof.Machine
end

