-- ==== Sys2Proof/Machine/Control.lean ====
section
/-! DEFINITION. Control flow and state-register instructions (05 R97 to R107), and the end of a bundle: its HOLD
cycles, its branch and the passes of loops and nests (03 R42, R43; 05 R98, R100, R101). -/

namespace Sys2Proof.Machine

/-! ### The running bundle -/

/-- The bundle that issues next, or whose end has not been processed. -/
def State.bundle (s : State) : Option RawBundle := s.ctx.body[s.ctx.pc]?

/-- Header bits of a bundle (03 R40). -/
def hdrHold (h : BitVec 16) : Nat := (h.extractLsb' 8 3).toNat
def hdrSafe (h : BitVec 16) : Bool := h.getLsbD 11
def hdrLast (h : BitVec 16) : Bool := h.getLsbD 12

/-- The walkers advance in slot order (08 R163). Of two advances of one walker that of M1 is written, and M0 loses its own
(02 R37). -/
def Ctx.applyAdvances (c : Ctx) : List (BitVec 3 × Nat) → Ctx
  | [] => c
  | (w, l) :: r =>
    if r.any (fun e => e.1 = w) then Ctx.applyAdvances { c with wcol := setBit c.wcol 6 true } r
    else (c.setWreg w ((c.wreg w).advance l)).applyAdvances r

/-- A read of UNDC clears it (02 R31), once every slot of the bundle has read (R34). -/
def Ctx.clearUndc (c : Ctx) : Ctx := if c.undcRead then { c with undc := 0, undcSat := false, undcRead := false } else c

/-- What an issued bundle does once all its slots have read their sources: walkers advance (08 R163), destinations
of variable-latency producers are marked empty (02 R34), a read of UNDC clears it, and the issue cycle passes. A walker that
advances and is loaded by a WSET of the same bundle is marked empty after its advance, without a WCOL bit: DESIGN CHOICE,
log 51. -/
def Ctx.finish (c : Ctx) (hold : Nat) : Ctx :=
  let c := c.clearUndc.applyAdvances c.advances
  let c := c.marks.foldl Ctx.markEmpty c
  { c with advances := [], marks := [], brb := c.brbNext.getD c.brb, brbNext := none, issued := c.issued + 1, hold, bend := true, adv := c.adv + 1 }

/-- The issue cycle of a bundle with header h ends; the segment's time runs from the issue of its first bundle (09 R198). -/
def State.finishIssue (s : State) (h : BitVec 16) : State :=
  (s.modCtx (fun c => { c.finish (hdrHold h) with segStart := c.segStart.or (some s.cycles) })).modCore (fun k => { k with busy := max k.busy (s.now + 4) })

/-! ### The end of a bundle -/

/-- A nest's pass end (05 R100): the counters after it and the level that stepped, none when the nest is complete. -/
def nestStep (c : Ctx) (lims : List Nat) (l : Nat) : List Nat → Ctx × Option Nat
  | [] => (c, none)
  | lim :: rest =>
    let n := (c.nreg l).v.toNat
    if n = lim - 1 then nestStep (c.setNreg l {}) lims (l + 1) rest
    else (c.setNreg l { v := BitVec.ofNat 32 (n + 1) }, some l)

/-- The walkers that a nest image's WMASK names. -/
def maskWalkers (m : Byte) : List (BitVec 3) := (List.range 8).filterMap (fun i => if m.getLsbD i then some (BitVec.ofNat 3 i) else none)

/-- The counters keep their last values when the nest completes, which are those of the last pass: the text of 05 R100 rather than
its pseudocode, which sets them to 0 (DESIGN CHOICE, log 23). -/
def nestComplete (c : Ctx) : List Nat → Nat → Bool
  | [], _ => true
  | lim :: rest, l => (c.nreg l).v.toNat = lim - 1 && nestComplete c rest (l + 1)

/-- The context goes to bundle i, or to its drain when the segment's bundles are done (03 R43, 09 R197). -/
def Ctx.goto (c : Ctx) (i : Nat) : Ctx :=
  let c := { c with bend := false, branch := none }
  if i < c.hdr.count then { c with pc := i } else { c with phase := .draining }

/-- The end of the bundle at pc, its HOLD cycles complete: none where a nest waits for an empty walker (05 R100). -/
def Ctx.bundleEnd (c : Ctx) (last : Bool) : Option Ctx :=
  match c.branch with
  | some t => some (c.goto t)
  | none =>
    let next : Nat := if last then c.hdr.count else c.pc + 1
    match c.loop with
    | .inactive => some (c.goto next)
    | .loop first lst left =>
      if c.pc ≠ lst then some (c.goto next)
      else if left ≤ 1 then some ({ c with loop := .inactive }.goto next)
      else some ({ c with loop := .loop first lst (left - 1) }.goto first)
    | .nest first lst _ lims wmask =>
      if c.pc ≠ lst then some (c.goto next)
      else if nestComplete c lims 1 then some ({ c with loop := .inactive }.goto next)
      else if (maskWalkers wmask).any (fun k => !(c.wreg k).full) then none
      else
        let r := nestStep c lims 1 lims
        let l := r.2.getD 1
        some (((maskWalkers wmask).foldl (fun c k => c.setWreg k ((c.wreg k).advance l)) r.1).goto first)

/-! ### Consumption -/

/-- POISON_CONSUME of scalar register i (05 R86, 21 R349). -/
def consumeS (c : Ctx) (i : BitVec 6) : Option TrapInfo :=
  if (c.sreg i).pois then some { cause := .poisonConsume, reg := some i.toNat } else none

/-- The first trap of a list of run-time checks. -/
def firstTrap (l : List (Option TrapInfo)) : Verdict :=
  match l.findSome? id with
  | some t => .trap t
  | none => .go

def trapIf (b : Bool) (t : TrapInfo) : Option TrapInfo := if b then some t else none

/-! ### BR, LOOP, NEST (05 R97 to R101) -/

/-- A free choice among two values that the spec does not rank, with the state after it. -/
def State.either {α : Type} (s : State) (a b : α) : α × State :=
  (if Config.arb s.freeIx % 2 = 0 then a else b, { s with freeIx := s.freeIx + 1 })

/-- The bundle continues at i. Where another slot of the bundle has already taken a branch, the spec says of
neither target that it is the one (log 11). -/
def State.branchTo (s : State) (i : Nat) : State :=
  match s.ctx.branch with
  | none => s.modCtx (fun c => { c with branch := some i })
  | some j =>
    let r := s.either i j
    r.2.modCtx (fun c => { c with branch := some r.1 })

/-- A taken branch out of the active body ends the loop or nest (05 R101). With a LOOP, NEST or second taken branch in the same bundle
the loop state changes in slot order, whichever target is taken: DESIGN CHOICE, log 23. -/
def LoopState.branched (l : LoopState) (i : Nat) : LoopState :=
  match l with
  | .inactive => .inactive
  | .loop a b n => if a ≤ i && i ≤ b then .loop a b n else .inactive
  | .nest a b k ls m => if a ≤ i && i ≤ b then .nest a b k ls m else .inactive

def semBr (r : Branch) : SlotSem :=
  { guard := some r.g,
    stat := fun s => if s.ctx.hdr.count ≤ r.tgt.toNat then some .format else none,
    eff := fun s => (s.branchTo r.tgt.toNat).modCtx (fun c => { c with loop := c.loop.branched r.tgt.toNat }) }

/-- The static bound of LOOP and NEST (03 R47). -/
def bodyBound (tgt : BitVec 8) (s : State) : Option Cause :=
  if tgt.toNat ≤ s.ctx.pc || s.ctx.hdr.count ≤ tgt.toNat then some .format else none

/-- The loop state takes a new loop. -/
def Ctx.setLoop (c : Ctx) (l : LoopState) : Ctx := { c with loop := l }

def semLoop (r : LoopOp) : SlotSem :=
  { guard := some r.g, stat := bodyBound r.tgt, srcs := [(.s r.c, false)],
    run := fun s => firstTrap [consumeS s.ctx r.c, trapIf (s.ctx.loop ≠ .inactive) { cause := .format }],
    eff := fun s =>
      let n := (s.ctx.sreg r.c).v.toNat % 2 ^ 32
      if n = 0 then s.branchTo (r.tgt.toNat + 1)
      else s.modCtx (fun c => c.setLoop (.loop (c.pc + 1) r.tgt.toNat n)) }

/-- The own scratchpad window by its tag forms (10 R211); a sluice has no scratchpad (09 R209). -/
def State.ownWindow (s : State) (va : Word) : Bool :=
  !s.isSluice && va.toNat / 2 ^ 48 = 15 && (va.toNat / 2 ^ 38 % 2 ^ 10 = 0x3FF || va.toNat / 2 ^ 38 % 2 ^ 10 = coreNo s.cur.core)

/-- A nest image: counts 1 to 6 and WMASK, or none where a field is illegal for level count n (05 R99). -/
def parseImage (b : List Byte) (n : Nat) : Option (List Nat × Byte) :=
  let counts := (List.range 6).map (fun i => leNat ((b.drop (4 * i)).take 4))
  if (b.drop 25).any (fun x => x ≠ 0) || (counts.drop n).any (fun x => x ≠ 0) then none
  else some (counts.take n, b.getD 24 0)

/-- The image of a NEST whose pointer is p. -/
def State.nestImage (s : State) (p : Word) : Addressed :=
  if !s.ownWindow p then .trap { cause := .window, va := p.toNat % 2 ^ 52 }
  else s.accessCheck p 64 64 .load false true false

/-- The image is read at the issue as a scratchpad load (05 R100), so it waits as that of LDSC does (DEDUCED, log 23). An active
loop or nest is found before a faulty image (DESIGN CHOICE, log 23). -/
def semNest (r : NestOp) : SlotSem :=
  { guard := some r.g, stat := bodyBound r.tgt, srcs := [(.s r.p, false)],
    run := fun s =>
      match consumeS s.ctx r.p with
      | some t => .trap t
      | none =>
        if s.ctx.loop ≠ .inactive then .trap { cause := .format }
        else
          match s.nestImage (s.ctx.sreg r.p).v with
          | .trap t => .trap t
          | .walk v => .walk v
          | .wait => .freeze
          | .ok ps =>
            if s.readHeld (s.ctx.entryId s.cur.bslot 0) (s.ctx.sreg r.p).v.toNat 64 (.ok ps) then .freeze
            else if (parseImage (pvals (s.rdPieces ps)) r.levels.toNat).isNone then .trap { cause := .format } else .go,
    eff := fun s =>
      match s.nestImage (s.ctx.sreg r.p).v with
      | .trap _ => s
      | .walk _ => s
      | .wait => s
      | .ok ps =>
        match parseImage (pvals (s.rdPieces ps)) r.levels.toNat with
        | none => s
        | some (lims, wmask) =>
          let s := s.modCtx (fun c => (List.range r.levels.toNat).foldl (fun c i => c.setNreg (i + 1) {}) c)
          if lims.any (fun x => x = 0) then s.branchTo (r.tgt.toNat + 1)
          else s.modCtx (fun c => c.setLoop (.nest (c.pc + 1) r.tgt.toNat r.levels.toNat lims wmask)) }

/-! ### Leaving a segment (05 R102)

Of two exit instructions, or two NEXTs, of one bundle the one in the higher slot counts as the latest: DESIGN CHOICE, log 23. -/

/-- NEXT always executes; its guard fields select, and a poisoned selector is consumed (05 R86). -/
def semNext (g : Guard) : SlotSem :=
  { guard := none,
    run := fun s => firstTrap [trapIf (s.ctx.guardPoisoned (some g)) { cause := .poisonConsume, reg := some (0xC0 + g.pg.toNat) }],
    eff := fun s => s.modCtx (fun c => { c with sel := c.holds (some g), nexted := true }) }

def semCalls (r : CallOp) : SlotSem :=
  { guard := some r.g, srcs := [(.s r.t, false)],
    run := fun s =>
      let v := (s.ctx.sreg r.t).v.toNat
      firstTrap [consumeS s.ctx r.t, trapIf (2 ^ 52 ≤ v) { cause := .window, va := v % 2 ^ 52 },
        trapIf (v % 64 ≠ 0) { cause := .align, va := v }, trapIf (8 ≤ s.ctx.retstack.length) { cause := .format }],
    eff := fun s => s.modCtx (fun c => { c with act := .call (c.sreg r.t).v.toNat }) }

/-- A RETS in trap mode at the depth of its entry is a trap return (19 R329). -/
def Ctx.atTrapDepth (c : Ctx) : Bool :=
  match c.frame with
  | some f => c.retstack.length = f.depth
  | none => false

def semRets (g : Guard) : SlotSem :=
  { guard := some g,
    run := fun s => firstTrap [trapIf (s.ctx.retstack.isEmpty && !s.ctx.atTrapDepth) { cause := .format }],
    eff := fun s => s.modCtx (fun c => { c with act := if c.atTrapDepth then .trapReturn else .ret }) }

def yieldSem (g : Guard) (handler : Bool) (a : ExitAct) : SlotSem :=
  { guard := some g, stat := fun s => if s.isHandler = handler then none else some .priv,
    eff := fun s => s.modCtx (fun c => { c with act := a }) }

def semYieldEnd (g : Guard) : SlotSem := yieldSem g false .finish
def semYieldExit (g : Guard) : SlotSem := yieldSem g false .exit
def semYieldHdone (g : Guard) : SlotSem := yieldSem g true .hdone

/-- TRAP takes its trap at issue, after every static and operand check of its bundle (05 R105). -/
def semTrap (r : TrapOp) : SlotSem :=
  { guard := some r.g, run := fun _ => .trap { cause := .trapSw, aux := r.code.toNat }, eff := fun s => s }

/-! ### State registers and time (05 R106, R107; 02 R30, R31, R371) -/

/-- Concatenation of UNDC's fields. -/
def Ctx.undcWord (c : Ctx) : Word := c.undc.setWidth 64 ||| (if c.undcSat then 1#64 <<< 63 else 0)

/-- The value of a state register (02 R31); what a handler or sluice context reads is that of R371. -/
def State.readSreg (s : State) (n : BitVec 12) : Word :=
  let c := s.ctx
  let taskless := s.isHandler || s.isSluice
  let own (v : Word) : Word := if taskless then 0 else v
  match n.toNat with
  | 0x00 => c.vflg.setWidth 64
  | 0x01 => (c.vflg >>> 64).setWidth 64
  | 0x02 => (c.vflg >>> 128).setWidth 64
  | 0x03 => c.mflags.setWidth 64
  | 0x04 => c.rmode.setWidth 64
  | 0x05 => c.srseed.setWidth 64
  | 0x06 => c.srctr.setWidth 64
  | 0x07 => (c.thresh.setWidth 64 <<< 8) ||| (if c.policy then 1 else 0)
  | 0x08 => c.undcWord
  | 0x10 => if s.isHandler then 0 else c.ebudget.setWidth 64
  | 0x11 => 0x0080004000200010
  | 0x12 => c.eunder.setWidth 64
  | 0x18 => if s.isHandler then 0 else c.mprog.setWidth 64
  | 0x20 => own (c.taskid.setWidth 64)
  | 0x21 => own (c.coord.setWidth 64)
  | 0x22 => if s.isSluice then 0 else BitVec.ofNat 64 (coreNo s.cur.core)
  | 0x23 => own (c.team.setWidth 64)
  | 0x24 => own (c.groups.setWidth 64)
  | 0x25 => c.launchid.setWidth 64
  | 0x26 => BitVec.ofNat 64 (ctxidOf c.owner)
  | 0x27 => s.core.hmax.setWidth 64
  | 0x30 => c.brb.setWidth 64
  | 0x31 => BitVec.ofNat 64 c.retstack.length
  | 0x50 => s.core.qstat.setWidth 64
  | 0x60 => c.trapcause.setWidth 64
  | 0x61 => c.trapva.setWidth 64
  | 0x62 => c.trappc.setWidth 64
  | 0x63 => c.trapslot.setWidth 64
  | 0x70 => c.asyncf.setWidth 64
  | 0x80 => c.wcol.setWidth 64
  | k => if 0x40 ≤ k && k ≤ 0x4F then (s.core.sem (k - 0x40)).setWidth 64 else 0

/-- A read of UNDC clears it at the end of the bundle (02 R31, R34). -/
def Ctx.readClear (c : Ctx) (n : BitVec 12) : Ctx := if n.toNat = 0x08 then { c with undcRead := true } else c

def semMfs (r : Mfs) : SlotSem :=
  { guard := some r.g, dsts := [.s r.d],
    eff := fun s =>
      let v := s.readSreg r.sreg
      s.modCtx (fun c => (c.readClear r.sreg).issueS s.cur.bslot 2 r.d v false) }

/-- A written value holds a reserved value of a field (02 R30, R31; 07 R157). -/
def Ctx.reservedValue (c : Ctx) (n : BitVec 12) (v : Word) : Bool :=
  match n.toNat with
  | 0x04 => 5 < v.toNat % 8
  | 0x07 => 32 < v.toNat / 256 % 64
  | 0x18 => v.getLsbD 8 && (c.restart.isNone || v.setWidth 9 ≠ c.mprog)
  | _ => false

def semMts (r : Mts) : SlotSem :=
  { guard := some r.g, srcs := [(.s r.src, r.ta)],
    run := fun s => firstTrap [consumeS s.ctx r.src,
      trapIf (s.ctx.reservedValue r.sreg (s.ctx.sreg r.src).v) { cause := .rsvd }],
    eff := fun s => s.modCtx (fun c =>
      c.issue s.cur.bslot 2 (.sr r.sreg) ((c.sreg r.src).v.setWidth 1024) (BitVec.allOnes 1024) 0 1) }

def timeSem (r : RdTime) (f : State → Nat) : SlotSem :=
  { guard := some r.g, dsts := [.s r.d],
    eff := fun s => s.modCtx (fun c => c.issueS s.cur.bslot 2 r.d (BitVec.ofNat 64 (f s)) false) }

def semRdtimePtime (r : RdTime) : SlotSem := timeSem r State.ptime
def semRdtimeCycles (r : RdTime) : SlotSem := timeSem r State.cycles

/-! ### Bundles without slots (03 R42) -/

/-- A bundle without slots issues in one advancing cycle and then idles for its HOLD cycles. -/
def State.slotless (s : State) : State :=
  match s.bundle with
  | some b => s.finishIssue b.hdr
  | none => s.finishIssue 0

/-! ### Execution -/

def execBr (r : Branch) (s : State) : Host.Outcome State Fault Refusal := runSlot (.br r) (semBr r) s
def execLoop (r : LoopOp) (s : State) : Host.Outcome State Fault Refusal := runSlot (.loop r) (semLoop r) s
def execNest (r : NestOp) (s : State) : Host.Outcome State Fault Refusal := runSlot (.nest r) (semNest r) s
def execNext (g : Guard) (s : State) : Host.Outcome State Fault Refusal := runSlot (.next g) (semNext g) s
def execCalls (r : CallOp) (s : State) : Host.Outcome State Fault Refusal := runSlot (.calls r) (semCalls r) s
def execRets (g : Guard) (s : State) : Host.Outcome State Fault Refusal := runSlot (.rets g) (semRets g) s
def execYieldEnd (g : Guard) (s : State) : Host.Outcome State Fault Refusal := runSlot (.yieldEnd g) (semYieldEnd g) s
def execYieldExit (g : Guard) (s : State) : Host.Outcome State Fault Refusal := runSlot (.yieldExit g) (semYieldExit g) s
def execYieldHdone (g : Guard) (s : State) : Host.Outcome State Fault Refusal := runSlot (.yieldHdone g) (semYieldHdone g) s
def execTrap (r : TrapOp) (s : State) : Host.Outcome State Fault Refusal := runSlot (.trap r) (semTrap r) s
def execMfs (r : Mfs) (s : State) : Host.Outcome State Fault Refusal := runSlot (.mfs r) (semMfs r) s
def execMts (r : Mts) (s : State) : Host.Outcome State Fault Refusal := runSlot (.mts r) (semMts r) s
def execRdtimePtime (r : RdTime) (s : State) : Host.Outcome State Fault Refusal := runSlot (.rdtimePtime r) (semRdtimePtime r) s
def execRdtimeCycles (r : RdTime) (s : State) : Host.Outcome State Fault Refusal := runSlot (.rdtimeCycles r) (semRdtimeCycles r) s
def execPureDelayBundle (s : State) : Host.Outcome State Fault Refusal := .next s.slotless
def execNullBundle (s : State) : Host.Outcome State Fault Refusal := .next s.slotless

end Sys2Proof.Machine
end

