-- ==== Sys2Proof/Machine/Numbers.lean ====
section
/-! DEFINITION. Numbers and rounding: the stored formats (04 R63, R68), round(x, mode) (R71 to R73), the rill (R72),
conversions (R67, R74 to R77), and the exact operations of which the instructions round the results. -/

namespace Sys2Proof.Machine

/-! ### Formats and values -/

/-- What a format does with its top exponent. -/
inductive Specials
  | none | nanOnly | ieee
  deriving DecidableEq, Repr

/-- A binary floating-point format: exponent bits, fraction bits, special encodings (04 R63, R68). -/
structure Fmt where
  eb : Nat
  mb : Nat
  sp : Specials
  deriving DecidableEq, Repr

def f32 : Fmt := { eb := 8, mb := 23, sp := .ieee }
def f16 : Fmt := { eb := 5, mb := 10, sp := .ieee }
def bf16 : Fmt := { eb := 8, mb := 7, sp := .ieee }
def e4m3 : Fmt := { eb := 4, mb := 3, sp := .nanOnly }
def e5m2 : Fmt := { eb := 5, mb := 2, sp := .ieee }
def e3m2 : Fmt := { eb := 3, mb := 2, sp := .none }
def e2m3 : Fmt := { eb := 2, mb := 3, sp := .none }
def e2m1 : Fmt := { eb := 2, mb := 1, sp := .none }

def Fmt.bias (F : Fmt) : Nat := 2 ^ (F.eb - 1) - 1
/-- Exponent of the smallest normal. -/
def Fmt.emin (F : Fmt) : Int := 1 - (F.bias : Int)
def Fmt.bits (F : Fmt) : Nat := F.eb + F.mb + 1
/-- Significand bits, the leading one counted. -/
def Fmt.sig (F : Fmt) : Nat := F.mb + 1
/-- Encoding of the largest finite magnitude. -/
def Fmt.maxCode (F : Fmt) : Nat :=
  match F.sp with
  | .ieee => (2 ^ F.eb - 1) * 2 ^ F.mb - 1
  | .nanOnly => 2 ^ (F.eb + F.mb) - 2
  | .none => 2 ^ (F.eb + F.mb) - 1
def Fmt.signed (F : Fmt) (neg : Bool) (code : Nat) : Nat := if neg then 2 ^ (F.eb + F.mb) + code else code
/-- The canonical NaN (04 R65, R68). -/
def Fmt.canon (F : Fmt) : Nat :=
  match F.sp with
  | .ieee => (2 ^ F.eb - 1) * 2 ^ F.mb + 2 ^ (F.mb - 1)
  | .nanOnly => 2 ^ (F.eb + F.mb) - 1
  | .none => 0
def Fmt.infCode (F : Fmt) : Nat :=
  match F.sp with
  | .ieee => (2 ^ F.eb - 1) * 2 ^ F.mb
  | .nanOnly => F.maxCode
  | .none => F.maxCode

/-- An exact value: NaN (signalling or not), an infinity, or ±m × 2^e. With `st` the magnitude lies strictly
between m × 2^e and (m + 1) × 2^e. -/
inductive Num
  | nan (sig : Bool)
  | inf (neg : Bool)
  | fin (neg : Bool) (m : Nat) (e : Int) (st : Bool)
  deriving DecidableEq, Repr

/-- The value of an encoding; a finite value keeps its stored significand and the weight of its last bit. A NaN whose top fraction bit is
0 counts as signalling in E5M2 too: DESIGN CHOICE, log 52. -/
def Fmt.num (F : Fmt) (x : Nat) : Num :=
  let neg := x / 2 ^ (F.eb + F.mb) % 2 = 1
  let e := x / 2 ^ F.mb % 2 ^ F.eb
  let f := x % 2 ^ F.mb
  if F.sp = .ieee && e = 2 ^ F.eb - 1 then
    if f = 0 then .inf neg else .nan (f < 2 ^ (F.mb - 1))
  else if F.sp = .nanOnly && e = 2 ^ F.eb - 1 && f = 2 ^ F.mb - 1 then .nan false
  else if e = 0 then .fin neg f (F.emin - F.mb) false
  else .fin neg (f + 2 ^ F.mb) ((e : Int) - F.bias - F.mb) false

def Num.isNan : Num → Bool
  | .nan _ => true
  | .inf _ => false
  | .fin _ _ _ _ => false
def Num.isSnan : Num → Bool
  | .nan s => s
  | .inf _ => false
  | .fin _ _ _ _ => false
def Num.isZero : Num → Bool
  | .fin _ m _ st => m = 0 && !st
  | .nan _ => false
  | .inf _ => false
def Num.isInf : Num → Bool
  | .inf _ => true
  | .nan _ => false
  | .fin _ _ _ _ => false
def Num.sign : Num → Bool
  | .nan _ => false
  | .inf n => n
  | .fin n _ _ _ => n
def Num.negate : Num → Num
  | .nan s => .nan s
  | .inf n => .inf (!n)
  | .fin n m e st => .fin (!n) m e st
/-- The value times 2^k. -/
def Num.scale (x : Num) (k : Int) : Num :=
  match x with
  | .nan s => .nan s
  | .inf n => .inf n
  | .fin n m e st => .fin n m (e + k) st

/-- An integer. -/
def Num.ofInt (v : Int) : Num := .fin (v < 0) v.natAbs 0 false

/-! ### Rounding (04 R71, R73) -/

/-- A rounding mode 0 to 5; for SR the rill value, and of a stored value being converted the number of its significand bits, 0 for
the exact result of an operation (04 R73). -/
structure Mode where
  rm : Nat
  rill : Nat := 0
  sig : Nat := 0

/-- round(seed, index, counter) of 04 R72. -/
def rill (seed index counter : Word32) : Word32 :=
  let x := seed ^^^ (index * 0x9E3779B1) ^^^ (counter * 0x85EBCA77)
  let x := x ^^^ (x >>> 15)
  let x := x * 0x2C1B3C6D
  let x := x ^^^ (x >>> 12)
  let x := x * 0x297A2D39
  x ^^^ (x >>> 15)

/-- The magnitude in units of 2^q under a mode, and whether it is inexact. -/
def quant (neg : Bool) (m : Nat) (e : Int) (st : Bool) (q : Int) (md : Mode) : Nat × Bool :=
  let d := (q - e).toNat
  let t := if q ≤ e then m * 2 ^ (e - q).toNat else m / 2 ^ d
  let r := if q ≤ e then 0 else m % 2 ^ d
  if r = 0 && !st then (t, false)
  else
    let up : Bool :=
      match md.rm with
      | 0 => 2 ^ d < 2 * r || (2 * r = 2 ^ d && (st || t % 2 = 1))
      | 1 => false
      | 2 => neg
      | 3 => !neg
      | 4 => 2 ^ d ≤ 2 * r
      | _ =>
        -- the significand bits of the source that lie below the unit, or 32
        let k := if md.sig = 0 then 32 else min (min d md.sig) 32
        2 ^ k ≤ r * 2 ^ k / 2 ^ d + md.rill % 2 ^ k
    (if up then t + 1 else t, true)

/-- Exponent of the leading bit of m × 2^e. -/
def leadExp (m : Nat) (e : Int) : Int := e + (m.log2 : Int)

/-- Overflow gives an infinity in these modes, and the largest finite value in the others (04 R71). -/
def toInf (rm : Nat) (neg : Bool) : Bool := rm = 0 || rm = 4 || rm = 5 || (rm = 2 && neg) || (rm = 3 && !neg)

/-- The encoding in F of n units of 2^q, n below 2^(mb + 1), unbounded above. -/
def Fmt.code (F : Fmt) (n : Nat) (q : Int) : Nat :=
  if n < 2 ^ F.mb then n else (q + F.mb + F.bias).toNat * 2 ^ F.mb + (n - 2 ^ F.mb)

/-- Rounding a finite value other than zero into F: the encoding, inexact, beyond the range, tiny after rounding. Beyond the range is
what rounds beyond the largest finite value as if the exponent had no bound: DESIGN CHOICE, log 52. -/
def Fmt.roundFin (F : Fmt) (md : Mode) (neg : Bool) (m : Nat) (e : Int) (st : Bool) : Nat × Bool × Bool × Bool :=
  let lead := leadExp m e
  let q := max lead F.emin - F.mb
  let (n, inexact) := quant neg m e st q md
  let code := if n = 2 ^ (F.mb + 1) then F.code (2 ^ F.mb) (q + 1) else F.code n q
  let tiny := lead < F.emin && (quant neg m e st (lead - F.mb) md).1 < 2 ^ (F.emin - lead + F.mb).toNat
  (code, inexact, F.maxCode < code, tiny)

/-- round(x, mode) into an IEEE-style format, with its flags (04 R64, R71). -/
def Fmt.round (F : Fmt) (md : Mode) (x : Num) : Nat × Flags :=
  match x with
  | .nan _ => (F.canon, 0)
  | .inf n => (F.signed n F.infCode, 0)
  | .fin n m e st =>
    if m = 0 && !st then (F.signed n 0, 0)
    else
      let (code, inexact, isOver, tiny) := F.roundFin md n m e st
      if isOver then (F.signed n (if toInf md.rm n then F.infCode else F.maxCode), fOF ||| fNX)
      else (F.signed n code, if inexact then (if tiny then fNX ||| fUF else fNX) else 0)

/-! ### Exact operations (04 R65, R71) -/

/-- A value with the flags of an invalid operation or a division by zero. -/
abbrev Res := Num × Flags

def snanFlag (l : List Num) : Flags := if l.any Num.isSnan then fNV else 0

/-- The exact sum of two values; an exact zero is −0 only under RDN, or when both are zeros of that sign. -/
def Num.add (rm : Nat) (a b : Num) : Res :=
  match a, b with
  | .nan _, _ => (.nan false, snanFlag [a, b])
  | _, .nan _ => (.nan false, snanFlag [a, b])
  | .inf x, .inf y => if x = y then (.inf x, 0) else (.nan false, fNV)
  | .inf x, .fin _ _ _ _ => (.inf x, 0)
  | .fin _ _ _ _, .inf y => (.inf y, 0)
  | .fin nx mx ex _, .fin ny my ey _ =>
    if mx = 0 && my = 0 then (.fin (if nx = ny then nx else rm = 2) 0 0 false, 0)
    else
      let e := min ex ey
      let v : Int := (if nx then -1 else 1) * ((mx * 2 ^ (ex - e).toNat : Nat) : Int)
        + (if ny then -1 else 1) * ((my * 2 ^ (ey - e).toNat : Nat) : Int)
      if v = 0 then (.fin (rm = 2) 0 0 false, 0) else (.fin (v < 0) v.natAbs e false, 0)

def Num.mul (a b : Num) : Res :=
  match a, b with
  | .nan _, _ => (.nan false, snanFlag [a, b])
  | _, .nan _ => (.nan false, snanFlag [a, b])
  | .inf x, y => if y.isZero then (.nan false, fNV) else (.inf (x != y.sign), 0)
  | x, .inf y => if x.isZero then (.nan false, fNV) else (.inf (x.sign != y), 0)
  | .fin nx mx ex _, .fin ny my ey _ => (.fin (nx != ny) (mx * my) (ex + ey) false, 0)

/-- ±a × b ± c, exact: 0 × ∞ is invalid even when c is a quiet NaN (06 R114). -/
def Num.fma (rm : Nat) (negp negc : Bool) (a b c : Num) : Res :=
  let sig := snanFlag [a, b, c]
  let (p, f) := a.mul b
  if sig ≠ 0 || f ≠ 0 then (.nan false, fNV)
  else (if negp then p.negate else p).add rm (if negc then c.negate else c)

/-- The quotient of magnitudes, exact or with its fraction beyond bit −160 marked. -/
def divMag (ma : Nat) (ea : Int) (mb : Nat) (eb : Int) (neg : Bool) : Num :=
  let k := 160 + mb.log2 - ma.log2
  .fin neg (ma * 2 ^ k / mb) (ea - eb - k) (ma * 2 ^ k % mb ≠ 0)

/-- The quotient: 0 ÷ 0 and ∞ ÷ ∞ are invalid, any other zero divisor divides by zero. -/
def Num.quot (a b : Num) : Res :=
  match a, b with
  | .nan _, _ => (.nan false, snanFlag [a, b])
  | _, .nan _ => (.nan false, snanFlag [a, b])
  | .inf _, .inf _ => (.nan false, fNV)
  | .inf x, .fin ny _ _ _ => (.inf (x != ny), 0)
  | .fin nx _ _ _, .inf y => (.fin (nx != y) 0 0 false, 0)
  | .fin nx mx ex _, .fin ny my ey _ =>
    if my = 0 then (if mx = 0 then (.nan false, fNV) else (.inf (nx != ny), fDZ))
    else if mx = 0 then (.fin (nx != ny) 0 0 false, 0)
    else (divMag mx ex my ey (nx != ny), 0)

/-- Integer square root by bitwise search from bit k down. -/
def isqrtBits (n : Nat) : Nat → Nat → Nat
  | 0, r => r
  | k + 1, r => let t := r + 2 ^ k; isqrtBits n k (if t * t ≤ n then t else r)

def isqrt (n : Nat) : Nat := isqrtBits n (n.log2 / 2 + 1) 0

def Num.sqrt (x : Num) : Res :=
  match x with
  | .nan s => (.nan false, if s then fNV else 0)
  | .inf n => if n then (.nan false, fNV) else (.inf false, 0)
  | .fin n m e _ =>
    if m = 0 then (.fin n 0 0 false, 0)
    else if n then (.nan false, fNV)
    else
      let k : Nat := if e % 2 = 0 then 320 else 321
      let v := m * 2 ^ k
      (.fin false (isqrt v) ((e - k) / 2) (isqrt v * isqrt v ≠ v), 0)

def Num.rsqrt (x : Num) : Res :=
  match x with
  | .nan s => (.nan false, if s then fNV else 0)
  | .inf n => if n then (.nan false, fNV) else (.fin false 0 0 false, 0)
  | .fin n m e _ =>
    if m = 0 then (.inf n, fDZ)
    else if n then (.nan false, fNV)
    else
      let k : Nat := if e % 2 = 0 then 400 else 401
      let v := 2 ^ k / m
      (.fin false (isqrt v) ((-(k : Int) - e) / 2) (isqrt v * isqrt v * m ≠ 2 ^ k), 0)

/-! ### Transcendental functions (06 R132)

Fixed-point numbers with P fraction bits carry far more bits than any boundary of rounding needs (log 12). -/

abbrev P : Nat := 400
def one : Int := 2 ^ P
def fxmul (a b : Int) : Int := a * b / one

/-- Sum of z × zz^i ÷ (2i + 1) × s^i: arctangent (s = −1) or its hyperbolic sibling (s = 1) of a reciprocal. -/
def atanSum (s : Int) (zz : Int) : Nat → Nat → Int → Int
  | 0, _, _ => 0
  | fuel + 1, i, z => z / (2 * i + 1) + atanSum s zz fuel (i + 1) (s * (z / zz))

/-- π by Machin's formula. -/
def fxPi : Int := 16 * atanSum (-1) 25 200 0 (one / 5) - 4 * atanSum (-1) 57121 60 0 (one / 239)
/-- ln 2 = 2 artanh(1/3). -/
def fxLn2 : Int := 2 * atanSum 1 9 280 0 (one / 3)

/-- Sum of t^i ÷ i! from term i on. -/
def expSum (t : Int) : Nat → Nat → Int → Int
  | 0, _, _ => 0
  | fuel + 1, i, term => term + expSum t fuel (i + 1) (fxmul term t / (i + 1))

def fxExp (t : Int) : Int := expSum t 120 0 one

/-- artanh z for |z| ≤ 1/3. -/
def artanhSum (zz : Int) : Nat → Nat → Int → Int
  | 0, _, _ => 0
  | fuel + 1, i, z => z / (2 * i + 1) + artanhSum zz fuel (i + 1) (fxmul z zz)

/-- Alternating sum of t^(2i + odd) ÷ (2i + odd)!. -/
def trigSum (tt : Int) : Nat → Nat → Int → Int
  | 0, _, _ => 0
  | fuel + 1, i, term => term + trigSum tt fuel (i + 2) (-(fxmul term tt) / ((i + 1) * (i + 2)))

def fxSin (t : Int) : Int := trigSum (fxmul t t) 60 1 t
def fxCos (t : Int) : Int := trigSum (fxmul t t) 60 0 one

/-- A positive fixed-point value that is not a dyadic rational. -/
def fxNum (neg : Bool) (v : Int) (e : Int) : Num := .fin neg v.toNat (e - P) true

/-- The fixed-point form of m × 2^e where the value fits; e is at least −P for every format. -/
def toFx (m : Nat) (e : Int) : Int := if 0 ≤ e then (m * 2 ^ e.toNat : Nat) * one else (m * 2 ^ (P + e).toNat : Nat)

def Num.exp2 (x : Num) : Res :=
  match x with
  | .nan s => (.nan false, if s then fNV else 0)
  | .inf n => (if n then .fin false 0 0 false else .inf false, 0)
  | .fin n m e _ =>
    if m = 0 then (.fin false 1 0 false, 0)
    else if 11 ≤ leadExp m e then (.fin false 1 (if n then -2048 else 2048) false, 0)
    else
      let v : Int := (if n then -1 else 1) * toFx m e
      let k := v / one
      let f := v % one
      if f = 0 then (.fin false 1 k false, 0) else (fxNum false (fxExp (fxmul f fxLn2)) k, 0)

def Num.log2 (x : Num) : Res :=
  match x with
  | .nan s => (.nan false, if s then fNV else 0)
  | .inf n => if n then (.nan false, fNV) else (.inf false, 0)
  | .fin n m e _ =>
    if m = 0 then (.inf true, fDZ)
    else if n then (.nan false, fNV)
    else
      let k := leadExp m e
      let y : Int := (m * 2 ^ (P - m.log2) : Nat)
      if y = one then (Num.ofInt k, 0)
      else
        let z := (y - one) * one / (y + one)
        let l := k * one + 2 * artanhSum (fxmul z z) 260 0 z * one / fxLn2
        (fxNum (l < 0) l.natAbs 0, 0)

/-- e^t for a fixed-point t ≥ 0: fixed-point value of e^(t mod ln 2) and the power of two. -/
def expSplit (t : Int) : Int × Nat := let n := t / fxLn2; (fxExp (t - n * fxLn2), n.toNat)

def Num.tanh (x : Num) : Res :=
  match x with
  | .nan s => (.nan false, if s then fNV else 0)
  | .inf n => (.fin n 1 0 false, 0)
  | .fin n m e _ =>
    if m = 0 then (.fin n 0 0 false, 0)
    else if leadExp m e < -64 then (.fin n (m * 2 ^ 200 - 1) (e - 200) true, 0)
    else if 7 ≤ leadExp m e then (.fin n (2 ^ 200 - 1) (-200) true, 0)
    else
      let (v, k) := expSplit (2 * toFx m e)
      let ex := v * 2 ^ k
      (fxNum n ((ex - one) * one / (ex + one)) 0, 0)

/-- sin(2πs) and cos(2πs) of a fixed-point s in (0, 1/4), positive. -/
def turnsSin (s : Int) : Int := if s ≤ one / 8 then fxSin (fxmul (2 * fxPi) s) else fxCos (fxmul (2 * fxPi) (one / 4 - s))
def turnsCos (s : Int) : Int := turnsSin (one / 4 - s)

/-- The fraction of |x| in turns, in quarters: the quarter and the rest. -/
def quarters (m : Nat) (e : Int) : Nat × Int :=
  let f := if 0 ≤ e then 0 else toFx (m % 2 ^ (-e).toNat) e
  ((f / (one / 4)).toNat, f % (one / 4))

def Num.sin (x : Num) : Res :=
  match x with
  | .nan s => (.nan false, if s then fNV else 0)
  | .inf _ => (.nan false, fNV)
  | .fin n m e _ =>
    if m = 0 then (.fin n 0 0 false, 0)
    else
      let (q, s) := quarters m e
      let neg := n != decide (2 ≤ q)
      if s = 0 then (if q % 2 = 0 then .fin false 0 0 false else .fin neg 1 0 false, 0)
      else (fxNum neg (if q % 2 = 0 then turnsSin s else turnsCos s) 0, 0)

def Num.cos (x : Num) : Res :=
  match x with
  | .nan s => (.nan false, if s then fNV else 0)
  | .inf _ => (.nan false, fNV)
  | .fin _ m e _ =>
    let (q, s) := quarters m e
    let neg := q = 1 || q = 2
    if s = 0 then (if q % 2 = 1 then .fin false 0 0 false else .fin neg 1 0 false, 0)
    else (fxNum neg (if q % 2 = 0 then turnsCos s else turnsSin s) 0, 0)

/-! ### Minimum, maximum and compares (06 R115, R121) -/

/-- Order of two encodings that are not NaN: −0 below +0, or equal to it. -/
def Fmt.key (F : Fmt) (x : Nat) (zerosEqual : Bool) : Int :=
  let mag : Int := ((x % 2 ^ (F.eb + F.mb) : Nat) : Int)
  if x / 2 ^ (F.eb + F.mb) % 2 = 1 then (if zerosEqual then -mag else -mag - 1) else mag

/-- VMIN, VMAX and (number) VMINN, VMAXN. -/
def Fmt.minmax (F : Fmt) (mx number : Bool) (a b : Nat) : Nat × Flags :=
  let na := (F.num a).isNan
  let nb := (F.num b).isNan
  let fl := snanFlag [F.num a, F.num b]
  if na || nb then
    if number && !(na && nb) then (if na then b else a, fl) else (F.canon, fl)
  else
    let x := F.key a false
    let y := F.key b false
    (if mx then (if y ≤ x then a else b) else (if x ≤ y then a else b), fl)

/-- The float conditions of VCMP. -/
def Fmt.compare (F : Fmt) (cond a b : Nat) : Bool × Flags :=
  let nan := (F.num a).isNan || (F.num b).isNan
  let fl : Flags := if cond = 2 || cond = 3 then (if nan then fNV else 0) else snanFlag [F.num a, F.num b]
  let x := F.key a true
  let y := F.key b true
  let r := match cond with
    | 0 => !nan && x = y
    | 1 => nan || x ≠ y
    | 2 => !nan && x < y
    | 3 => !nan && x ≤ y
    | 6 => nan
    | _ => !nan
  (r, fl)

/-! ### Conversions to integers (04 R67) -/

/-- An integer of n bits as its bit pattern. -/
def intBits (n : Nat) (v : Int) : Nat := (v % (2 ^ n : Nat)).toNat
/-- The signed value of n bits. -/
def signedOf (n x : Nat) : Int := if x % 2 ^ n < 2 ^ (n - 1) then ((x % 2 ^ n : Nat) : Int) else ((x % 2 ^ n : Nat) : Int) - (2 ^ n : Nat)
/-- Clamp to the signed range of n bits. -/
def clampInt (n : Nat) (v : Int) : Int := max (-((2 ^ (n - 1) : Nat) : Int)) (min (((2 ^ (n - 1) : Nat) : Int) - 1) v)

def Num.toInt (x : Num) (n : Nat) (md : Mode) : Nat × Flags :=
  match x with
  | .nan _ => (0, fNV)
  | .inf neg => (intBits n (if neg then -((2 ^ (n - 1) : Nat) : Int) else ((2 ^ (n - 1) : Nat) : Int) - 1), fNV)
  | .fin neg m e st =>
    if m = 0 then (0, 0)
    else
      -- a magnitude of 2^70 or more is out of every range
      if 70 ≤ leadExp m e then (intBits n (clampInt n (if neg then -(2 ^ 70) else 2 ^ 70)), fNV)
      else
        let (t, inexact) := quant neg m e st 0 md
        let v : Int := if neg then -(t : Int) else t
        if clampInt n v = v then (intBits n v, if inexact then fNX else 0) else (intBits n (clampInt n v), fNV)

/-! ### Microscaling (04 R68 to R77) -/

/-- Element bits of MX format code f (2 to 7). -/
def mxBits (f : Nat) : Nat := match f with | 4 => 6 | 5 => 6 | 6 => 4 | _ => 8
def mxFmt (f : Nat) : Option Fmt :=
  match f with
  | 2 => some e4m3 | 3 => some e5m2 | 4 => some e3m2 | 5 => some e2m3 | 6 => some e2m1 | _ => none
def mxEmax (f : Nat) : Int := match f with | 2 => 8 | 3 => 15 | 4 => 4 | 5 => 2 | 6 => 2 | _ => 0

/-- Significand bits of an MX element. -/
def mxSig (f : Nat) : Nat := match mxFmt f with | some F => F.sig | none => 8

/-- The value of an MX element. -/
def mxNum (f x : Nat) : Num :=
  match mxFmt f with
  | some F => F.num (x % 2 ^ F.bits)
  | none => (Num.ofInt (signedOf 8 x)).scale (-6)

/-- The end of a format's range. -/
def mxEnd (f : Nat) (neg : Bool) : Nat :=
  match mxFmt f with
  | some F => F.signed neg F.maxCode
  | none => if neg then 0x80 else 0x7F

/-- Conversion of a value into format f under a scale byte: element, flags, underflow (04 R74). -/
def mxQuant (f scale : Nat) (md : Mode) (x : Num) : Nat × Flags × Bool :=
  if scale = 0xFF then (0, 0, false)
  else
    match x with
    | .nan _ => ((match f with | 2 => 0x7F | 3 => 0x7E | _ => 0), fNV, false)
    | .inf n => (mxEnd f n, fOF, false)
    | .fin n m e st =>
      let e := e - ((scale : Int) - 127)
      match mxFmt f with
      | some F =>
        if m = 0 then (F.signed n 0, 0, false)
        else
          let (code, inexact, isOver, _) := F.roundFin md n m e st
          if isOver then (mxEnd f n, fOF ||| fNX, false)
          else if code = 0 then (F.signed n 0, fUF ||| fNX, true)
          else (F.signed n code, if inexact then fNX else 0, false)
      | none =>
        if m = 0 then (0, 0, false)
        else
          let (t, inexact) := quant n m e st (-6) md
          if (if n then 128 else 127) < t then (mxEnd f n, fOF ||| fNX, false)
          else if t = 0 then (0, fUF ||| fNX, true)
          else (intBits 8 (if n then -(t : Int) else t), if inexact then fNX else 0, false)

/-- The value scale × element; NaN and infinity raise no flag (04 R77). -/
def mxDequant (f scale x : Nat) (F : Fmt) (md : Mode) : Nat × Flags :=
  if scale = 0xFF then (F.canon, 0) else F.round md ((mxNum f x).scale ((scale : Int) - 127))

/-- Greater magnitude of finite or infinite values, as (infinite, value). -/
def largerMag (a b : Num) : Num :=
  match a, b with
  | .inf _, _ => .inf false
  | _, .inf _ => .inf false
  | .fin _ ma ea _, .fin _ mb eb _ =>
    let e := min ea eb
    if ma * 2 ^ (ea - e).toNat < mb * 2 ^ (eb - e).toNat then .fin false mb eb false else .fin false ma ea false
  | a, _ => a

/-- The scale byte of a block for format f (04 R76): policy, threshold and the count at the block's position. -/
def scaleByte (f : Nat) (block : List Num) (policy : Bool) (ucnt thresh : Nat) : Nat :=
  if block.any Num.isNan then 0xFF
  else
    match block.foldl largerMag (.fin false 0 0 false) with
    | .nan _ => 0xFF
    | .inf _ => 0xFE
    | .fin _ m e _ =>
      if m = 0 then 0x7F
      else
        let x := max 0 (min 254 (leadExp m e - mxEmax f + 127))
        (if policy && thresh < ucnt then max (x - 1) 0 else x).toNat

end Sys2Proof.Machine
end

