-- ==== Sys2Proof/Machine/MemOps.lean ====
section
/-! DEFINITION. Loads, stores, atomics, markers and fences as they issue: operands, address checks and queue
entries (08 R161 to R172). -/

namespace Sys2Proof.Machine

/-! ### Addresses (03 R52, 08 R162) -/

def modeWalker (r : M) : Bool := fMode r = 1
def walkerOf (r : M) : BitVec 3 := r.a.setWidth 3

/-- The registers that form the address, with their mode bit. -/
def addrSrcs (r : M) : List (FReg × Bool) :=
  match fMode r with
  | 0 => [(.s r.a, r.ta)]
  | 1 => [(.w (walkerOf r), r.ta)]
  | _ => [(.s r.a, r.ta), (.s r.x, r.ta)]

def disp28 (r : M) : Word := (r.x.setWidth 4 ++ r.f.setWidth 24).signExtend 64
def disp24 (r : M) : Word := (r.f.setWidth 24).signExtend 64

def Ctx.addrOf (c : Ctx) (r : M) : Word :=
  match fMode r with
  | 0 => (c.sreg r.a).v + disp28 r
  | 1 => (c.wreg (walkerOf r)).base
  | _ => (c.sreg r.a).v + ((c.sreg r.x).v <<< (r.f.extractLsb' 26 2).toNat) + disp24 r

/-- Consumption of a poisoned walker (21 R349: class 2). -/
def consumeW (c : Ctx) (i : BitVec 3) : Option TrapInfo :=
  if (c.wreg i).pois then some { cause := .poisonConsume, reg := some (0x80 + i.toNat) } else none

/-- Step 1 of 08 R162. -/
def Ctx.addrPoison (c : Ctx) (r : M) : Option TrapInfo :=
  match fMode r with
  | 0 => consumeS c r.a
  | 1 => consumeW c (walkerOf r)
  | _ => (consumeS c r.a).or (consumeS c r.x)

/-- What an addressed instruction asks of its address: length, alignment, access and the kinds that watchpoints
match. -/
structure Req where
  n : Nat
  align : Nat
  acc : Access
  load : Bool := false
  store : Bool := false

def State.addrCheck (s : State) (r : M) (q : Req) : Addressed := s.accessCheck (s.ctx.addrOf r) q.n q.align q.acc (fFe r) q.load q.store

/-- A check's answer as a verdict. -/
def Addressed.verdict : Addressed → Verdict
  | .ok _ => .go
  | .walk v => .walk v
  | .wait => .freeze
  | .trap t => .trap t

/-- The parts of a checked access. -/
def Addressed.parts : Addressed → List (Loc × Nat)
  | .ok ps => ps
  | .walk _ => []
  | .wait => []
  | .trap _ => []

/-- The first of some consumptions, and then an address check. -/
def consumeThen (l : List (Option TrapInfo)) (v : Verdict) : Verdict :=
  match firstTrap l with
  | .trap t => .trap t
  | _ => v

def State.addrVerdict (s : State) (r : M) (q : Req) : Verdict := consumeThen [s.ctx.addrPoison r] (s.addrCheck r q).verdict

/-! ### Queue entries -/

def Ctx.enqueue (c : Ctx) (load store : Bool) (e : QEntry) : Ctx :=
  { c with ldq := if load then c.ldq ++ [e] else c.ldq, stq := if store then c.stq ++ [e] else c.stq }

/-- A destination that the bundle marks empty once its slots have read their sources (02 R34). -/
def Ctx.mark (c : Ctx) (d : Dest) : Ctx := { c with marks := c.marks ++ [d] }

/-- The walker advance of mode 01 (08 R163). -/
def Ctx.advanceFor (c : Ctx) (r : M) : Ctx :=
  if modeWalker r && fLevel r ≠ 0 then { c with advances := c.advances ++ [(walkerOf r, fLevel r)] } else c

/-- The effect of an addressed instruction: its queue entry, its marked destination, its walker advance. -/
def State.enqueueAt (s : State) (r : M) (q : Req) (load store : Bool) (op : QOp) (d : Option Dest) : State :=
  let ps := (s.addrCheck r q).parts
  let e : QEntry := { id := s.ctx.entryId s.cur.bslot 0, slot := s.cur.bslot, op, locs := ps, va := (s.ctx.addrOf r).toNat,
                      via := s.viaOf (s.ctx.addrOf r) q.n }
  s.modCtx (fun c =>
    let c := (c.enqueue load store e).advanceFor r
    match d with | some d => c.mark d | none => c)

/-! ### Loads and stores (08 R164, R165, R167) -/

def ldBytes (r : M) : Nat := 2 ^ (r.fn.toNat % 4)
def vecBytes (r : M) : Nat := wBits (r.fn.setWidth 2) / 8

def ldReq (r : M) : Req := { n := ldBytes r, align := ldBytes r, acc := .load, load := true }
def stReq (r : M) : Req := { n := ldBytes r, align := ldBytes r, acc := .store, store := true }
def ldvReq (r : M) : Req := { n := vecBytes r, align := 32, acc := .load, load := true }
def stvReq (r : M) : Req := { n := vecBytes r, align := 32, acc := .store, store := true }
def wsetReq : Req := { n := 32, align := 8, acc := .load, load := true }

def semMnop : SlotSem := { guard := none, eff := fun s => s }

def semLd (r : M) : SlotSem :=
  { guard := some r.g, srcs := addrSrcs r, dsts := [.s r.d], need := (1, 0),
    run := fun s => s.addrVerdict r (ldReq r),
    eff := fun s => s.enqueueAt r (ldReq r) true false (.load r.d (ldBytes r) (r.fn.toNat < 4) (fFe r)) (some (.s r.d)) }

def semSt (r : M) : SlotSem :=
  { guard := some r.g, srcs := addrSrcs r ++ [(.s r.d, r.tb)], need := (0, 1),
    run := fun s => s.addrVerdict r (stReq r),
    eff := fun s =>
      let x := s.ctx.sreg r.d
      s.enqueueAt r (stReq r) false true
        (.store (x.v.setWidth 4096) (ldBytes r) (if x.pois then BitVec.allOnes 128 else 0) (fFe r)) none }

def semLdv (r : M) : SlotSem :=
  { guard := some r.g, srcs := addrSrcs r, dsts := [.v r.d], need := (1, 0),
    run := fun s => s.addrVerdict r (ldvReq r),
    eff := fun s => s.enqueueAt r (ldvReq r) true false (.loadv r.d (vecBytes r) (fFe r)) (some (.v r.d)) }

def semStv (r : M) : SlotSem :=
  { guard := some r.g, srcs := addrSrcs r ++ [(.v r.d, r.tb)], need := (0, 1),
    run := fun s => s.addrVerdict r (stvReq r),
    eff := fun s =>
      let x := s.ctx.vreg r.d
      s.enqueueAt r (stvReq r) false true (.store (x.v.setWidth 4096) (vecBytes r) (x.pois.setWidth 128) (fFe r)) none }

def wsetDest (r : M) : BitVec 3 := r.d.setWidth 3

/-- WSET loads its image, and `.fe` makes it wait for a full line and empty it as it does of LD (08 R165, R167: DEDUCED, log 26). -/
def semWset (r : M) : SlotSem :=
  { guard := some r.g, srcs := addrSrcs r, dsts := [.w (wsetDest r)], need := (1, 0),
    run := fun s => s.addrVerdict r wsetReq,
    eff := fun s => s.enqueueAt r wsetReq true false (.wset (wsetDest r) (fFe r)) (some (.w (wsetDest r))) }

/-! ### LDSC (08 R166, 02 R39) -/

/-- The bytes of a checked own-scratchpad access, each with its sector's poison. -/
def State.ownBytes (s : State) (a : Addressed) : List PByte := s.rdPieces a.parts

/-- Poison of each 32-byte quarter of 128 bytes. -/
def quarterPois (l : List PByte) : BitVec 32 :=
  (List.range 4).foldl (fun p k => if pany ((l.drop (32 * k)).take 32) then p ||| (1#32 <<< k) else p) 0

def ldscReq : Req := { n := 128, align := 128, acc := .load, load := true }

/-- The own-scratchpad check of LDSC: any other address is WINDOW. -/
def State.ldscCheck (s : State) (r : M) : Addressed :=
  if s.ownWindow (s.ctx.addrOf r) then s.addrCheck r ldscReq
  else .trap { cause := .window, va := (s.ctx.addrOf r).toNat % 2 ^ 52 }

def semLdsc (r : M) : SlotSem :=
  { guard := some r.g, srcs := addrSrcs r, need := (1, 0),
    stat := fun s => if s.isHandler then some .priv else none,
    run := fun s =>
      match consumeThen [s.ctx.addrPoison r] (s.ldscCheck r).verdict with
      | .go => if s.readHeld (s.ctx.entryId s.cur.bslot 0) (s.ctx.addrOf r).toNat 128 (s.ldscCheck r) then .freeze else .go
      | v => v,
    eff := fun s =>
      let b := s.ownBytes (s.ldscCheck r)
      s.modCtx (fun c => (c.issue s.cur.bslot 10 (.k (r.d.setWidth 4)) (BitVec.ofNat 1024 (pnat b)) (BitVec.allOnes 1024)
        (quarterPois b) (BitVec.allOnes 32)).advanceFor r) }

/-! ### CFLUSH (08 R168) -/

/-- The extents of the range that holds the address of a CFLUSH, as PAs, one per buffer of a versioned range; none
for a scratchpad address. -/
def State.flushExtents (s : State) (r : M) : List (Nat × Nat) :=
  let ext (e : Cached) : Nat × Nat := (e.pa (e.entry.base * 256), e.pa (e.entry.limit * 256 + 255))
  match s.resolve (s.ctx.addrOf r) with
  | .global v _ =>
    match lookup s.core.rtlb (partOfKey s.ctx.owner) s.ptime v with
    | some e => ext e :: (if e.entry.vers then [ext { e with parity := !e.parity }] else [])
    | none => []
  | .spad _ _ _ => []
  | .bad _ => []

def cflushSem (r : M) (op : FlushOp) : SlotSem :=
  let q : Req := { n := 1, align := 1, acc := if op = .inv then .flushInv else .flush }
  { guard := some r.g, srcs := addrSrcs r, need := (0, 1),
    run := fun s => s.addrVerdict r q,
    eff := fun s => s.enqueueAt r q false true (.cflush op (s.flushExtents r)) none }

def semCflushClean (r : M) : SlotSem := cflushSem r .clean
def semCflushFlush (r : M) : SlotSem := cflushSem r .flush
def semCflushInv (r : M) : SlotSem := cflushSem r .inv
def semCflushRangenc (r : M) : SlotSem := cflushSem r .rangenc

/-! ### ATOM (08 R169, R170) -/

def atomWide (r : M) : Bool := r.fn = 1
def atomFar (r : M) : Bool := r.f.getLsbD 29
def atomC (r : M) : BitVec 6 := r.f.extractLsb' 18 6

/-- ATOM uses base plus a signed 18-bit displacement. -/
def Ctx.atomAddr (c : Ctx) (r : M) : Word := (c.sreg r.a).v + (r.f.setWidth 18).signExtend 64

def State.atomCheck (s : State) (r : M) : Addressed :=
  let n := if atomWide r then 8 else 4
  s.accessCheck (s.ctx.atomAddr r) n n .atomic false true true

/-- The third operand, which only cas uses. -/
def atomSrcs (r : M) (op : AtomOp) : List (FReg × Bool) :=
  [(.s r.a, r.ta), (.s r.x, r.ta)] ++ (if op = .cas then [(.s (atomC r), r.ta)] else [])

def atomSem (r : M) (op : AtomOp) : SlotSem :=
  { guard := some r.g, srcs := atomSrcs r op, dsts := [.s r.d], need := (1, 1),
    run := fun s => consumeThen
      [consumeS s.ctx r.a, consumeS s.ctx r.x, if op = .cas then consumeS s.ctx (atomC r) else none] (s.atomCheck r).verdict,
    eff := fun s =>
      let c := s.ctx
      let e : QEntry :=
        { id := c.entryId s.cur.bslot 0, slot := s.cur.bslot,
          op := .atom op r.d (atomWide r) (atomFar r) (c.sreg r.x).v (c.sreg (atomC r)).v,
          locs := (s.atomCheck r).parts, va := (c.atomAddr r).toNat,
          via := s.viaOf (c.atomAddr r) (if atomWide r then 8 else 4) }
      s.modCtx (fun c => (c.enqueue true true e).mark (.s r.d)) }

def semAtomSwap (r : M) : SlotSem := atomSem r .swap
def semAtomCas (r : M) : SlotSem := atomSem r .cas
def semAtomAdd (r : M) : SlotSem := atomSem r .add
def semAtomAnd (r : M) : SlotSem := atomSem r .and
def semAtomOr (r : M) : SlotSem := atomSem r .or
def semAtomXor (r : M) : SlotSem := atomSem r .xor
def semAtomMin (r : M) : SlotSem := atomSem r .min
def semAtomMax (r : M) : SlotSem := atomSem r .max
def semAtomMinu (r : M) : SlotSem := atomSem r .minu
def semAtomMaxu (r : M) : SlotSem := atomSem r .maxu
def semAtomFadd (r : M) : SlotSem := atomSem r .fadd
def semAtomIncw (r : M) : SlotSem := atomSem r .incw
def semAtomLd (r : M) : SlotSem := atomSem r .ld

/-! ### QMARK and FENCE (08 R171, R172) -/

def bothSem (g : Option Guard) (op : QOp) : SlotSem :=
  { guard := g, need := (1, 1),
    eff := fun s =>
      let e : QEntry := { id := s.ctx.entryId s.cur.bslot 0, slot := s.cur.bslot, op }
      s.modCtx (fun c => c.enqueue true true e) }

def semQmark (r : M) : SlotSem := bothSem (some r.g) .qmark
def semFence (r : M) : SlotSem := bothSem (some r.g) (.fence r.fn.toNat (r.f.getLsbD 1) (r.f.getLsbD 0))

/-! ### Execution -/

def execLd (r : M) (s : State) : Host.Outcome State Fault Refusal := runSlot (.ld r) (semLd r) s
def execSt (r : M) (s : State) : Host.Outcome State Fault Refusal := runSlot (.st r) (semSt r) s
def execLdv (r : M) (s : State) : Host.Outcome State Fault Refusal := runSlot (.ldv r) (semLdv r) s
def execStv (r : M) (s : State) : Host.Outcome State Fault Refusal := runSlot (.stv r) (semStv r) s
def execLdsc (r : M) (s : State) : Host.Outcome State Fault Refusal := runSlot (.ldsc r) (semLdsc r) s
def execWset (r : M) (s : State) : Host.Outcome State Fault Refusal := runSlot (.wset r) (semWset r) s
def execCflushClean (r : M) (s : State) : Host.Outcome State Fault Refusal := runSlot (.cflushClean r) (semCflushClean r) s
def execCflushFlush (r : M) (s : State) : Host.Outcome State Fault Refusal := runSlot (.cflushFlush r) (semCflushFlush r) s
def execCflushInv (r : M) (s : State) : Host.Outcome State Fault Refusal := runSlot (.cflushInv r) (semCflushInv r) s
def execCflushRangenc (r : M) (s : State) : Host.Outcome State Fault Refusal := runSlot (.cflushRangenc r) (semCflushRangenc r) s
def execAtomSwap (r : M) (s : State) : Host.Outcome State Fault Refusal := runSlot (.atomSwap r) (semAtomSwap r) s
def execAtomCas (r : M) (s : State) : Host.Outcome State Fault Refusal := runSlot (.atomCas r) (semAtomCas r) s
def execAtomAdd (r : M) (s : State) : Host.Outcome State Fault Refusal := runSlot (.atomAdd r) (semAtomAdd r) s
def execAtomAnd (r : M) (s : State) : Host.Outcome State Fault Refusal := runSlot (.atomAnd r) (semAtomAnd r) s
def execAtomOr (r : M) (s : State) : Host.Outcome State Fault Refusal := runSlot (.atomOr r) (semAtomOr r) s
def execAtomXor (r : M) (s : State) : Host.Outcome State Fault Refusal := runSlot (.atomXor r) (semAtomXor r) s
def execAtomMin (r : M) (s : State) : Host.Outcome State Fault Refusal := runSlot (.atomMin r) (semAtomMin r) s
def execAtomMax (r : M) (s : State) : Host.Outcome State Fault Refusal := runSlot (.atomMax r) (semAtomMax r) s
def execAtomMinu (r : M) (s : State) : Host.Outcome State Fault Refusal := runSlot (.atomMinu r) (semAtomMinu r) s
def execAtomMaxu (r : M) (s : State) : Host.Outcome State Fault Refusal := runSlot (.atomMaxu r) (semAtomMaxu r) s
def execAtomFadd (r : M) (s : State) : Host.Outcome State Fault Refusal := runSlot (.atomFadd r) (semAtomFadd r) s
def execAtomIncw (r : M) (s : State) : Host.Outcome State Fault Refusal := runSlot (.atomIncw r) (semAtomIncw r) s
def execAtomLd (r : M) (s : State) : Host.Outcome State Fault Refusal := runSlot (.atomLd r) (semAtomLd r) s
def execQmark (r : M) (s : State) : Host.Outcome State Fault Refusal := runSlot (.qmark r) (semQmark r) s
def execFence (r : M) (s : State) : Host.Outcome State Fault Refusal := runSlot (.fence r) (semFence r) s
def execMnop (s : State) : Host.Outcome State Fault Refusal := runSlot .mnop semMnop s

end Sys2Proof.Machine
end

