-- ==== Sys2Proof/Machine/Coherence.lean ====
section
/-! DEFINITION. Coherence between the L1s and the homes (11 R221 to R232) and the filling of L2 lines (21 R344 to R346;
22 R356). Each message in flight is served by the event of its kind. -/

namespace Sys2Proof.Machine

/-! ### Fills (22 R356) -/

/-- The L2 slice of a 256-byte line. -/
def lineSlice (line : Nat) : Nat := homeSlice (line * 256)

/-- Handler PC of a JET index for an event, where the partition's table names one (17 R307, R308). -/
def Part.jetPc (p : Part) (jet : Nat) (ev : JetEvent) : Option Nat :=
  match p.config with
  | none => none
  | some c =>
    match c.handlers.find? (fun h => h.1 = jet) with
    | none => none
    | some (_, h) =>
      let pc := match ev with | .miss => h.misspc | .fill => h.fillpc | .evict => h.evictpc | .msg => h.msgpc
      if pc = 0xFFFF then none else some pc

/-- An event that the slice has come upon, where the handler names a PC for it (17 R308). -/
def State.raise (s : State) (ev : JetEvent) (part jet va requester line : Nat) (data : BitVec 2048) (pois : Byte) : State :=
  if jet = 0 || ((s.partAt part).jetPc jet ev).isNone then s
  else s.modSlice (lineSlice line) (fun x => { x with raised := x.raised ++ [(s.now / 6, .event ev part jet va requester data pois 0 (line * 256))] })

/-- An L2 lookup of a line misses: its fill is asked for once, and the first request is noted (22 R356). -/
def State.askFill (s : State) (r : FillReq) : State :=
  if (sget? s.mem.l2 r.line).isSome || s.mem.fills.any (fun f => f.line = r.line) then s
  else
    (s.modMem (fun m => { m with fills := m.fills ++ [r] })).raise .miss (r.part.getD 0) r.jet (r.va.getD 0 / 256 * 256)
      (r.core.getD 0x3FF) r.line 0 0

/-- The fill that an access of a partition to a line asks for, with JET and CMPR of the range of its VA. -/
def State.fillAt (s : State) (part : Option Nat) (line : Nat) (va : Option Nat) : FillReq :=
  let e := part.bind (fun p => va.bind (fun v => s.walkAny p v))
  { line, part, va, jet := (e.map (·.jet)).getD 0, cmpr := (e.map (·.cmpr)).getD false }

/-- The fill that an access of the current context to a PA asks for; `va` is the VA of its first byte. -/
def State.fillOf (s : State) (pa va : Nat) : FillReq :=
  let g := match s.resolve (BitVec.ofNat 64 va) with | .global g _ => g | .spad _ _ _ => va | .bad _ => va
  let r := s.fillAt (some (partOfKey s.ctx.owner)) (pa / 256) (some g)
  { r with ctxid := ctxidOf s.ctx.owner, taskid := s.ctx.taskid.toNat,
           core := if s.isSluice then none else some (coreNo s.cur.core) }

/-- A memory channel's counters: of a stack's pseudo-channel, or of a second-tier channel at its die. -/
def State.modChan (s : State) (ch : Nat) (f : Chan → Chan) : State :=
  if ch < 768 then s.modBasin (ch / 64) (fun b => { b with chans := smod {} b.chans (ch % 64) f })
  else s.modDie ((ch - 768) / 20) (fun d => { d with chans := smod {} d.chans (ch - 768) f })

/-- The channel's bank of a PA, as the counters of its controller are keyed: pseudo-channel × 1,024 + bank (21 R352, R355). -/
def bankOf (pa : Nat) : Nat :=
  if paWin pa = 3 then paLow pa / 4096 % 80 % 20 * 1024 + (paLow pa / 327680 * 4096 + paLow pa % 4096) / 2048 / 2 ^ 15
  else let off := pcoffOf (hbmPlace pa).2; pchOf (hbmPlace pa).2 * 1024 + off / 2 ^ 26 % 16

/-- The controller of a PA's channel: the basin die of a stack, or 12 + the compute die of a second-tier channel. -/
def unitOf (pa : Nat) : Nat := if paWin pa = 3 then 12 + (chanOf pa - 768) / 20 else (hbmPlace pa).1

/-- The bank of a PA is blocked for tRFM (21 R353). -/
def State.bankBlocked (s : State) (pa : Nat) : Bool := (sget? (s.basinAt (unitOf pa)).blocked (bankOf pa)).isSome

/-- A sector as the ECC read delivers it: its bytes with their poison, whether it was corrected, and the SYMBOL value where
the read fails (21 R344, R345). A stored poison pattern decodes as poison. -/
def eccSector (stored : List PByte) (r : EccResult) : List PByte × Bool × Option Nat :=
  if pany stored then (stored, false, none)
  else
    match r with
    | .clean => (stored, false, none)
    | .corrected => (stored, true, none)
    | .misread d => (clean (leBytes d.toNat 32), true, none)
    | .twoSymbols => (List.replicate 32 (0, true), false, some 2)
    | .moreSymbols => (List.replicate 32 (0, true), false, some 0xFF)

/-- Sectors in which the 256-byte block at key a is stored (10 R217). -/
def Mem.storedSectors (m : Mem) (a : Nat) : Nat := 2 * (sget 4 m.cmp (a / 256)).toNat

/-- The eight sectors of a line at key a, as the ECC read delivers them. Of a compressed block only the stored bytes are read, and
one of them that fails poisons all eight (10 R217). -/
def Mem.eccRead (m : Mem) (a : Nat) (ecc : List EccResult) : List (List PByte × Bool × Option Nat) :=
  let n := m.storedSectors a
  let l := (List.range 8).map (fun i => eccSector (m.rd (a + 32 * i) 32) (if i < n then ecc.getD i .clean else .clean))
  match (if n < 8 then l.findSome? (fun e => e.2.2) else none) with
  | some k => l.map (fun e => (List.replicate 32 (0, true), e.2.1, some k))
  | none => l

/-- Bit i: sector i failed. -/
def failedMask (l : List (List PByte × Bool × Option Nat)) : Nat :=
  (l.zipIdx.filter (fun e => e.1.2.2.isSome)).foldl (fun a e => a + 2 ^ e.2) 0

/-- Bank and row of a PA, as ROW places them (21 R349). -/
def rowOf (pa : Nat) : Nat :=
  if paWin pa = 3 then
    let row := (paLow pa / 327680 * 4096 + paLow pa % 4096) / 2048
    row / 2 ^ 15 % 16 * 2 ^ 17 + row % 2 ^ 15
  else let off := pcoffOf (hbmPlace pa).2; off / 2 ^ 26 % 16 * 2 ^ 17 + off / 2 ^ 11 % 2 ^ 15

/-- PCH, CLASS and SOURCE of a record about memory at a PA (21 R349, R355). -/
def memRec (pa kind cls : Nat) : ErrRec :=
  let ch := chanOf pa
  if ch < 768 then { kind, cls, source := 0x1000 + homeSlice pa, pch := ch, row := rowOf pa, pa }
  else { kind, cls := 5, source := 0x4000 + (ch - 768), pch := ch - 768, row := rowOf pa, pa }

/-- The lowest sector a mask of failed sectors names. -/
def firstSector (mask : Nat) : Nat := ((List.range 8).find? (fun i => mask / 2 ^ i % 2 = 1)).getD 0

/-- The record of an ARRAY_UE, from the first request for the fill (22 R356). PA and VA name the first failed sector, as the
record of the worked program does (22, E4). -/
def State.ueRecord (s : State) (r : FillReq) (mask symbol : Nat) : ErrRec :=
  { memRec (r.line * 256 + 32 * firstSector mask) 0x03 3 with
    flags := 32 + 8 + (if r.va.isSome then 4 else 0), ctxid := r.ctxid,
    va := match r.va with | some v => v / 256 * 256 + 32 * firstSector mask | none => 0, sectors := mask, symbol,
    taskid := r.taskid, phys := match r.core with | some c => s.phys c | none => [0xFF, 0xFF, 0xFF] }

/-- A line is written back to memory where it is dirty, and leaves L2; EVICT is raised for a jet line (17 R308). -/
def State.evictL2 (s : State) (line : Nat) : State :=
  match sget? s.mem.l2 line with
  | none => s
  | some x =>
    let s := s.raise .evict x.part x.jet x.va 0x3FF line x.data x.pois
    let s := s.modMem (fun m => { m with l2 := sdel m.l2 line })
    if !x.dirty then s
    else
      let s := s.modMem (fun m => m.homeWr (line * 256) (x.rd 0 256))
      if x.cmpr && !sget false s.mem.failed (chanOf (line * 256)) then
        { s with freeIx := s.freeIx + 1 }.modMem (fun m => { m with
          cmp := sset m.cmp (paKey (line * 256) / 256) (BitVec.ofNat 3 (Config.storedSize s.freeIx % 5)) })
      else s

/-- The fill that a write-back needs of a line that L2 lacks. -/
def State.fillFor (s : State) (line : Nat) : State := s.askFill { line }

/-- What an agent must wait for, with the state that has asked for its line. -/
def State.waitFor (s : State) (part : Option Nat) (w : Wait) : Option State :=
  match w with
  | .ready => none
  | .fill line va => some (s.askFill (s.fillAt part line va))
  | .hold => some s

/-! ### Lines in L1 -/

/-- A 128-byte line as its home holds it. -/
def State.lineAt (s : State) (line : Nat) (st : L1State) : L1Line :=
  let b := s.mem.homeRd (line * 128) 128
  { st, data := BitVec.ofNat 1024 (pnat b), pois := (quarterPois b).setWidth 4 }

def State.putL1 (s : State) (core line : Nat) (nc : Bool) (x : L1Line) : State :=
  s.modCoreAt core (fun k => { k with l1 := sset k.l1 (l1Key line nc) x })

def State.l1At (s : State) (core line : Nat) (nc : Bool) : Option L1Line := sget? (s.coreAt core).l1 (l1Key line nc)

/-! ### Messages (11 R224, R232) -/

/-- Die number of a line's home: basin die of stack k is number 4 + k. -/
def homeDie (line : Nat) : Nat := 4 + homeSlice (line * 128) / 4

def State.send (s : State) (kind : MsgKind) (line core : Nat) (x : Option L1Line) (req : FillReq := { line := 0 }) : State :=
  let m : Msg := { kind, req, line, core, data := (x.map (·.data)).getD 0, pois := (x.map (·.pois)).getD 0,
                   dirty := x.isSome, sent := s.ptime, inc := (s.dieAt (dieOf core)).incarnation, hinc := (s.dieAt (homeDie line)).incarnation }
  s.modMem (fun y => { y with msgs := y.msgs ++ [m] })

def State.takeMsg (s : State) (i : Nat) : State := s.modMem (fun m => { m with msgs := m.msgs.eraseIdx i })

/-- A die has been reset since a message was sent that is older than 50 µs: the fabric has discarded it (19 R339). -/
def State.outlived (s : State) (m : Msg) (die : Nat) : Bool :=
  m.sent + 50000 < s.ptime && match (s.dieAt die).lastReset with | some t => m.sent < t | none => false

/-- The message comes from before a reset of its core's die, or of the home's. -/
def State.stale (s : State) (m : Msg) : Bool :=
  m.inc ≠ (s.dieAt (dieOf m.core)).incarnation || m.hinc ≠ (s.dieAt (homeDie m.line)).incarnation ||
    s.outlived m (dieOf m.core) || s.outlived m (homeDie m.line)

/-- A response is dropped and counted at the die that it was for (11 R227, R232). -/
def State.dropResponse (s : State) (die : Nat) : State :=
  if die < 4 then s.modDie die (fun d => { d with staleRsp := satInc d.staleRsp })
  else s.modBasin (die - 4) (fun b => { b with staleRsp := satInc b.staleRsp })

/-! ### The directory -/

def State.setDir (s : State) (line : Nat) (e : DirEntry) : State := s.modMem (fun m => { m with dir := sset m.dir line e })
def State.freeDir (s : State) (line : Nat) : State := s.modMem (fun m => { m with dir := sdel m.dir line })

/-- The cluster mask of a list of cores. -/
def clusterMask (l : List Nat) : BitVec 72 := l.foldl (fun m c => setBit m (clusterOf c) true) 0

/-- The state after a GETS of core c has its data (11 R224). -/
def DirEntry.addSharer (e : DirEntry) (c : Nat) : DirEntry :=
  match e.st with
  | .s =>
    if e.sharers.isEmpty then { e with st := .e, owner := c }
    else if e.sharers.contains c then e
    else if e.sharers.length < 3 then { e with sharers := e.sharers ++ [c] }
    else { e with st := .sw, mask := clusterMask (e.sharers ++ [c]), sharers := [] }
  | .sw => { e with mask := setBit e.mask (clusterOf c) true }
  | .e => e
  | .m => e

/-- A requester that the entry records keeps its own copy: a sharer in S, or the owner (11 R224). -/
def State.keepsCopy (s : State) (line c : Nat) (e : DirEntry) : Bool :=
  (s.l1At c line false).isSome && e.st ≠ .sw && e.holders.contains c

/-- The data of a request goes to its core, and the entry takes its next state. -/
def State.giveLine (s : State) (line c : Nat) (m : Bool) (e : DirEntry) : State :=
  if m then
    let x := match (if s.keepsCopy line c e then s.l1At c line false else none) with
      | some x => { x with st := .modified }
      | none => s.lineAt line .modified
    (s.putL1 c line false x).setDir line { st := .m, owner := c, age := e.age }
  else
    let e := { e.addSharer c with busy := none }
    (s.putL1 c line false (s.lineAt line (if e.st = .e then .exclusive else .shared))).setDir line e

/-- The home sends data from L2, or waits for the fill of the line. -/
def State.supply (s : State) (line c : Nat) (m : Bool) (e : DirEntry) (r : FillReq) : State :=
  if (sget? s.mem.l2 (line / 2)).isSome || (m && s.keepsCopy line c e) then s.giveLine line c m e
  else (s.setDir line { e with busy := some (.fill c m) }).askFill { r with line := line / 2 }

/-- Invalidations to some sharers. -/
def State.sendAll (s : State) (kind : MsgKind) (line : Nat) (cores : List Nat) : State :=
  cores.foldl (fun s c => s.send kind line c none) s

/-- A recall by messages of an entry, for a request that needs its way (11 R224, R226). -/
def State.recallBy (s : State) (line : Nat) (e : DirEntry) (x : Msg) : State :=
  let kind := if e.st = .e || e.st = .m then MsgKind.fwdRecall else MsgKind.inv
  (s.sendAll kind line e.holders).setDir line { e with busy := some (.recall e.holders.length x) }

/-- A request takes a free way of its set. -/
def State.allocate (s : State) (x : Msg) : State :=
  (s.modMem (fun y => { y with age := y.age + 1 })).supply x.line x.core (x.kind = .getm) { st := .s, age := s.mem.age } x.req

/-- The recalled entry is free: the overflow is counted, and its way goes to the request that waits for it (11 R226). -/
def State.recalled (s : State) (line : Nat) (x : Msg) : State :=
  let s := (s.freeDir line).modSlice (homeSlice (line * 128)) (fun y => { y with sfovf := satInc y.sfovf })
  if s.stale x then s else s.allocate x

/-- The lines whose entries stand in the set of a line. -/
def State.setOf (s : State) (line : Nat) : SMap DirEntry :=
  s.mem.dir.filter (fun e => homeSlice (e.1 * 128) = homeSlice (line * 128) && homeSet (e.1 * 128) = homeSet (line * 128))

/-- The non-busy entry with the oldest age. -/
def oldest : SMap DirEntry → Option (Nat × DirEntry)
  | [] => none
  | (l, e) :: r =>
    match oldest r with
    | none => if e.busy.isSome then none else some (l, e)
    | some (l', e') => if e.busy.isSome || e'.age < e.age then some (l', e') else some (l, e)

/-- An allocation that finds its set full recalls the oldest non-busy entry, and the request is held with it; where all entries
are busy, it stays where it is (11 R226). -/
def State.overflow (s : State) (i : Nat) (x : Msg) : State :=
  match oldest (s.setOf x.line) with
  | none => s
  | some (l, e) => if e.holders.isEmpty then (s.takeMsg i).recalled l x else (s.takeMsg i).recallBy l e x

/-- The home serves a GETS or GETM for a line that is not busy (11 R224). -/
def State.serve (s : State) (i : Nat) (x : Msg) : State :=
  let line := x.line
  let c := x.core
  let m : Bool := x.kind = .getm
  match sget? s.mem.dir line with
  | none => if 16 ≤ (s.setOf line).length then s.overflow i x else (s.takeMsg i).allocate x
  | some e =>
    let s := s.takeMsg i
    let others := e.holders.filter (fun o => o ≠ c)
    if (e.st = .e || e.st = .m) && e.owner ≠ c then
      (s.send (if m then .fwdGetm else .fwdGets) line e.owner none).setDir line
        { e with busy := some (if m then .fwdGetm c else .fwdGets c) }
    else if m && !others.isEmpty then
      (s.sendAll .inv line others).setDir line { e with busy := some (.getm c others.length x.req) }
    else s.supply line c m e x.req

/-- Message i, when it is of this kind. -/
def State.msgAt (s : State) (i : Nat) (kind : MsgKind) : Option Msg :=
  match s.mem.msgs[i]? with
  | some m => if m.kind = kind then some m else none
  | none => none

def State.request (s : State) (i : Nat) (kind : MsgKind) : State :=
  match s.msgAt i kind with
  | none => s
  | some x =>
    if s.stale x then s.takeMsg i
    else if s.lineBusy x.line then s
    else s.serve i x

/-- GETS at the home (11 R224). -/
def execGets (i : Nat) (s : State) : Host.Outcome State Fault Refusal := .next (s.request i .gets)
/-- GETM at the home (11 R224). -/
def execGetm (i : Nat) (s : State) : Host.Outcome State Fault Refusal := .next (s.request i .getm)

/-- The directory names the core as the owner of the line. -/
def State.owns (s : State) (line core : Nat) : Bool :=
  match sget? s.mem.dir line with | some e => (e.st = .e || e.st = .m) && e.owner = core | none => false

/-- PUTE and PUTM at the home: of the owner, the data is written into L2, which fills the line first where it lacks it, and the
entry freed; of any other core, the data is discarded; either is acknowledged (11 R224). -/
def State.putAt (s : State) (i : Nat) (kind : MsgKind) : State :=
  match s.msgAt i kind with
  | none => s
  | some x =>
    if s.stale x then s.takeMsg i
    else if s.lineBusy x.line then s
    else if !s.owns x.line x.core then (s.takeMsg i).send .putAck x.line x.core none
    else if kind = .putm && !s.inL2 (x.line * 128) then s.fillFor (x.line / 2)
    else
      let s := (s.takeMsg i).send .putAck x.line x.core none
      let l : L1Line := { st := .modified, data := x.data, pois := x.pois }
      (if kind = .putm then s.homeWr (x.line * 128) (l.rd 0 128) else s).freeDir x.line

def execPute (i : Nat) (s : State) : Host.Outcome State Fault Refusal := .next (s.putAt i .pute)
def execPutm (i : Nat) (s : State) : Host.Outcome State Fault Refusal := .next (s.putAt i .putm)

/-- A core holds dirty data of a line for which L2 has no place yet. -/
def State.dirtyAway (s : State) (line core : Nat) : Bool :=
  (match s.copyOf line core with | some x => x.st = .modified | none => false) && !s.inL2 (line * 128)

/-- FWD-GETS at the owner: the data goes to the reader and, when dirty, to L2; the owner's line becomes S (11 R224). -/
def execFwdGets (i : Nat) (s : State) : Host.Outcome State Fault Refusal :=
  match s.msgAt i .fwdGets with
  | none => .next s
  | some x =>
    if s.stale x then .next (s.takeMsg i)
    else if s.dirtyAway x.line x.core then .next (s.fillFor (x.line / 2))
    else
      let s := s.takeMsg i
      match sget? s.mem.dir x.line, s.copyOf x.line x.core with
      | some e, some l =>
        match e.busy with
        | some (.fwdGets c) =>
          let s := s.writeBack x.line x.core
          let s := if (s.l1At x.core x.line false).isSome then s.putL1 x.core x.line false { l with st := .shared } else s
          .next ((s.putL1 c x.line false { l with st := .shared }).setDir x.line { st := .s, sharers := [x.core, c], age := e.age })
        | _ => .next s
      | _, _ => .next s

/-- FWD-GETM at the owner: the data goes to the writer and the owner becomes I (11 R224). -/
def execFwdGetm (i : Nat) (s : State) : Host.Outcome State Fault Refusal :=
  match s.msgAt i .fwdGetm with
  | none => .next s
  | some x =>
    let s := s.takeMsg i
    if s.stale x then .next s
    else
      match sget? s.mem.dir x.line, s.copyOf x.line x.core with
      | some e, some l =>
        match e.busy with
        | some (.fwdGetm c) =>
          .next (((s.dropL1 x.line x.core false).putL1 c x.line false { l with st := .modified }).setDir x.line
            { st := .m, owner := c, age := e.age })
        | _ => .next s
      | _, _ => .next s

/-- INV at a core: its copy is dropped and acknowledged, at once where it has none (11 R224). -/
def execInv (i : Nat) (s : State) : Host.Outcome State Fault Refusal :=
  match s.msgAt i .inv with
  | none => .next s
  | some x =>
    if s.stale x then .next (s.takeMsg i) else .next (((s.takeMsg i).dropL1 x.line x.core false).send .ack x.line x.core none)

/-- FWD-RECALL at the owner: dirty data is written back, the line becomes I, and the recall is acknowledged (11 R224). -/
def execFwdRecall (i : Nat) (s : State) : Host.Outcome State Fault Refusal :=
  match s.msgAt i .fwdRecall with
  | none => .next s
  | some x =>
    if s.stale x then .next (s.takeMsg i)
    else if s.dirtyAway x.line x.core then .next (s.fillFor (x.line / 2))
    else .next ((((s.takeMsg i).writeBack x.line x.core).dropL1 x.line x.core false).send .ack x.line x.core none)

/-- One acknowledgement fewer is awaited; with the last the grant is made or the entry freed (11 R224). -/
def State.ackHome (s : State) (line : Nat) : State :=
  match sget? s.mem.dir line with
  | none => s
  | some e =>
    match e.busy with
    | some (.getm c n r) =>
      if n ≤ 1 then s.supply line c true { e with busy := none } r else s.setDir line { e with busy := some (.getm c (n - 1) r) }
    | some (.recall n x) => if n ≤ 1 then s.recalled line x else s.setDir line { e with busy := some (.recall (n - 1) x) }
    | _ => s

/-- An acknowledgement reaches the home, or a PUT's acknowledgement its core, whose write-back buffer frees (11 R224). A
stale one is dropped and counted (R232). -/
def execAcknowledgement (i : Nat) (s : State) : Host.Outcome State Fault Refusal :=
  match s.mem.msgs[i]? with
  | none => .next s
  | some x =>
    match x.kind with
    | .ack =>
      let s := s.takeMsg i
      if x.hinc ≠ (s.dieAt (homeDie x.line)).incarnation || s.outlived x (homeDie x.line) then .next (s.dropResponse (homeDie x.line)) else .next (s.ackHome x.line)
    | .putAck =>
      let s := s.takeMsg i
      if x.inc ≠ (s.dieAt (dieOf x.core)).incarnation || s.outlived x (dieOf x.core) then .next (s.dropResponse (dieOf x.core))
      else .next (s.modCoreAt x.core (fun k => { k with wb := sdel k.wb x.line }))
    | _ => .next s

/-! ### Evictions of an L1 (11 R223, R228) -/

/-- A dirty NC line goes to the home's L2, whatever the directory holds for its PA. -/
def State.writeNc (s : State) (core line : Nat) : State :=
  match s.l1At core line true with
  | some x => if x.st = .ncDirty then s.homeWr (line * 128) (x.rd 0 128) else s
  | none => s

/-- What the write-back of an NC line waits for: that the line is not busy, and that L2 has a place for it. -/
def State.ncWait (s : State) (core line : Nat) : Wait :=
  match s.l1At core line true with
  | some x => if x.st ≠ .ncDirty then .ready else s.locWait { space := .nc, pa := line * 128 }
  | none => .ready

/-- NC_WRITEBACK: a dirty NC line leaves the L1 and is written to the home (11 R228). -/
def execNcWriteback (core line : Nat) (s : State) : Host.Outcome State Fault Refusal :=
  match s.l1At core line true with
  | some x =>
    if x.st = .ncDirty then
      match s.waitFor none (s.ncWait core line) with
      | some t => .next t
      | none => .next ((s.writeNc core line).dropL1 line core true)
    else .next s
  | none => .next s

/-- What the eviction of the line of key k from an L1 waits for. -/
def State.evictWait (s : State) (core k : Nat) : Wait := if k % 2 = 1 then s.ncWait core (k / 2) else .ready

/-- L1 of a core evicts the line of key k, when it can. -/
def State.evictL1 (s : State) (core k : Nat) : State :=
  match sget? (s.coreAt core).l1 k with
  | none => s
  | some x =>
    match s.waitFor none (s.evictWait core k) with
    | some t => t
    | none =>
    let out (s : State) : State := s.modCoreAt core (fun c => { c with l1 := sdel c.l1 k })
    let put (kind : MsgKind) (d : Option L1Line) : State :=
      ((out s).modCoreAt core (fun c => { c with wb := sset c.wb (k / 2) x })).send kind (k / 2) core d
    match x.st with
    | .shared => out s
    | .exclusive => put .pute none
    | .modified => put .putm (some x)
    | .ncClean => out s
    | .ncDirty => out (s.writeNc core (k / 2))

/-! ### L2 fills -/

/-- The requests that wait for a filled line have their data. -/
def State.giveFilled (s : State) (line : Nat) : State :=
  match sget? s.mem.dir line with
  | some e =>
    match e.busy with
    | some (.fill c m) => s.giveLine line c m { e with busy := none }
    | _ => s
  | none => s

/-- The ways of a slice that a request may fill: those of the partition's mask, and all of the 16 for a request of no partition
or where no way is named (14 R254; log 53). -/
def State.waysFor (s : State) (part : Option Nat) : List Nat :=
  let m : BitVec 16 := ((part.bind (fun p => (s.partAt p).config)).map (fun c => c.l2ways)).getD 0
  (List.range 16).filter (fun w => m = 0 || m.getLsbD w)

/-- Lines that one way of a slice holds: 16 MiB in 256-byte lines over 16 ways (00 R1). -/
def wayLines : Nat := 4096

/-- The lines in a way of a slice. -/
def State.wayOf (s : State) (slice way : Nat) : List Nat :=
  (s.mem.l2.filter (fun x => x.2.way = way && lineSlice x.1 = slice)).map (·.1)

/-- Where a fill goes: the way, and the line that leaves it. A victim that is named leaves its way; otherwise which of the ways,
and which line of a full one, is a free choice. -/
def State.fillPlace (s : State) (r : FillReq) (victim : Option Nat) : (Nat × Option Nat) × State :=
  let slice := lineSlice r.line
  let ways := s.waysFor r.part
  match victim.filter (fun v => lineSlice v = slice && (match sget? s.mem.l2 v with | some x => ways.contains x.way | none => false)) with
  | some v => (((sget? s.mem.l2 v).elim 0 (fun x => x.way), some v), s)
  | none =>
    let way (s : State) : Nat × State := match ways with | [w] => (w, s) | _ => let k := s.pick ways.length; (ways.getD k.1 0, k.2)
    -- a slice that holds less than one way has room in every one
    if (s.mem.l2.filter (fun x => lineSlice x.1 = slice)).length < wayLines then let w := way s; ((w.1, none), w.2)
    else
      let w := way s
      let l := w.2.wayOf slice w.1
      if l.length < wayLines then ((w.1, none), w.2)
      else
        let k := w.2.pick l.length
        ((w.1, l[k.1]?), k.2)

/-- A fill waits while the bank of its line is blocked, or that of the dirty line that it drives out; it is counted once (21
R353). -/
def State.fillBlocked (s : State) (r : FillReq) (victim : Option Nat) : Option State :=
  let dirty (v : Nat) : Bool := match sget? s.mem.l2 v with | some x => x.dirty | none => false
  let at_ (pa : Nat) : Option State :=
    if !s.bankBlocked pa then none
    else if r.waited then some s
    else some ((s.modChan (chanOf pa) (fun c => { c with bankBackoff := satInc c.bankBackoff })).modMem (fun m =>
      { m with fills := m.fills.map (fun f => if f.line = r.line then { f with waited := true } else f) }))
  (at_ (r.line * 256)).or (match victim with | some v => if dirty v then at_ (v * 256) else none | none => none)

/-- A fill completes: the read with its ECC results, the counters and the record, the line in L2 at its way, and the requests that
wait for it (21 R344 to R346; 22 R356; 10 R217). -/
def State.fillLine (s : State) (r : FillReq) (ecc : List EccResult) (way : Nat) : State :=
  let pa := r.line * 256
  let ch := chanOf pa
  let dead := sget false s.mem.failed ch
  let sec := if dead then (List.range 8).map (fun i => ((s.mem.rd (paKey pa + 32 * i) 32).map (fun b => (b.1, true)), false, none))
             else s.mem.eccRead (paKey pa) ecc
  let mask := failedMask sec
  let bytes := sec.flatMap (·.1)
  let ces := (sec.filter (fun e => e.2.1)).length
  let ues := (List.range 8).foldl (fun n i => if mask / 2 ^ i % 2 = 1 then n + 1 else n) 0
  let pois : Byte := (List.range 8).foldl (fun p i => setBit p i (pany ((bytes.drop (32 * i)).take 32))) 0
  let line : L2Line := { data := BitVec.ofNat 2048 (pnat bytes), pois, dirty := ces ≠ 0 || mask ≠ 0,
                         va := r.va.getD 0 / 256 * 256, jet := r.jet, part := r.part.getD 0, way,
                         cmpr := r.cmpr || s.mem.storedSectors (paKey pa) < 8 }
  let s := s.modChan ch (fun c => { c with arrayCe := satAdd c.arrayCe ces, arrayUe := satAdd c.arrayUe ues })
  let s := s.modMem (fun m => { m with fills := m.fills.filter (fun f => f.line ≠ r.line), l2 := sset m.l2 r.line line })
  let s := if mask = 0 then s else s.record r.part (s.ueRecord r mask ((sec.findSome? (·.2.2)).getD 2))
  let s := s.raise .fill line.part line.jet line.va (r.core.getD 0x3FF) r.line line.data line.pois
  (s.giveFilled (2 * r.line)).giveFilled (2 * r.line + 1)

/-- L2_FILL of a line that is asked for. -/
def execL2Fill (line : Nat) (ecc : List EccResult) (victim : Option Nat) (s : State) : Host.Outcome State Fault Refusal :=
  match s.mem.fills.find? (fun f => f.line = line) with
  | none => .next s
  | some r =>
    let x := s.fillPlace r victim
    match x.2.fillBlocked r x.1.2 with
    | some t => .next t
    | none => .next ((match x.1.2 with | some v => x.2.evictL2 v | none => x.2).fillLine r ecc x.1.1)

end Sys2Proof.Machine
end

