-- ==== Sys2Proof/Machine/RangeOps.lean ====
section
/-! DEFINITION. The range instructions RSPLIT, RMERGE, RINV and RPROBE (15 R271 to R273, R278 to R282). -/

namespace Sys2Proof.Machine

/-! ### Writing the range table -/

/-- One entry, written as one 32-byte unit. -/
def State.setEntry (s : State) (part i : Nat) (e : RangeEntry) : State :=
  s.cohWr ((s.partAt part).entryPa i) (clean e.bytes)

/-- The 32 bytes of entries a, a + 1, ... from a list, as they stand. -/
def State.setRaw (s : State) (part : Nat) : Nat → List (List PByte) → State
  | _, [] => s
  | i, e :: r => (s.cohWr ((s.partAt part).entryPa i) e).setRaw part (i + 1) r

/-- The bytes of entries a to RTN − 1, reserved fields and poison with them. -/
def State.rawFrom (s : State) (part a : Nat) : List (List PByte) :=
  (List.range ((s.partAt part).rtn.toNat - a)).map (fun i => s.cohRd ((s.partAt part).entryPa (a + i)) 32)

/-- Entries a to RTN − 1. -/
def State.entriesFrom (s : State) (part a : Nat) : List RangeEntry :=
  (List.range ((s.partAt part).rtn.toNat - a)).map (fun i => s.rangeEntry part (a + i))

/-! ### Residency (15 R266, R279) -/

/-- The 256-byte granule g, counted from VA 0, is present in an entry. -/
def RangeEntry.granule (e : RangeEntry) (g : Nat) : Bool :=
  e.base ≤ g && g ≤ e.limit && e.res.getLsbD ((g - e.base) * 256 / e.sub)

/-- Sub-extent k of an entry as its first granule and their number; none where it starts beyond the limit. -/
def RangeEntry.subExtent (e : RangeEntry) (k : Nat) : Nat × Nat :=
  let u := e.sub / 256
  let first := e.base + k * u
  if e.limit < first then (first, 0) else (first, min u (e.limit + 1 - first))

/-- The present runs of an entry that overlap some granules: whether all of them are present. -/
def RangeEntry.allPresent (e : RangeEntry) (first : Nat) (n : Nat) : Bool :=
  -- the sub-extents of e that hold a granule from first to first + n − 1
  let u := e.sub / 256
  let lo := (first - e.base) / u
  let hi := (first + n - 1 - e.base) / u
  (List.range (hi + 1 - lo)).all (fun i => e.res.getLsbD (lo + i))

/-- The bitmap of a new entry: bit k is set exactly when every byte of its sub-extent k is present by `ok`; it is set where the
sub-extent starts beyond the limit and holds no byte (20 R343). -/
def RangeEntry.resBy (e : RangeEntry) (ok : Nat → Nat → Bool) : Word :=
  (List.range 64).foldl (fun w k =>
    let x := e.subExtent k
    if x.2 = 0 || ok x.1 x.2 then setBit w k true else w) 0

/-- Some byte present in sub-extent k of an old entry, within granules lo to hi, is absent in the new entry. -/
def RangeEntry.loses (old new : RangeEntry) : Bool :=
  (List.range 64).any (fun k =>
    let x := old.subExtent k
    let lo := max x.1 new.base
    let hi := min (x.1 + x.2) (new.limit + 1)
    x.2 ≠ 0 && old.res.getLsbD k && lo < hi && !new.allPresent lo (hi - lo))

/-! ### Edits -/

def statusWord (index : Nat) (loss : Bool) (st : Nat) : Word :=
  BitVec.ofNat 64 (index * 65536 + (if loss then 256 else 0) + st)

/-- Index of the entry whose extent holds a VA, 0 where none does. -/
def State.holder (s : State) (part v : Nat) : Nat :=
  match s.search part v 18 0 ((s.partAt part).rtn.toNat - 1 : Int) none with
  | some f => if v / 256 ≤ (s.rangeEntry part f).limit then f else 0
  | none => 0

/-- What an edit of the table at a VA waits for: the lines of the search, and those of the entries from the one found to one
beyond the last, which it reads and writes at their homes. -/
def State.editWait (s : State) (part v : Nat) : Wait :=
  match s.walkLacks part v with
  | some line => .fill line none
  | none =>
    match s.walkAny part v with
    | none => .ready
    | some e =>
      firstWait ((List.range ((s.partAt part).rtn.toNat + 1 - e.index)).map (fun i =>
        s.locWait { space := .coh, pa := (s.partAt part).entryPa (e.index + i) }))

/-- RSPLIT of a VA (15 R279): the table after it and the status word. -/
def State.rsplit (s : State) (part v : Nat) : State × Word :=
  match s.walkAny part v with
  | none => (s, statusWord (s.holder part v) false 1)
  | some e =>
    let p := s.partAt part
    let f := e.index
    if e.lock then (s, statusWord f false 4)
    else if v / 256 = e.base then (s, statusWord f false 2)
    else if p.rtn = p.rtcap then (s, statusWord f false 3)
    else
      let lo : RangeEntry := { e with limit := v / 256 - 1 }
      let hi : RangeEntry := { e with base := v / 256 }
      let lo := { lo with res := lo.resBy e.allPresent }
      let hi := { hi with res := hi.resBy e.allPresent }
      let tail := s.rawFrom part (f + 1)
      let s := s.setRaw part f (clean lo.bytes :: clean hi.bytes :: tail)
      (s.modPart part (fun p => { p with rtn := p.rtn + 1 }), statusWord (f + 1) (e.loses lo || e.loses hi) 0)

/-- The fields that RMERGE compares. -/
def RangeEntry.alike (a b : RangeEntry) : Bool :=
  { a with index := 0, base := 0, limit := 0, res := 0, lock := false } = { b with index := 0, base := 0, limit := 0, res := 0, lock := false }

/-- RMERGE of a VA (15 R280). -/
def State.rmerge (s : State) (part v : Nat) : State × Word :=
  match s.walkAny part v with
  | none => (s, statusWord (s.holder part v) false 1)
  | some a =>
    let f := a.index
    let n := (s.partAt part).rtn.toNat
    let b := s.rangeEntry part (f + 1)
    if n ≤ f + 1 then (s, statusWord f false 5)
    else if b.base ≤ a.limit then (s, statusWord f false 6)
    else if a.lock || b.lock then (s, statusWord f false 4)
    else if b.base ≠ a.limit + 1 then (s, statusWord f false 5)
    else if !a.alike b then (s, statusWord f false 5)
    else
      let m : RangeEntry := { a with limit := b.limit }
      -- granules first to first + k − 1 are present in the two old entries
      let ok (first k : Nat) : Bool :=
        let inA := min (first + k) (a.limit + 1) - first
        (first ≤ a.limit → inA = 0 ∨ a.allPresent first inA) ∧
          (a.limit < first + k - 1 → b.allPresent (max first b.base) (first + k - max first b.base))
      let m := { m with res := m.resBy ok }
      let tail := s.rawFrom part (f + 2)
      let s := s.setRaw part f (clean m.bytes :: tail)
      (s.modPart part (fun p => { p with rtn := p.rtn - 1 }), statusWord f (a.loses m || b.loses m) 0)

/-! ### Range changes (15 R271 to R273) -/

/-- The contexts of a partition, resident or saved, with their keys. -/
def State.ctxsOf (s : State) (part : Nat) : SMap Ctx := s.ctxs.filter (fun e => partOfKey e.2.owner = part)

/-- Jobs ahead of a marker placed now (15 R273). -/
def State.jobsAhead (s : State) (part : Nat) : List (Nat × Nat) :=
  (s.ctxsOf part).flatMap (fun e => (e.2.jobs.filter (fun j => !j.2.ended)).map (fun j => (e.1, j.1)))

/-- Queue entries translated through an entry that covers a byte of an extent, or through a versioned entry where no VA is
given; what stands behind a RINV of its task is not counted (15 R272). -/
def State.entriesVia (s : State) (part : Nat) (va : Option Nat) (len : Nat) : List (Nat × Nat) :=
  (s.ctxsOf part).flatMap (fun e =>
    ((e.2.ldq ++ e.2.stq).filter (fun q => (e.2.rinvs (some q.id)).isEmpty && q.via.any (fun x =>
      match va with
      | some v => x.1 ≤ (v + len - 1) / 256 && v / 256 ≤ x.2.1
      | none => x.2.2))).map (fun q => (e.1, q.id)))

/-- A range change takes place at this ptime: it places its markers. -/
def State.startChange (s : State) (c : RangeChange) : State :=
  let c := { c with
    time := s.ptime, ahead := s.jobsAhead c.part,
    copies := (s.copyjobs.filter (fun j => partOfKey j.k = c.part)).map (fun j => j.num),
    entries := s.entriesVia c.part c.va c.len }
  { s with changes := s.changes ++ [c] }

/-- The entries covering a VA leave a core's RTLB and matrix range table. -/
def Core.dropRange (k : Core) (v : Nat) : Core :=
  { k with rtlb := k.rtlb.filter (fun c => !c.entry.covers v), mrt := k.mrt.filter (fun c => !c.entry.covers v) }

/-! ### The instructions -/

/-- The checks of s<a> of RSPLIT, RMERGE and RINV (15 R278). -/
def State.rangeVaCheck (s : State) (r : M) : Verdict :=
  let v := (s.ctx.sreg r.a).v.toNat
  firstTrap [consumeS s.ctx r.a, trapIf (13 * 2 ^ 48 ≤ v) { cause := .window, va := v % 2 ^ 52 },
    trapIf (v % 256 ≠ 0) { cause := .align, va := v }]

def rangeSem (r : M) (dsts : List FReg) (op : Nat → QOp) (mark : Option Dest) : SlotSem :=
  { guard := some r.g, srcs := [(.s r.a, r.ta)], dsts, need := (1, 1),
    stat := fun s => if s.supervisor then none else some .priv,
    run := fun s => s.rangeVaCheck r,
    eff := fun s =>
      let v := (s.ctx.sreg r.a).v.toNat
      let e : QEntry := { id := s.ctx.entryId s.cur.bslot 0, slot := s.cur.bslot, op := op v, va := v }
      s.modCtx (fun c =>
        let c := c.enqueue true true e
        match mark with | some d => c.mark d | none => c) }

def semRsplit (r : M) : SlotSem := rangeSem r [.s r.d] (.rsplit r.d) (some (.s r.d))
def semRmerge (r : M) : SlotSem := rangeSem r [.s r.d] (.rmerge r.d) (some (.s r.d))
def semRinv (r : M) : SlotSem := rangeSem r [] .rinv none

def bit64 (b : Bool) (n : Nat) : Nat := if b then 2 ^ n else 0

/-- The word of RPROBE for a VA (15 R282), through the core's RTLB, which has missed where the walk found no entry. -/
def State.rprobe (s : State) (va : Word) : Word :=
  let no (sub index cause : Nat) : Word := BitVec.ofNat 64 (2 ^ 63 + sub * 2 ^ 24 + index * 2 ^ 8 + cause)
  match s.resolve va with
  | .global v room =>
    if room = 0 then no 0 0 0x16
    else
      let part := partOfKey s.ctx.owner
      match lookup s.core.rtlb part s.ptime v with
      | none => no 0 0 0x10
      | some c =>
        let e := c.entry
        if !e.res.getLsbD (e.subOf v) then no (e.subOf v) e.index 0x12
        else BitVec.ofNat 64 (bit64 e.lock 56 + e.kind * 2 ^ 54 + bit64 e.x 53 + bit64 e.w 52 + bit64 e.r 51 + c.pa v % 2 ^ 51)
  | .spad _ _ _ => no 0 0 0x16
  | .bad _ => no 0 0 0x16

/-- A variable-latency value on its way to a scalar register. -/
def Ctx.arriveS (c : Ctx) (slot : Nat) (d : BitVec 6) (v : Word) (p : Bool) : Ctx :=
  let a : Arrived := { dest := .s d, slot, val := v.setWidth 1024, wm := BitVec.allOnes 1024, pois := pois1 p, pm := 1 }
  { c with arrived := c.arrived ++ [a] }

/-- The translation of a RPROBE: it waits for the context's RINVs of the range (15 R281), and where the RTLB has no entry for
a walk. -/
def State.probeCheck (s : State) (va : Word) : Verdict :=
  match s.resolve va with
  | .global v room =>
    if room = 0 then .go
    else
      match lookup s.core.rtlb (partOfKey s.ctx.owner) s.ptime v with
      | some c => if s.ctx.rinvs.any c.entry.covers then .freeze else .go
      | none => if s.core.missVa = some (v / 32) then .go else .walk v
  | .spad _ _ _ => .go
  | .bad _ => .go

def semRprobe (r : M) : SlotSem :=
  { guard := some r.g, srcs := [(.s r.a, r.ta)], dsts := [.s r.d],
    run := fun s => match firstTrap [consumeS s.ctx r.a] with | .go => s.probeCheck (s.ctx.sreg r.a).v | v => v,
    eff := fun s =>
      let v := s.rprobe (s.ctx.sreg r.a).v
      (s.modCtx (fun c => (c.arriveS s.cur.bslot r.d v false).mark (.s r.d))).modCore (fun k => { k with missVa := none }) }

def execRsplit (r : M) (s : State) : Host.Outcome State Fault Refusal := runSlot (.rsplit r) (semRsplit r) s
def execRmerge (r : M) (s : State) : Host.Outcome State Fault Refusal := runSlot (.rmerge r) (semRmerge r) s
def execRinv (r : M) (s : State) : Host.Outcome State Fault Refusal := runSlot (.rinv r) (semRinv r) s
def execRprobe (r : M) (s : State) : Host.Outcome State Fault Refusal := runSlot (.rprobe r) (semRprobe r) s

end Sys2Proof.Machine
end

