-- ==== Sys2Proof/Machine/Sync.lean ====
section
/-! DEFINITION. Semaphores (08 R184; 09 R205, R206), phasers and the barrier ring (08 R185, R186; 09 R207, R208), and
pointer tests (08 R187). -/

namespace Sys2Proof.Machine

/-! ### Semaphores of cores and of member tasks -/

def State.addSem (s : State) (core n count : Nat) : State := s.modCoreAt core (fun k => k.addSem s.cycles n count)

/-- The core numbers at which the state of fontanier context k stands: those of its image while it is out. -/
def State.baseOf (s : State) (k : Nat) : Nat :=
  if (s.partAt (partOfKey k)).resident = some k then 0 else imageBase k

/-- An increment for task t of the launch of context k: on its core, held while it waits in the dispatcher, discarded once
it has retired or is skipped (09 R206). -/
def State.taskSem (s : State) (k base t n count : Nat) : State :=
  match (s.fctxAt k).launch with
  | none => s
  | some l =>
    match sget .waiting l.tasks t with
    | .resident c _ => s.addSem (base + c) n count
    | .waiting =>
      s.modFctx k (fun f => { f with launch := f.launch.map (fun l =>
        { l with held := l.held ++ [{ task := t, sem := n, count }] }) })
    | .retired _ _ => s
    | .skipped => s

/-- One increment per member task of a group. -/
def State.groupSem (s : State) (k base g n count : Nat) : State :=
  match (s.fctxAt k).launch with
  | none => s
  | some l => ((l.members g).getD []).foldl (fun s t => s.taskSem k base t n count) s

/-! ### SEMSIG (08 R184) -/

/-- A SEMSIG target that names something of the launch. -/
def State.semTargetOk (s : State) (t : Word) : Bool :=
  match s.launchOf s.ctx with
  | none => false
  | some l =>
    let v := t.toNat
    if 2 ^ 15 ≤ v then false
    else if t.getLsbD 14 then v / 4096 % 4 = 0 && (l.members (v / 16 % 256)).isSome
    else if v / 16 % 1024 = 0x3FF then !s.isSluice
    else l.cores.contains (v / 16 % 1024)

def semSemsig (r : M) : SlotSem :=
  { guard := some r.g, srcs := [(.s r.a, r.ta), (.s r.x, r.ta)], need := (0, 1),
    run := fun s => firstTrap [consumeS s.ctx r.a, consumeS s.ctx r.x,
      trapIf (!s.semTargetOk (s.ctx.sreg r.a).v) { cause := .format }],
    eff := fun s =>
      let e : QEntry := { id := s.ctx.entryId s.cur.bslot 0, slot := s.cur.bslot,
                          op := .semsig (s.ctx.sreg r.a).v.toNat ((s.ctx.sreg r.x).v.toNat % 65536) }
      s.modCtx (fun c => c.enqueue false true e) }

/-- A SEMSIG performs. -/
def State.semsig (s : State) (target count : Nat) : State :=
  let n := target % 16
  let base := coreBase s.cur.core
  if count = 0 then s
  else if target / 2 ^ 14 % 2 = 1 then s.groupSem s.ctx.owner base (target / 16 % 256) n count
  else if target / 16 % 1024 = 0x3FF then s.addSem s.cur.core n count
  else s.addSem (base + target / 16 % 1024) n count

/-! ### Phaser ids (08 R185) -/

/-- Key of a phaser: cluster phasers, die phasers, package phasers; those of a saved image above 32,768. -/
def phaserKey (id : Nat) (own : Nat) : Nat :=
  match id / 2 ^ 30 with
  | 0 => (if id / 2 ^ 22 % 256 = 0xFF then own else id / 2 ^ 22 % 256) * 64 + id % 64
  | 1 => 8192 + id / 2 ^ 20 % 4 * 256 + id % 256
  | _ => 16384 + id % 64

/-- The fields outside the scope's are zero. -/
def phaserForm (id : Nat) : Bool :=
  match id / 2 ^ 30 with
  | 0 => id / 64 % 2 ^ 16 = 0
  | 1 => id / 256 % 2 ^ 12 = 0 && id / 2 ^ 22 % 256 = 0
  | 2 => id / 64 % 2 ^ 24 = 0
  | _ => false

/-- A phaser of the form of R185 allotted to a launch (14 R250, R251); `own` is the issuer's cluster. -/
def Launch.allots (l : Launch) (id own : Nat) : Bool :=
  match id / 2 ^ 30 with
  | 0 => l.cores.contains ((if id / 2 ^ 22 % 256 = 0xFF then own else id / 2 ^ 22 % 256) * 8)
      || l.cores.any (fun c => clusterOf c = (if id / 2 ^ 22 % 256 = 0xFF then own else id / 2 ^ 22 % 256))
  | 1 => l.dies.getLsbD (id / 2 ^ 20 % 4) && l.par.phdie.getLsbD (id % 256 / 4)
  | 2 => l.par.phpkg.getLsbD (id % 64)
  | _ => false

def brbDepth (b : BitVec 39) : Nat := b.toNat / 2 ^ 35
def brbIndex (b : BitVec 39) : Nat := b.toNat / 2 ^ 32 % 8
def brbOrigin (b : BitVec 39) : Nat := b.toNat % 2 ^ 32
def mkBrb (depth index origin : Nat) : BitVec 39 := BitVec.ofNat 39 (depth * 2 ^ 35 + index * 2 ^ 32 + origin)

/-- A ring-relative id resolved through BRB; any other id is itself (08 R185). -/
def Ctx.ringId (c : Ctx) (id : Nat) : Option Nat :=
  if id / 2 ^ 30 = 3 then
    if id / 8 % 2 ^ 27 = 0 && id % 8 < brbDepth c.brb then some (brbOrigin c.brb + (brbIndex c.brb + id % 8) % brbDepth c.brb)
    else none
  else some id

/-- The phaser that an id names, none where it traps with PHASER_FAULT. -/
def State.phaser? (s : State) (v : Word) : Option Nat :=
  match s.launchOf s.ctx with
  | none => none
  | some l =>
    if 2 ^ 32 ≤ v.toNat then none
    else
      match s.ctx.ringId v.toNat with
      | none => none
      | some id =>
        if phaserForm id && l.allots id (clusterOf s.cur.core) then
          some (coreBase s.cur.core * 4 + phaserKey id (clusterOf s.cur.core))
        else none

/-! ### Phases (08 R186) -/

def PhMode.signals : PhMode → Bool
  | .signalOnly => true
  | .waitOnly => false
  | .signalWait => true

def PhMode.code : PhMode → Nat
  | .signalOnly => 0
  | .waitOnly => 1
  | .signalWait => 2

/-- What stands under one context's key stands under another. -/
def Phaser.rename (p : Phaser) (old new : Nat) : Phaser :=
  let f (m : Member) : Member := if m.ctx = old then { m with ctx := new } else m
  { p with members := p.members.map f, joining := p.joining.map f, leaving := p.leaving.map (fun k => if k = old then new else k) }

/-- The member that stands for a context, or for a job of it. -/
def Member.is (m : Member) (ctx : Nat) (job : Option Nat) : Bool := m.ctx = ctx && m.job = job

def Phaser.member (p : Phaser) (ctx : Nat) (job : Option Nat) : Option Member := p.members.find? (fun m => m.is ctx job)

/-- The phase advances when every signalling member has signalled, at least one exists and no bound job is FAULTED. -/
def Phaser.ready (p : Phaser) : Bool :=
  let l := p.members.filter (fun m => m.mode.signals)
  !l.isEmpty && l.all (fun m => m.signalled) && p.faulted = 0

/-- Registrations and drops take effect, and every signal is cleared. -/
def Phaser.advance (p : Phaser) : Phaser :=
  if p.ready then
    let kept := p.members.filter (fun m => !p.joining.any (fun j => j.is m.ctx m.job))
    let all := kept ++ p.joining
    -- a job signals once, when it completes, and is no member of a later phase
    let all := all.filter (fun m => !(m.job.isNone && p.leaving.contains m.ctx) && !(m.job.isSome && m.signalled))
    { p with phase := p.phase + 1, members := all.map (fun m => { m with signalled := false }), joining := [], leaving := [] }
  else p

/-- The context's ring has no member of it left: BRB becomes 0 (09 R208). -/
def State.ringDone (s : State) (ctx : Nat) : State :=
  let c := s.ctxAt ctx
  let d := brbDepth c.brb
  let core := ctx / 8
  let keys := (List.range d).map (fun j => coreBase core * 4 + phaserKey (brbOrigin c.brb + j) (clusterOf core))
  if d ≠ 0 && keys.all (fun k => ((s.phaserAt k).member ctx none).isNone && !(s.phaserAt k).joining.any (fun m => m.is ctx none)) then
    s.setCtxAt ctx { c with brb := 0 }
  else s

/-- A phaser changes, its phase advances where it can, and rings whose last drop took effect end. -/
def State.phaserStep (s : State) (k : Nat) (f : Phaser → Phaser) : State :=
  let p := f (s.phaserAt k)
  let left := if p.ready then p.leaving else []
  left.foldl (fun s c => s.ringDone c) { s with phasers := sset s.phasers k p.advance }

/-- A registration, at once where no member has signalled the current phase, else at the next boundary. -/
def Phaser.register (p : Phaser) (m : Member) : Phaser :=
  let p := { p with leaving := p.leaving.filter (fun c => c ≠ m.ctx) }
  if p.members.any (fun x => x.signalled) then
    { p with joining := p.joining.filter (fun x => !x.is m.ctx m.job) ++ [m] }
  else { p with members := p.members.filter (fun x => !x.is m.ctx m.job) ++ [m],
                joining := p.joining.filter (fun x => !x.is m.ctx m.job) }

/-- A drop waits for the next boundary; by a context that is neither a member nor registered for one, nothing (R186). -/
def Phaser.drop (p : Phaser) (ctx : Nat) : Phaser :=
  if (p.member ctx none).isSome || p.joining.any (fun m => m.is ctx none) then
    { p with leaving := if p.leaving.contains ctx then p.leaving else p.leaving ++ [ctx] }
  else p

def Phaser.signal (p : Phaser) (ctx : Nat) (job : Option Nat) : Phaser :=
  { p with members := p.members.map (fun m => if m.is ctx job then { m with signalled := true } else m) }

/-- The phase that a wait past `from` waits for has come (08 R186, PHWAIT). -/
def Phaser.past (p : Phaser) (x : Word32) : Bool :=
  let d := (p.phase - x).toNat
  1 ≤ d && d ≤ 2 ^ 31

/-! ### Phaser instructions (08 R186) -/

def phaserFault (s : State) (v : Word) : Option TrapInfo := trapIf (s.phaser? v).isNone { cause := .phaserFault }

def phregMode (r : M) : PhMode := match r.fn.toNat with | 0 => .signalOnly | 1 => .waitOnly | _ => .signalWait
def phregDepth (r : M) : Nat := r.f.toNat % 16

/-- The ids that a PHREG registers: s<a>, or the D consecutive ids from it. -/
def phregIds (r : M) (v : Word) : List Word :=
  if phregDepth r = 0 then [v] else (List.range (phregDepth r)).map (fun j => v + BitVec.ofNat 64 j)

def semPhreg (r : M) : SlotSem :=
  { guard := some r.g, srcs := [(.s r.a, r.ta)],
    run := fun s =>
      let v := (s.ctx.sreg r.a).v
      firstTrap ([consumeS s.ctx r.a] ++ (phregIds r v).map (phaserFault s)
        ++ [trapIf (phregDepth r ≠ 0 && brbDepth s.ctx.brb ≠ 0) { cause := .format }]),
    eff := fun s =>
      let v := (s.ctx.sreg r.a).v
      let m : Member := { ctx := s.key, job := none, mode := phregMode r, signalled := false }
      let keys := (phregIds r v).filterMap s.phaser?
      let s := keys.foldl (fun s k => s.phaserStep k (fun p => p.register m)) s
      if phregDepth r = 0 then s
      else s.modCtx (fun c => { c with brbNext := some (mkBrb (phregDepth r) 0 (v.toNat % 2 ^ 32)) }) }

/-- The phasers that a PHDROP leaves: all D of the ring where the id is the ring's origin (09 R208). -/
def State.dropKeys (s : State) (v : Word) : List Nat :=
  let d := brbDepth s.ctx.brb
  if d ≠ 0 && v.toNat = brbOrigin s.ctx.brb then (List.range d).filterMap (fun j => s.phaser? (v + BitVec.ofNat 64 j))
  else (s.phaser? v).toList

def semPhdrop (r : M) : SlotSem :=
  { guard := some r.g, srcs := [(.s r.a, r.ta)],
    run := fun s => firstTrap [consumeS s.ctx r.a, phaserFault s (s.ctx.sreg r.a).v],
    eff := fun s => (s.dropKeys (s.ctx.sreg r.a).v).foldl (fun s k => s.phaserStep k (fun p => p.drop s.key)) s }

/-- A signal to the phaser still stands in the store queue. -/
def Ctx.signalQueued (c : Ctx) (k : Nat) : Bool :=
  c.stq.any (fun e => match e.op with | .phsig j => j = k | .phsw j => j = k | _ => false)

/-- The check of a signal: a signalling member that has not signalled goes; one that has, or whose registration waits for the
boundary, freezes the core; any other context traps. -/
def State.signalVerdict (s : State) (v : Word) : Verdict :=
  match s.phaser? v with
  | none => .trap { cause := .phaserFault }
  | some k =>
    let p := s.phaserAt k
    match p.member s.key none with
    | some m =>
      if m.mode.signals then (if m.signalled || s.ctx.signalQueued k then .freeze else .go)
      else if p.joining.any (fun m => m.is s.key none && m.mode.signals) then .freeze
      else .trap { cause := .phaserFault }
    | none =>
      if p.joining.any (fun m => m.is s.key none && m.mode.signals) then .freeze else .trap { cause := .phaserFault }

def semPhsig (r : M) : SlotSem :=
  { guard := some r.g, srcs := [(.s r.a, r.ta)], need := (0, 1),
    run := fun s => consumeThen [consumeS s.ctx r.a] (s.signalVerdict (s.ctx.sreg r.a).v),
    eff := fun s =>
      let e : QEntry := { id := s.ctx.entryId s.cur.bslot 0, slot := s.cur.bslot, op := .phsig ((s.phaser? (s.ctx.sreg r.a).v).getD 0) }
      s.modCtx (fun c => c.enqueue false true e) }

/-- A wait past a phase, which freezes the core until it ends, by the instruction at a place in program order. -/
def Ctx.waitOn (c : Ctx) (id k : Nat) (x : Word32) : Ctx := { c with phwait := c.phwait ++ [(k, x, id)] }

def semPhwait (r : M) : SlotSem :=
  { guard := some r.g, srcs := [(.s r.a, r.ta), (.s r.x, r.ta)],
    run := fun s => firstTrap [consumeS s.ctx r.a, consumeS s.ctx r.x, phaserFault s (s.ctx.sreg r.a).v],
    eff := fun s =>
      let k := (s.phaser? (s.ctx.sreg r.a).v).getD 0
      s.modCtx (fun c => c.waitOn (c.entryId s.cur.bslot 0) k ((c.sreg r.x).v.setWidth 32)) }

def semPhsw (r : M) : SlotSem :=
  { guard := some r.g, srcs := [(.s r.a, r.ta), (.s r.x, r.ta)], need := (1, 1),
    run := fun s => consumeThen [consumeS s.ctx r.a, consumeS s.ctx r.x] (s.signalVerdict (s.ctx.sreg r.a).v),
    eff := fun s =>
      let k := (s.phaser? (s.ctx.sreg r.a).v).getD 0
      let e : QEntry := { id := s.ctx.entryId s.cur.bslot 0, slot := s.cur.bslot, op := .phsw k }
      s.modCtx (fun c => (c.enqueue true true e).waitOn e.id k ((c.sreg r.x).v.setWidth 32)) }

/-- The word that PHSTAT returns. -/
def State.phstat (s : State) (k : Nat) : Word :=
  let p := s.phaserAt k
  let b (x : Bool) (n : Nat) : Nat := if x then 2 ^ n else 0
  let m := p.member s.key none
  BitVec.ofNat 64 (p.phase.toNat + b (p.faulted ≠ 0) 32 + p.dropf.toNat * 2 ^ 33 + b m.isSome 41
    + (match m with | some m => m.mode.code | none => 0) * 2 ^ 42)

def semPhstat (r : M) : SlotSem :=
  { guard := some r.g, srcs := [(.s r.a, r.ta)], dsts := [.s r.d],
    run := fun s => firstTrap [consumeS s.ctx r.a, phaserFault s (s.ctx.sreg r.a).v],
    eff := fun s =>
      let v := s.phstat ((s.phaser? (s.ctx.sreg r.a).v).getD 0)
      s.modCtx (fun c => c.issueS s.cur.bslot 2 r.d v false) }

/-- RING: the index advances for the bundles after this one. -/
def semRing (r : M) : SlotSem :=
  { guard := some r.g,
    run := fun s => firstTrap [trapIf (brbDepth s.ctx.brb = 0) { cause := .format }],
    eff := fun s => s.modCtx (fun c =>
      let b := c.brbNext.getD c.brb
      { c with brbNext := some (mkBrb (brbDepth b) ((brbIndex b + 1) % brbDepth b) (brbOrigin b)) }) }

/-! ### Pointer tests (08 R187) -/

def spadVa (tag off : Nat) : Nat := 15 * 2 ^ 48 + tag * 2 ^ 38 + off
def clusterVa (tag member off : Nat) : Nat := 14 * 2 ^ 48 + tag * 2 ^ 40 + member * 2 ^ 37 + off

/-- The code of SPTEST; `core` is the issuer's core id. -/
def sptest (core v : Nat) : Nat :=
  match pointerOf v with
  | .global => 0
  | .private_ => 1
  | .cluster tag _ _ => if tag = 0xFF || tag = core / 8 then 2 else 3
  | .spad tag _ => if tag = 0x3FF || tag = core then 4 else 5
  | .malformed => 7

def castExplicit (core v : Nat) : Nat :=
  match pointerOf v with | .spad tag off => if tag = 0x3FF then spadVa core off else v | _ => v
def castSelf (core v : Nat) : Nat :=
  match pointerOf v with | .spad tag off => if tag = core then spadVa 0x3FF off else v | _ => v
/-- A scratchpad pointer of any core, the self tag naming the issuer's. -/
def castToCluster (core v : Nat) : Nat :=
  match pointerOf v with
  | .spad tag off =>
    let c := if tag = 0x3FF then core else tag
    clusterVa (if c / 8 = core / 8 then 0xFF else c / 8) (c % 8) off
  | _ => v
def castFromCluster (core v : Nat) : Nat :=
  match pointerOf v with
  | .cluster tag member off => spadVa (8 * (if tag = 0xFF then core / 8 else tag) + member) off
  | _ => v
def castClExplicit (core v : Nat) : Nat :=
  match pointerOf v with | .cluster tag member off => if tag = 0xFF then clusterVa (core / 8) member off else v | _ => v
def castClSelf (core v : Nat) : Nat :=
  match pointerOf v with | .cluster tag member off => if tag = core / 8 then clusterVa 0xFF member off else v | _ => v

def pointerSem (r : M) (f : Nat → Nat → Nat) : SlotSem :=
  { guard := some r.g, srcs := [(.s r.a, r.ta)], dsts := [.s r.d],
    eff := fun s => s.modCtx (fun c =>
      c.issueS s.cur.bslot 2 r.d (BitVec.ofNat 64 (f (coreNo s.cur.core) (c.sreg r.a).v.toNat)) (c.sreg r.a).pois) }

def semSptest (r : M) : SlotSem := pointerSem r sptest
def semSpcastExplicit (r : M) : SlotSem := pointerSem r castExplicit
def semSpcastSelf (r : M) : SlotSem := pointerSem r castSelf
def semSpcastTocluster (r : M) : SlotSem := pointerSem r castToCluster
def semSpcastFromcluster (r : M) : SlotSem := pointerSem r castFromCluster
def semSpcastClexplicit (r : M) : SlotSem := pointerSem r castClExplicit
def semSpcastClself (r : M) : SlotSem := pointerSem r castClSelf

/-! ### Execution -/

def execSemsig (r : M) (s : State) : Host.Outcome State Fault Refusal := runSlot (.semsig r) (semSemsig r) s
def execPhreg (r : M) (s : State) : Host.Outcome State Fault Refusal := runSlot (.phreg r) (semPhreg r) s
def execPhdrop (r : M) (s : State) : Host.Outcome State Fault Refusal := runSlot (.phdrop r) (semPhdrop r) s
def execPhsig (r : M) (s : State) : Host.Outcome State Fault Refusal := runSlot (.phsig r) (semPhsig r) s
def execPhwait (r : M) (s : State) : Host.Outcome State Fault Refusal := runSlot (.phwait r) (semPhwait r) s
def execPhsw (r : M) (s : State) : Host.Outcome State Fault Refusal := runSlot (.phsw r) (semPhsw r) s
def execPhstat (r : M) (s : State) : Host.Outcome State Fault Refusal := runSlot (.phstat r) (semPhstat r) s
def execRing (r : M) (s : State) : Host.Outcome State Fault Refusal := runSlot (.ring r) (semRing r) s
def execSptest (r : M) (s : State) : Host.Outcome State Fault Refusal := runSlot (.sptest r) (semSptest r) s
def execSpcastExplicit (r : M) (s : State) : Host.Outcome State Fault Refusal := runSlot (.spcastExplicit r) (semSpcastExplicit r) s
def execSpcastSelf (r : M) (s : State) : Host.Outcome State Fault Refusal := runSlot (.spcastSelf r) (semSpcastSelf r) s
def execSpcastTocluster (r : M) (s : State) : Host.Outcome State Fault Refusal := runSlot (.spcastTocluster r) (semSpcastTocluster r) s
def execSpcastFromcluster (r : M) (s : State) : Host.Outcome State Fault Refusal := runSlot (.spcastFromcluster r) (semSpcastFromcluster r) s
def execSpcastClexplicit (r : M) (s : State) : Host.Outcome State Fault Refusal := runSlot (.spcastClexplicit r) (semSpcastClexplicit r) s
def execSpcastClself (r : M) (s : State) : Host.Outcome State Fault Refusal := runSlot (.spcastClself r) (semSpcastClself r) s

end Sys2Proof.Machine
end

