-- ==== Sys2Proof/Machine/Queues.lean ====
section
/-! DEFINITION. The performing of queue entries (08 R161 to R172): the reading and writing of their parts where 10 R216
places them, atomics, fences, and the home operations of MS ranges and far atomics (11 R229, R230). -/

namespace Sys2Proof.Machine

/-! ### Parts of an access (10 R216, R218; 11 R223) -/

/-- A request of the core for the line is on its way or being served. -/
def State.asking (s : State) (line : Nat) : Bool :=
  let c := s.cur.core
  s.mem.msgs.any (fun m => (m.kind = .gets || m.kind = .getm) && m.line = line && m.core = c) ||
    (match sget? s.mem.dir line with
     | some e =>
       (match e.busy with
        | some (.fill r _) => r = c
        | some (.getm r _ _) => r = c
        | some (.fwdGets r) => r = c
        | some (.fwdGetm r) => r = c
        | some (.recall _ _) => false
        | none => false)
     | none => false) || s.mem.dir.any (fun e => e.2.waiting.any (fun m => m.line = line && m.core = c))

/-- Room for one more line in the core's L1, or the wait for it; which line an eviction takes is a free choice (10 R225). -/
def State.roomL1 (s : State) : Bool × State :=
  let k := s.core
  if k.l1.length < k.l1gran * 2048 then (true, s)
  else
    let r := s.pick k.l1.length
    match k.l1[r.1]? with
    | some x => let t := r.2.evictL1 s.cur.core x.1; (decide (t.core.l1.length < k.l1.length), t)
    | none => (false, r.2)

/-- A miss sends its request, once, and not while a PUT of the line awaits its acknowledgement (11 R223). -/
def State.wantLine (s : State) (pa va : Nat) (m : Bool) : State :=
  let line := pa / 128
  if (sget? s.core.wb line).isSome || s.asking line then s
  else
    let r := s.roomL1
    if r.1 then r.2.send (if m then .getm else .gets) line s.cur.core none (s.fillOf pa va) else r.2

/-- What an access of the current context at the home of a place waits for, with the state that has asked for its line. -/
def State.atHomeWait (s : State) (l : Loc) (va : Nat) : Option State :=
  match s.locWait l with
  | .ready => none
  | .fill line _ => some (s.askFill (s.fillOf (line * 256) va))
  | .hold => some s

/-- The L1's NC copy of a line, filled from the home where there is none; none while the home cannot supply it. -/
def State.ncLine (s : State) (pa va : Nat) : Option L1Line × State :=
  match s.l1At s.cur.core (pa / 128) true with
  | some x => (some x, s)
  | none =>
    match s.atHomeWait { space := .nc, pa } va with
    | some t => (none, t)
    | none => let r := s.roomL1; (if r.1 then some (s.lineAt (pa / 128) .ncClean) else none, r.2)

/-- An access that performs at the home: to an MS range, or by a core without an L1. -/
def State.atHome (s : State) (l : Loc) : Bool := l.space = .ms || (l.space = .coh && s.core.l1gran = 0)

/-- A part is read, or waits: the bytes, and the state with whatever request it needed. -/
def State.readPart (s : State) (l : Loc) (n va : Nat) : Option (List PByte) × State :=
  let c := s.cur.core
  match l.space with
  | .spad => if s.bankGated l then (none, s) else (some (s.rdLoc l n), s)
  | .coh =>
    match s.l1At c (l.pa / 128) false with
    | some x => (some (x.rd (l.pa % 128) n), s)
    | none => (none, s.wantLine l.pa va false)
  | .nc =>
    if s.core.l1gran = 0 then (match s.atHomeWait l va with | some t => (none, t) | none => (some (s.rdLoc l n), s))
    else
      match s.ncLine l.pa va with
      | (some x, t) => (some (x.rd (l.pa % 128) n), t.putL1 c (l.pa / 128) true x)
      | (none, t) => (none, t)
  | .ms => (none, s)
  | .host => if s.dev.pcieUp then (some (s.rdLoc l n), s) else (none, s)
  | .remote => (some (s.rdLoc l n), s)

/-- A part is written, or waits. -/
def State.writePart (s : State) (l : Loc) (b : List PByte) (va : Nat) : Bool × State :=
  let c := s.cur.core
  match l.space with
  | .spad => if s.bankGated l then (false, s) else (true, s.wrLoc l b)
  | .coh =>
    match s.l1At c (l.pa / 128) false with
    | some x =>
      if x.st = .exclusive || x.st = .modified then
        (true, s.putL1 c (l.pa / 128) false { x.wr (l.pa % 128) b with st := .modified })
      else (false, s.wantLine l.pa va true)
    | none => (false, s.wantLine l.pa va true)
  | .nc =>
    if s.core.l1gran = 0 then (match s.atHomeWait l va with | some t => (false, t) | none => (true, s.wrLoc l b))
    else
      match s.ncLine l.pa va with
      | (some x, t) => (true, t.putL1 c (l.pa / 128) true { x.wr (l.pa % 128) b with st := .ncDirty })
      | (none, t) => (false, t)
  | .ms => (false, s)
  | .host => if s.dev.pcieUp then (true, s.wrLoc l b) else (false, s)
  | .remote => (true, s.wrLoc l b)

/-- The context has stored to the sectors of a part (11 R231). -/
def Ctx.noteStore (c : Ctx) (l : Loc) : Ctx :=
  if (l.space = .coh || l.space = .nc || l.space = .ms) && paWin l.pa ≤ 2 && !c.stored.contains (l.pa / 32) then
    { c with stored := l.pa / 32 :: c.stored }
  else c

/-! ### Entries -/

/-- Held in both queues (08 R161; 15 R278). -/
def QOp.both : QOp → Bool
  | .atom _ _ _ _ _ _ => true
  | .qmark => true
  | .fence _ _ _ => true
  | .phsw _ => true
  | .rocall _ _ _ _ => true
  | .rsplit _ _ => true
  | .rmerge _ _ => true
  | .rinv _ => true
  | .load _ _ _ _ => false
  | .loadv _ _ _ => false
  | .wset _ _ => false
  | .store _ _ _ _ => false
  | .cflush _ _ => false
  | .semsig _ _ => false
  | .phsig _ => false
  | .jetmsg _ _ => false
  | .matrix => false
  | .mmst _ => false

/-- The entry has performed and frees. -/
def Ctx.dropEntry (c : Ctx) (id : Nat) : Ctx :=
  { c with ldq := c.ldq.filter (fun e => e.id ≠ id), stq := c.stq.filter (fun e => e.id ≠ id) }

/-- The entry is replaced in the queues that hold it. -/
def Ctx.setEntry (c : Ctx) (e : QEntry) : Ctx :=
  { c with ldq := c.ldq.map (fun x => if x.id = e.id then e else x), stq := c.stq.map (fun x => if x.id = e.id then e else x) }

/-- The entry stands at the head of every queue that holds it. -/
def Ctx.atHead (c : Ctx) (e : QEntry) : Bool :=
  (c.ldq.all (fun x => x.id ≠ e.id) || c.ldq.head?.map (·.id) = some e.id) &&
    (c.stq.all (fun x => x.id ≠ e.id) || c.stq.head?.map (·.id) = some e.id)

/-- Bits of the lanes that bytes hold, with the poison of each lane's sector. -/
def lanePois (l : List PByte) : BitVec 32 :=
  (List.range (l.length / 4)).foldl (fun p i => if pany ((l.drop (4 * i)).take 4) then setBit p i true else p) 0

/-- n low bits set. -/
def lowMask (w n : Nat) : BitVec w := BitVec.ofNat w (2 ^ n - 1)

/-- What a load's bytes land as (08 R164, R167). -/
def landedOf (op : QOp) (slot : Nat) (b : List PByte) : Option Arrived :=
  match op with
  | .load d n signed _ =>
    let v : Nat := pnat b
    let w : Word := if signed && 2 ^ (8 * n - 1) ≤ v then BitVec.ofInt 64 ((v : Int) - (2 ^ (8 * n) : Nat)) else BitVec.ofNat 64 v
    some { dest := .s d, slot, val := w.setWidth 1024, wm := BitVec.allOnes 1024, pois := pois1 (pany b), pm := 1 }
  | .loadv d n _ =>
    some { dest := .v d, slot, val := BitVec.ofNat 1024 (pnat b), wm := lowMask 1024 (8 * n), pois := lanePois b, pm := lowMask 32 (n / 4) }
  | .wset d _ =>
    some { dest := .w d, slot, val := BitVec.ofNat 1024 (pnat b), wm := BitVec.allOnes 1024, pois := pois1 (pany b), pm := 1 }
  | _ => none

/-- The bytes that a store writes in its part number k, each with its lane's poison. -/
def QEntry.part (e : QEntry) (data : BitVec 4096) (pois : BitVec 128) (k : Nat) : List PByte :=
  let before := (e.locs.take k).foldl (fun n l => n + l.2) 0
  let n := match e.locs[k]? with | some l => l.2 | none => 0
  (List.range n).map (fun i => ((data.extractLsb' (8 * (before + i)) 8 : Byte), pois.getLsbD ((before + i) / 4)))

/-- The bytes that an MMST writes in its part number k. -/
def QEntry.rowPart (e : QEntry) (rows : List (BitVec 4096 × BitVec 128)) (k : Nat) : List PByte :=
  let before := (e.locs.take k).foldl (fun n l => n + l.2) 0
  let n := match e.locs[k]? with | some l => l.2 | none => 0
  let row := rows.getD (before / 512) (0, 0)
  (List.range n).map (fun i => ((row.1.extractLsb' (8 * (before % 512 + i)) 8 : Byte), row.2.getLsbD ((before % 512 + i) / 4)))

/-- What a store entry writes in its part number k. -/
def QEntry.partData (e : QEntry) (k : Nat) : List PByte :=
  match e.op with
  | .store data _ pois _ => e.part data pois k
  | .mmst rows => e.rowPart rows k
  | _ => []

/-- VA of part k. -/
def QEntry.partVa (e : QEntry) (k : Nat) : Nat :=
  let before := (e.locs.take k).foldl (fun n l => n + l.2) 0
  match e.rows[before / 512]? with
  | some v => v + before % 512
  | none => e.va + before

/-- A part has been read: the next part follows, and with the last the value is on its way. -/
def Ctx.gotPart (c : Ctx) (e : QEntry) (b : List PByte) : Ctx :=
  let e := { e with got := e.got ++ b, done := e.done + 1, sent := false }
  if e.done < e.locs.length then c.setEntry e
  else { c.dropEntry e.id with arrived := c.arrived ++ (landedOf e.op e.slot e.got).toList }

/-- A part of an entry has been read; the bytes of an MMLD go to its place in the matrix queue with the last part. -/
def State.gotPart (s : State) (e : QEntry) (b : List PByte) : State :=
  let s := s.modCtx (fun c => c.gotPart e b)
  if e.op = .matrix && e.done + 1 = e.locs.length then
    s.modCore (fun k => { k with matq := k.matq.map (fun x =>
      match x.op with
      | .mmld a _ => if x.seq = e.id && x.slot = s.cur.slot then { x with op := .mmld a (some (e.got ++ b)) } else x
      | _ => x) })
  else s

def Ctx.wrotePart (c : Ctx) (e : QEntry) (l : Loc) : Ctx :=
  let e := { e with done := e.done + 1, sent := false }
  let c := c.noteStore l
  if e.done < e.locs.length then c.setEntry e else c.dropEntry e.id

/-- A home operation is sent for the entry's part, once. -/
def State.sendHome (s : State) (e : QEntry) (far : Bool) : State :=
  if e.sent then s
  else (s.modCtx (fun c => c.setEntry { e with sent := true })).modMem
    (fun m => { m with homeops := m.homeops ++ [{ ctx := s.key, id := e.id, far }] })

/-! ### Full/empty accesses (08 R165) -/

/-- The line of a scratchpad byte. -/
def Loc.spadLine (l : Loc) : Nat := l.pa / 128

def State.lineFull (s : State) (line : Nat) : Bool := sget false s.mem.full line
def State.setFull (s : State) (line : Nat) (b : Bool) : State := s.modMem (fun m => { m with full := setFlag m.full line b })

/-- The access and the change of the bit are one step; an entry whose line has the other bit waits. -/
def State.performFe (s : State) (e : QEntry) : State :=
  match e.locs with
  | [] => s.modCtx (fun c => c.dropEntry e.id)
  | (l, _) :: _ =>
    if s.bankGated l then s
    else
      match e.op with
      | .store data _ pois _ =>
        if s.lineFull l.spadLine then s
        else
          let b := (List.range e.locs.length).flatMap (fun k => e.part data pois k)
          ((s.wrPieces e.locs b).setFull l.spadLine true).modCtx (fun c => c.dropEntry e.id)
      | op =>
        if !s.lineFull l.spadLine then s
        else
          let b := s.rdPieces e.locs
          (s.setFull l.spadLine false).modCtx (fun c => { c.dropEntry e.id with arrived := c.arrived ++ (landedOf op e.slot b).toList })

/-! ### Atomics (08 R169, R170) -/

/-- The value written back, and the flags of fadd. -/
def atomNew (op : AtomOp) (n : Nat) (old x c : Nat) : Nat × BitVec 5 :=
  let so := signedOf n old
  let sx := signedOf n x
  match op with
  | .swap => (x, 0)
  | .cas => (if old = c then x else old, 0)
  | .add => ((old + x) % 2 ^ n, 0)
  | .and => (Nat.land old x, 0)
  | .or => (Nat.lor old x, 0)
  | .xor => (Nat.xor old x, 0)
  | .min => (if so < sx then old else x, 0)
  | .max => (if sx < so then old else x, 0)
  | .minu => (if old < x then old else x, 0)
  | .maxu => (if x < old then old else x, 0)
  | .fadd =>
    let r := Num.add 0 (f32.num old) (f32.num x)
    let q := f32.round { rm := 0 } r.1
    (q.1, r.2 ||| q.2)
  | .incw => (if x ≤ old then 0 else old + 1, 0)
  | .ld => (old, 0)

/-- The read-modify-write of an atomic whose location is read and written by the given functions. -/
def State.rmw (s : State) (e : QEntry) (old : List PByte) (put : State → List PByte → State) : State :=
  match e.op with
  | .atom op d wide _ x c =>
    let n := if wide then 8 else 4
    let r := atomNew op (8 * n) (pnat old) (x.toNat % 2 ^ (8 * n)) (c.toNat % 2 ^ (8 * n))
    let p := pany old
    let s := put s (pbytes r.1 n p)
    s.modCtx (fun c =>
      let c := (c.dropEntry e.id).async r.2 false
      let c := match e.locs with | (l, _) :: _ => c.noteStore l | [] => c
      c.arriveS e.slot d (BitVec.ofNat 64 (pnat old)) p)
  | _ => s

def State.performAtom (s : State) (e : QEntry) (far : Bool) : State :=
  match e.locs with
  | [] => s.modCtx (fun c => c.dropEntry e.id)
  | (l, n) :: _ =>
    match l.space with
    | .spad => if s.bankGated l then s else s.rmw e (s.rdLoc l n) (fun s b => s.wrLoc l b)
    | .coh =>
      if far || s.core.l1gran = 0 then s.sendHome e true
      else
        match s.l1At s.cur.core (l.pa / 128) false with
        | some x =>
          if x.st = .exclusive || x.st = .modified then
            s.rmw e (x.rd (l.pa % 128) n) (fun s b =>
              s.putL1 s.cur.core (l.pa / 128) false { x.wr (l.pa % 128) b with st := .modified })
          else s.wantLine l.pa e.va true
        | none => s.wantLine l.pa e.va true
    | .nc => s.sendHome e true
    | .ms => s.sendHome e true
    | .host => s.modCtx (fun c => c.dropEntry e.id)
    | .remote => s.modCtx (fun c => c.dropEntry e.id)

/-! ### CFLUSH (08 R168) -/

/-- An NC line leaves this L1: written back where it is dirty and `keep` is set. -/
def State.flushNc (s : State) (line : Nat) (write : Bool) : State :=
  ((if write then s.writeNc s.cur.core line else s)).dropL1 line s.cur.core true

/-- The coherent line's data reaches the home; a flush gives up the copy, and an owner's directory entry with it. -/
def State.flushCoh (s : State) (line : Nat) (keep : Bool) : State :=
  let c := s.cur.core
  match s.l1At c line false with
  | none => s
  | some x =>
    let s := s.writeBack line c
    if keep then (if x.st = .modified then s.putL1 c line false { x with st := .exclusive } else s)
    else
      let s := s.dropL1 line c false
      if x.st = .exclusive || x.st = .modified then s.freeDir line else s

/-- What the write-back of the core's copy of a coherent line waits for: that L2 has a place for dirty data. -/
def State.cohWait (s : State) (line : Nat) : Wait :=
  if s.lineBusy line then .hold
  else match s.l1At s.cur.core line false with
    | some x => if x.st = .modified then s.locWait { space := .coh, pa := line * 128 } else .ready
    | none => .ready

def State.performFlush (s : State) (e : QEntry) (op : FlushOp) (ext : List (Nat × Nat)) : State :=
  let fin (s : State) : State := s.modCtx (fun c => c.dropEntry e.id)
  let c := s.cur.core
  match op with
  | .rangenc =>
    let lines := ((s.coreAt c).l1.filter (fun x => x.1 % 2 = 1 && ext.any (fun r => r.1 ≤ x.1 / 2 * 128 && x.1 / 2 * 128 ≤ r.2))).map (·.1 / 2)
    match s.waitFor none (firstWait (lines.map (s.ncWait c))) with
    | some t => t
    | none => fin (lines.foldl (fun s l => s.flushNc l true) s)
  | _ =>
    match e.locs with
    | [] => fin s
    | (l, _) :: _ =>
      let line := l.pa / 128
      match l.space with
      | .coh => match s.waitFor none (s.cohWait line) with | some t => t | none => fin (s.flushCoh line (op = .clean))
      | .nc =>
        match (if op = .inv then none else s.waitFor none (s.ncWait c line)) with
        | some t => t
        | none =>
        match op with
        | .clean =>
          let s := s.writeNc c line
          match s.l1At c line true with
          | some x => fin (s.putL1 c line true { x with st := .ncClean })
          | none => fin s
        | .flush => fin (s.flushNc line true)
        | .inv => fin (s.flushNc line false)
        | .rangenc => fin s
      | .spad => fin s
      | .ms => fin s
      | .host => fin s
      | .remote => fin s

/-! ### Visibility and fences (08 R172; 10 R224, R225; 11 R231) -/

/-- The lines of the core that `publish` writes. -/
def State.dirtyNc (s : State) : List Nat := ((s.core.l1.filter (fun x => x.2.st = .ncDirty)).map (·.1 / 2))

/-- What the publishing of the core's stores waits for: a place in L2 for each dirty NC line. -/
def State.publishWait (s : State) : Option State := s.waitFor none (firstWait (s.dirtyNc.map (s.ncWait s.cur.core)))

/-- The core's dirty NC lines reach the home and stay as clean copies. -/
def State.publish (s : State) : State :=
  let c := s.cur.core
  s.dirtyNc.foldl (fun s line =>
    let s := s.writeNc c line
    match s.l1At c line true with
    | some x => s.putL1 c line true { x with st := .ncClean }
    | none => s) s

/-- A stored sector reaches memory, and the copies of its bytes under the other two windows go (10 R224). -/
def State.aliasSector (s : State) (sector : Nat) : State :=
  let pa := sector * 32
  let p := hbmPlace pa
  let s := ([0, 1, 2].filter (fun w => w ≠ paWin pa)).foldl (fun s w =>
    let q := paOf w p.1 p.2
    (s.countedRecall (q / 128)).evictL2 (q / 256)) s
  let s := match sget? s.mem.dir (pa / 128) with
    | some e => e.holders.foldl (fun s c => s.writeBack (pa / 128) c) s
    | none => s
  match sget? s.mem.l2 (pa / 256) with
  | some x =>
    if sget false s.mem.failed (chanOf pa) then s else s.modMem (fun m => m.wr (paKey pa) (x.rd (pa % 256) 32))
  | none => s

/-- Some directory entry that an alias fence must recall is busy. -/
def State.aliasBusy (s : State) : Bool :=
  s.ctx.stored.any (fun sector =>
    let p := hbmPlace (sector * 32)
    [0, 1, 2].any (fun w => s.lineBusy (paOf w p.1 p.2 / 128)))

/-- FENCE at the head of both queues: every earlier store has performed. -/
def State.performFence (s : State) (e : QEntry) (scope : Nat) (al eng : Bool) : State :=
  let waits := eng && s.ctx.jobs.any (fun j => !j.2.ended && j.2.seq < e.id)
  if waits || (al && s.aliasBusy) then s
  else
  match (if 2 ≤ scope || al then s.publishWait else none) with
  | some t => t
  | none =>
    let s := if 2 ≤ scope || al then s.publish else s
    let s := if al then (s.ctx.stored.foldl State.aliasSector s).modCtx (fun c => { c with stored := [] }) else s
    s.modCtx (fun c => c.dropEntry e.id)

/-! ### Performing -/

/-- The signal of a PHSIG or PHSW, once earlier stores are visible; it waits while the member has signalled the current
phase or is not yet a member (08 R186). -/
def State.performSignal (s : State) (e : QEntry) (k : Nat) : State :=
  let p := s.phaserAt k
  let fin (s : State) : State := s.modCtx (fun c => c.dropEntry e.id)
  match p.member s.key none with
  | some m =>
    if !m.mode.signals then fin s
    else if m.signalled then s
    else match s.publishWait with | some t => t | none => fin (s.publish.phaserStep k (fun p => p.signal s.key none))
  | none => if p.joining.any (fun m => m.is s.key none) then s else fin s

/-- An entry at its head: loads and stores part by part, every other operation as a whole. -/
def State.performEntry (s : State) (e : QEntry) : State :=
  let fin (s : State) : State := s.modCtx (fun c => c.dropEntry e.id)
  let readNext : State :=
    match e.locs[e.done]? with
    | none => fin s
    | some (l, n) =>
      let l := s.redirect l
      if s.atHome l then s.sendHome e false
      else
        match s.readPart l n (e.partVa e.done) with
        | (some b, t) => t.gotPart e b
        | (none, t) => t
  let writeNext : State :=
    match e.locs[e.done]? with
    | none => fin s
    | some (l, _) =>
      let l := s.redirect l
      if s.atHome l then s.sendHome e false
      else
        match s.writePart l (e.partData e.done) (e.partVa e.done) with
        | (true, t) => t.modCtx (fun c => c.wrotePart e l)
        | (false, t) => t
  match e.op with
  | .load _ _ _ fe => if fe then s.performFe e else readNext
  | .loadv _ _ fe => if fe then s.performFe e else readNext
  | .wset _ fe => if fe then s.performFe e else readNext
  | .store _ _ _ fe => if fe then s.performFe e else writeNext
  | .mmst _ => writeNext
  | .cflush op ext => s.performFlush e op ext
  | .atom _ _ _ far _ _ => s.performAtom { e with locs := e.locs.map (fun x => (s.redirect x.1, x.2)) } far
  | .qmark => fin s
  | .fence scope al eng => s.performFence e scope al eng
  | .semsig target count => match s.publishWait with | some t => t | none => fin (s.publish.semsig target count)
  | .phsig k => s.performSignal e k
  | .phsw k => s.performSignal e k
  | .jetmsg _ _ =>
    if e.sent then s
    else (s.modCtx (fun c => c.setEntry { e with sent := true })).modSlice (homeSlice ((e.locs.head?.map (fun l => l.1.pa)).getD 0))
      (fun x => { x with msgs := x.msgs ++ [(s.key, e.id)] })
  | .rocall d obj method arg =>
    if e.sent then s
    else
      let a := BitVec.ofNat 512 (pnat (s.rdPieces [(arg, 32), (arg.plus 32, 32)]))
      { s.modCtx (fun c => c.setEntry { e with sent := true }) with
        calls := s.calls ++ [{ ctx := s.key, id := e.id, part := partOfKey s.ctx.owner, obj, method, args := a, d, bcy := s.now / 6 }] }
  | .matrix => if e.locs.isEmpty then s else readNext
  | .rsplit d va =>
    let p := partOfKey s.ctx.owner
    match s.waitFor (some p) (s.editWait p va) with
    | some t => t
    | none => let r := s.rsplit p va; r.1.modCtx (fun c => (c.dropEntry e.id).arriveS e.slot d r.2 false)
  | .rmerge d va =>
    let p := partOfKey s.ctx.owner
    match s.waitFor (some p) (s.editWait p va) with
    | some t => t
    | none => let r := s.rmerge p va; r.1.modCtx (fun c => (c.dropEntry e.id).arriveS e.slot d r.2 false)
  | .rinv va =>
    if e.sent then s
    else
    match s.publishWait with
    | some t => t
    | none =>
      let s := s.publish.modCtx (fun c => c.setEntry { e with sent := true })
      let s := s.modCore (fun k => k.dropRange va)
      s.startChange { part := partOfKey s.ctx.owner, time := 0, va := some va, issuer := some (s.key, e.id) }

/-- What is at place id of the context's program order is held by an earlier phaser wait that has not ended (08 R186). -/
def State.phaseHolds (s : State) (id : Nat) : Bool := s.ctx.phwait.any (fun w => w.2.2 < id && !(s.phaserAt w.1).past w.2.1)

/-- An access at place id is held by an earlier phaser wait, or by an earlier ENGWAIT whose job has not ended (10 R226). -/
def State.waitHolds (s : State) (id : Nat) : Bool := s.phaseHolds id || s.ctx.engwaits.any (fun w => w.2.2.2 < id)

/-- An entry that accesses memory, where 10 R219 names the rest as events of their own. -/
def QEntry.accesses (e : QEntry) : Bool :=
  match e.op with
  | .qmark => false
  | .fence _ _ _ => false
  | .semsig _ _ => false
  | .phsig _ => false
  | .phsw _ => false
  | .cflush _ _ => false
  | _ => true

/-- QUEUE_ENTRY_PERFORM: the entry at the head of the current context's load or store queue performs where it can. -/
def execQueueEntryPerform (store : Bool) (s : State) : Host.Outcome State Fault Refusal :=
  match (if store then s.ctx.stq else s.ctx.ldq).head? with
  | none => .next s
  | some e => if !s.ctx.atHead e || s.fpBlocks e || (e.accesses && s.waitHolds e.id) then .next s else .next (s.performEntry e)

/-! ### Home operations (11 R229, R230) -/

/-- The state with the current context set to that of a home operation. -/
def State.asCtx (s : State) (k : Nat) : State := { s with cur := { core := k / 8, slot := k % 8 } }

/-- Home operation i and its entry. -/
def State.homeOp (s : State) (i : Nat) (far : Bool) : Option (HomeOp × QEntry) :=
  match s.mem.homeops[i]? with
  | some o =>
    if o.far = far then
      let c := s.ctxAt o.ctx
      (((c.ldq ++ c.stq).find? (fun e => e.id = o.id))).map (fun e => (o, e))
    else none
  | none => none

def State.takeHomeOp (s : State) (i : Nat) : State := s.modMem (fun m => { m with homeops := m.homeops.eraseIdx i })

/-- A home operation waits until L2 holds its line and the line is not busy; then it takes the line, recalls the directory
entry, and `f` reads and writes the line, all in one step (11 R229, R230). -/
def State.atLine (s : State) (l : Loc) (va : Nat) (f : State → State) : State :=
  match s.atHomeWait l va with
  | some t => t
  | none => f (s.countedRecall (l.pa / 128))

/-- MS_ACCESS: the part of a load or store that waits at the home performs there (11 R229). -/
def execMsAccess (i : Nat) (s : State) : Host.Outcome State Fault Refusal :=
  match s.homeOp i false with
  | none => .next s
  | some (o, e) =>
    let s := s.asCtx o.ctx
    match e.locs[e.done]? with
    | none => .next (s.takeHomeOp i)
    | some (l, n) =>
      let l := s.redirect l
      .next (s.atLine l (e.partVa e.done) (fun s =>
        let s := s.takeHomeOp i
        match e.op with
        | .store _ _ _ _ => (s.homeWr l.pa (e.partData e.done)).modCtx (fun c => c.wrotePart e l)
        | .mmst _ => (s.homeWr l.pa (e.partData e.done)).modCtx (fun c => c.wrotePart e l)
        | _ => s.gotPart e (s.mem.homeRd l.pa n)))

/-- FAR_ATOMIC_EXECUTE: the far-atomic unit recalls the line and performs the read-modify-write in L2 (11 R230). -/
def execFarAtomicExecute (i : Nat) (s : State) : Host.Outcome State Fault Refusal :=
  match s.homeOp i true with
  | none => .next s
  | some (o, e) =>
    let s := s.asCtx o.ctx
    match e.locs with
    | [] => .next (s.takeHomeOp i)
    | (l, n) :: _ =>
      let l := s.redirect l
      .next (s.atLine l e.va (fun s =>
        (s.takeHomeOp i).rmw e (s.mem.homeRd l.pa n) (fun s b => s.homeWr l.pa b)))

end Sys2Proof.Machine
end

