-- ==== Sys2Proof/Machine/Objects.lean ====
section
/-! DEFINITION. Calls of replayed objects and jet messages (08 R188, R189; 17 R308, R314 to R317). -/

namespace Sys2Proof.Machine

/-! ### Objects -/

/-- Key of an object's log. -/
def objKey (part obj : Nat) : Nat := part * 256 + obj
def State.objAt (s : State) (part obj : Nat) : ObjLog := sget {} s.objects (objKey part obj)
def State.modObj (s : State) (part obj : Nat) (f : ObjLog → ObjLog) : State :=
  { s with objects := smod {} s.objects (objKey part obj) f }

def State.desc (s : State) (part obj : Nat) : Option ObjectDesc :=
  match (s.partAt part).config with
  | some c => c.objects.find? (fun d => d.obj = obj)
  | none => none

/-- Positions that the replica of a die has applied. -/
def ObjLog.appliedAt (o : ObjLog) (die : Nat) : Nat := sget 0 o.applied die
def ObjLog.minApplied (o : ObjLog) : Nat := min (min (o.appliedAt 0) (o.appliedAt 1)) (min (o.appliedAt 2) (o.appliedAt 3))

/-- The replay engine of a die: jet core 0 of its first stack (17, opening). -/
def replaySlice (die : Nat) : Nat := 3 * die * 4

/-- Result ring slots, keyed die × 4,096 + slot. -/
def ringKey (die pos : Nat) : Nat := die * 4096 + pos % 4096

/-- A call or result word (08 R188). -/
def callWord (status obj low : Nat) : Word := BitVec.ofNat 64 (status * 2 ^ 56 + obj * 2 ^ 48 + low % 2 ^ 48)

/-! ### ROCALL, ROWAIT (08 R188) -/

/-- A job card in the own scratchpad: any other address is WINDOW (08 R173). -/
def State.cardAt (s : State) (p : Word) : Addressed :=
  if s.ownWindow p then s.accessCheck p 64 64 .load false true false else .trap { cause := .window, va := p.toNat % 2 ^ 52 }

/-- A 64-byte block in the own scratchpad, checked under 08 R162 (08 R188, R189): a scratchpad window of another core is
SPFOREIGN, a cluster window of another cluster CLFOREIGN, and what is not the own scratchpad otherwise WINDOW. -/
def State.blockCheck (s : State) (p : Word) : Addressed :=
  match s.resolve p with
  | .bad c => .trap { cause := c, va := p.toNat % 2 ^ 52 }
  | _ => s.cardAt p

/-- The first location of a checked access. -/
def Addressed.first (a : Addressed) : Loc :=
  match a.parts with
  | (l, _) :: _ => l
  | [] => { space := .spad, pa := 0 }

def semRocall (r : M) : SlotSem :=
  { guard := some r.g, srcs := [(.s r.a, r.ta), (.s r.x, r.ta)], dsts := [.s r.d], need := (1, 1),
    run := fun s => consumeThen [consumeS s.ctx r.x, trapIf (2 ^ 13 ≤ (s.ctx.sreg r.a).v.toNat) { cause := .format }]
      (s.blockCheck (s.ctx.sreg r.x).v).verdict,
    eff := fun s =>
      let w := (s.ctx.sreg r.a).v.toNat
      let e : QEntry := { id := s.ctx.entryId s.cur.bslot 0, slot := s.cur.bslot,
                          op := .rocall r.d (w % 256) (w / 256 % 32) (s.blockCheck (s.ctx.sreg r.x).v).first,
                          va := (s.ctx.sreg r.x).v.toNat }
      s.modCtx (fun c => (c.enqueue true true e).mark (.s r.d)) }

/-- What a ROWAIT lands now, if it can land (17 R316): the replica's result, or status 0x03 for a word that is not OK or
whose result has been overwritten. -/
def State.rowaitNow (s : State) (part die : Nat) (w : Word) : Option Word :=
  let obj := w.toNat / 2 ^ 48 % 256
  let pos := w.toNat % 2 ^ 48
  let o := s.objAt part obj
  let n := o.appliedAt die
  if w.toNat / 2 ^ 56 ≠ 0 then some (callWord 3 obj 0)
  else if n ≤ pos then none
  else if pos + 4096 ≤ n then some (callWord 3 obj 0)
  else some (sget 0 o.results (ringKey die pos))

def semRowait (r : M) : SlotSem :=
  { guard := some r.g, srcs := [(.s r.a, r.ta)], dsts := [.s r.d],
    eff := fun s =>
      let w := (s.ctx.sreg r.a).v
      match s.rowaitNow (partOfKey s.ctx.owner) (dieOf s.cur.core) w with
      | some v => s.modCtx (fun c => (c.arriveS s.cur.bslot r.d v false).mark (.s r.d))
      | none => s.modCtx (fun c => { c with rowaits := c.rowaits ++ [(r.d, s.cur.bslot, w)] }.mark (.s r.d)) }

/-- The ROWAITs of a die's contexts that can land now do. -/
def State.landRowaits (s : State) (part die : Nat) : State :=
  (s.ctxsOf part).foldl (fun s e =>
    if dieOf (e.1 / 8) ≠ die then s
    else
      let ready := e.2.rowaits.filter (fun w => (s.rowaitNow part die w.2.2).isSome)
      s.modCtxAt e.1 (fun c =>
        ready.foldl (fun c w => c.arriveS w.2.1 w.1 ((s.rowaitNow part die w.2.2).getD 0) false)
          { c with rowaits := c.rowaits.filter (fun w => (s.rowaitNow part die w.2.2).isNone) })) s

/-! ### The home of a log (17 R315 to R317) -/

/-- A record of a log (17 R315). -/
def logRecord (pos method core taskid : Nat) (args : BitVec 512) : BitVec 512 :=
  BitVec.ofNat 512 (pos % 2 ^ 48 + method * 2 ^ 48 + core * 2 ^ 64 + taskid * 2 ^ 80 + args.toNat % 2 ^ 384 * 2 ^ 128)

def mutates (d : ObjectDesc) (m : Nat) : Bool := d.mbits.testBit m

/-- The call's result lands and its queue entry frees. -/
def State.answerCall (s : State) (c : CallReq) (w : Word) : State :=
  s.modCtxAt c.ctx (fun x =>
    let slot := (((x.ldq ++ x.stq).find? (fun e => e.id = c.id)).map (·.slot)).getD 0
    (x.dropEntry c.id).arriveS slot c.d w false)

def State.takeCall (s : State) (i : Nat) : State := { s with calls := s.calls.eraseIdx i }

/-- Whether a slice's FIFO has a place. -/
def Slice.hasRoom (x : Slice) : Bool := x.fifo.length < 32

/-- The place of an entry among those of its basin cycle: messages first, then by the requesting core (17 R309). -/
def JetItem.rank (i : JetItem) : Nat :=
  match i with
  | .event .msg _ _ _ r _ _ _ _ => r
  | .event _ _ _ _ r _ _ _ _ => 2048 + r
  | .replay _ _ => 2048 + 0x3FF
  | .read _ _ _ _ _ k _ _ => 2048 + coreNo (k / 8)

/-- An entry that has come in a basin cycle, ahead of those that come after it. -/
def insItem (x : Nat × JetItem) : List (Nat × JetItem) → List (Nat × JetItem)
  | [] => [x]
  | y :: l => if x.1 < y.1 || (x.1 = y.1 && x.2.rank < y.2.rank) then x :: y :: l else y :: insItem x l

def Slice.push (x : Slice) (bcy : Nat) (i : JetItem) : Slice := { x with fifo := insItem (bcy, i) x.fifo }

/-- A call of the same object comes first: it has arrived before, or in the same basin cycle from a lower core or, of one core, a
lower task (17 R316). -/
def State.callFirst (s : State) (i : Nat) (c : CallReq) : Bool :=
  let key (d : CallReq) : Nat := coreNo (d.ctx / 8) * 2 ^ 20 + (s.ctxAt d.ctx).taskid.toNat
  s.calls.zipIdx.any (fun d => d.2 ≠ i && d.1.part = c.part && d.1.obj = c.obj &&
    (d.1.bcy < c.bcy || (d.1.bcy = c.bcy && (key d.1 < key c || (key d.1 = key c && d.2 < i)))) &&
    (match s.desc d.1.part d.1.obj with | some x => d.1.method < x.nmeth && mutates x d.1.method | none => false))

/-- ROCALL_APPEND: a mutating call takes the tail and its record is written, and every replay engine is given replay work; BUSY
where the ring is full; status 0x03 where there is no such object or method. Replay work that finds a FIFO full holds the
call (17 R309, R316). -/
def execRocallAppend (i : Nat) (s : State) : Host.Outcome State Fault Refusal :=
  match s.calls[i]? with
  | none => .next s
  | some c =>
    match s.desc c.part c.obj with
    | none => .next ((s.takeCall i).answerCall c (callWord 3 c.obj 0))
    | some d =>
      if d.nmeth ≤ c.method then .next ((s.takeCall i).answerCall c (callWord 3 c.obj 0))
      else if !mutates d c.method || s.callFirst i c then .next s
      else
        -- the basin cycle of its arrival is over: no other call of that cycle is still to come
        let s : State := { s with now := max s.now (6 * (c.bcy + 1)) }
        let o := s.objAt c.part c.obj
        if o.tail - o.minApplied = 4096 then .next ((s.takeCall i).answerCall c (callWord 1 c.obj 0))
        else if (List.range 4).any (fun die => !(s.sliceAt (replaySlice die)).hasRoom) then .next s
        else
          let rec512 := logRecord o.tail c.method (coreNo (c.ctx / 8)) (s.ctxAt c.ctx).taskid.toNat c.args
          let s := (s.takeCall i).modObj c.part c.obj
            (fun o => { o with records := sset o.records (o.tail % 4096) rec512, tail := o.tail + 1 })
          let s := (List.range 4).foldl (fun s die => s.modSlice (replaySlice die) (fun x => x.push (s.now / 6) (.replay c.part c.obj))) s
          .next (s.answerCall c (callWord 0 c.obj o.tail))

/-- ROCALL_READ_QUERY: a read-only call samples the tail at the home and enters the FIFO of the replay engine of the caller's
die (17 R317). -/
def execRocallReadQuery (i : Nat) (s : State) : Host.Outcome State Fault Refusal :=
  match s.calls[i]? with
  | none => .next s
  | some c =>
    match s.desc c.part c.obj with
    | none => .next ((s.takeCall i).answerCall c (callWord 3 c.obj 0))
    | some d =>
      if d.nmeth ≤ c.method then .next ((s.takeCall i).answerCall c (callWord 3 c.obj 0))
      else if mutates d c.method then .next s
      else
        let sl := replaySlice (dieOf (c.ctx / 8))
        if !(s.sliceAt sl).hasRoom then .next s
        else
          let tail := (s.objAt c.part c.obj).tail
          let q := s.ctxAt c.ctx
          let slot := (((q.ldq ++ q.stq).find? (fun e => e.id = c.id)).map (·.slot)).getD 0
          let s := s.modSlice sl (fun x => x.push (s.now / 6) (.read c.part c.obj c.method tail c.args c.ctx c.d slot))
          .next ((s.takeCall i).modCtxAt c.ctx (fun x => x.dropEntry c.id))

/-! ### JETMSG (08 R189; 17 R308, R309) -/

/-- The address check of a JETMSG's target: a global VA whose range names a handler with a MSG entry. -/
def State.jetTarget (s : State) (va : Word) : Addressed :=
  match s.resolve va with
  | .global g _ =>
    match s.address va 1 1 .probe false with
    | .ok ps =>
      let part := partOfKey s.ctx.owner
      let jet := match lookup s.core.rtlb part s.ptime g with | some c => c.entry.jet | none => 0
      if jet ≠ 0 && ((s.partAt part).jetPc jet .msg).isSome then .ok ps
      else .trap { cause := .rangePerm, va := va.toNat % 2 ^ 52 }
    | a => a
  | .spad _ _ _ => .trap { cause := .window, va := va.toNat % 2 ^ 52 }
  | .bad c => .trap { cause := c, va := va.toNat % 2 ^ 52 }

def semJetmsg (r : M) : SlotSem :=
  { guard := some r.g, srcs := [(.s r.a, r.ta), (.s r.x, r.ta)], need := (0, 1),
    run := fun s =>
      match consumeThen [consumeS s.ctx r.a, consumeS s.ctx r.x] (s.jetTarget (s.ctx.sreg r.a).v).verdict with
      | .go => (s.blockCheck (s.ctx.sreg r.x).v).verdict
      | v => v,
    eff := fun s =>
      let va := (s.ctx.sreg r.a).v
      let e : QEntry := { id := s.ctx.entryId s.cur.bslot 0, slot := s.cur.bslot,
                          op := .jetmsg va.toNat (s.blockCheck (s.ctx.sreg r.x).v).first,
                          locs := (s.jetTarget va).parts, va := va.toNat, via := s.viaOf va 1 }
      s.modCtx (fun c => c.enqueue false true e) }

/-- JETMSG_ARRIVAL: the message at the head of a slice's waiting ones is accepted once the FIFO has a place and its line is
free: the bytes are copied, the line's directory entries are recalled and the line is held busy as a MSG event. -/
def execJetmsgArrival (sl : Nat) (s : State) : Host.Outcome State Fault Refusal :=
  match (s.sliceAt sl).msgs with
  | [] => .next s
  | (k, id) :: _ =>
    let take (s : State) : State := s.modSlice sl (fun x => { x with msgs := x.msgs.drop 1 })
    match (s.ctxAt k).stq.find? (fun e => e.id = id) with
    | none => .next (take s)
    | some e =>
      match e.op, e.locs with
      | .jetmsg va m, (l, _) :: _ =>
        let line := l.pa / 256
        let s := s.asCtx k
        if !(s.sliceAt sl).hasRoom || s.lineBusy (2 * line) || s.lineBusy (2 * line + 1) then .next s
        else if !s.inL2 l.pa then .next (s.askFill (s.fillOf l.pa va))
        else
          let part := partOfKey s.ctx.owner
          let jet := ((s.walkAny part (s.canon va)).map (·.jet)).getD 0
          let msg := BitVec.ofNat 512 (pnat (s.rdPieces [(m, 32), (m.plus 32, 32)]))
          let s := (s.countedRecall (2 * line)).countedRecall (2 * line + 1)
          let item : JetItem := .event .msg part jet (s.canon va / 256 * 256) (coreNo s.cur.core) 0 0 msg l.pa
          .next (((take s).modSlice sl (fun x => x.push (s.now / 6) item)).modCtx (fun c => c.dropEntry id))
      | _, _ => .next (take s)

def execRocall (r : M) (s : State) : Host.Outcome State Fault Refusal := runSlot (.rocall r) (semRocall r) s
def execRowait (r : M) (s : State) : Host.Outcome State Fault Refusal := runSlot (.rowait r) (semRowait r) s
def execJetmsg (r : M) (s : State) : Host.Outcome State Fault Refusal := runSlot (.jetmsg r) (semJetmsg r) s

end Sys2Proof.Machine
end

