-- ==== Sys2Proof/Machine/Jobs.lean ====
section
/-! DEFINITION. Engine jobs: their cards as they are checked at issue (08 R173 to R175, 16 R285), the steps in which they
move data (R176, R177, R181 to R183), their completion (R178), and ENGWAIT, CPRESUME and CPABORT (R179, R180). -/

namespace Sys2Proof.Machine

/-- A COPY's SIDE and RETILE. -/
def Job.side (j : Job) : Bool := j.kind = .copy && cardKflags j.card % 2 = 1
def Job.retile (j : Job) : Bool := j.kind = .copy && cardKflags j.card / 2 % 2 = 1

/-! ### The checks at issue (08 R173 to R175; 16 R285) -/

/-- Defined KFLAGS bits. -/
def kflagMask : JobKind → Nat
  | .copy => 0x0F
  | .put => 0x80
  | .get => 0
  | .gather => 0
  | .scatter => 0
  | .scadd => 0x03
  | .awr => 0x01
  | .slx => 0

/-- A reserved bit is set, or WORD has no meaning and is not zero. -/
def cardReserved (k : JobKind) (c : BitVec 512) : Bool :=
  cardBits c 437 3 ≠ 0 || cardBits c 472 8 ≠ 0 || Nat.land (cardKflags c) (255 - kflagMask k) ≠ 0
    || (cardWord c ≠ 0 && !cardHv c && !cardPhv c)

/-- The window kinds of a region's base (08 R175). -/
inductive BaseKind
  | global | own | otherCore (c : Nat) | cluster
  deriving DecidableEq, Repr

def State.baseKind (s : State) (base : Nat) : BaseKind :=
  match pointerOf base with
  | .global => .global
  | .private_ => .global
  | .spad tag _ => if tag = 0x3FF || tag = coreNo s.cur.core then .own else .otherCore tag
  | .cluster _ _ _ => .cluster
  | .malformed =>
    if base / 2 ^ 48 = 15 then
      (let tag := base / 2 ^ 38 % 1024
       if tag = 0x3FF || tag = coreNo s.cur.core then .own else .otherCore tag)
    else .cluster

/-- A base that names the own cluster, or no cluster at all. -/
def State.ownCluster (s : State) (base : Nat) : Bool :=
  let tag := base / 2 ^ 40 % 256
  base / 2 ^ 48 ≠ 14 || tag = 0xFF || tag = clusterOf s.cur.core

/-- Global, private, own scratchpad or own-cluster window. -/
def State.copyKind (s : State) (base : Nat) : Bool :=
  match s.baseKind base with
  | .global => true
  | .own => true
  | .otherCore _ => false
  | .cluster => s.ownCluster base

/-- The window kinds that a kind's source and destination may have. -/
def State.windowsOk (s : State) (k : JobKind) (c : BitVec 512) : Bool :=
  let src := (cardRegion c 0).base
  let dst := (cardRegion c 1).base
  match k with
  | .copy => s.copyKind src && s.copyKind dst
  | .put =>
    s.copyKind src &&
      (match s.baseKind dst with
       | .global => false
       | .own => true
       | .otherCore t => cardKflags c / 128 = 1 || s.inLaunch t
       | .cluster => cardKflags c / 128 = 0)
  | .get =>
    (match s.baseKind src with | .otherCore t => s.inLaunch t | _ => false) && s.baseKind dst = .own
  | .slx => src / 2 ^ 48 ≤ 12
  | .gather => true
  | .scatter => true
  | .scadd => true
  | .awr => true

/-- TARGET names a core or group of the launch. -/
def State.targetOk (s : State) (k : JobKind) (c : BitVec 512) : Bool :=
  let t := cardTarget c
  let group := t / 256 = 0 && ((s.launchOf s.ctx).bind (fun l => l.members t)).isSome
  match k with
  | .slx => group
  | .put => if cardKflags c / 128 = 1 then group else t = 0x3FF || s.inLaunch t
  | .copy => t = 0x3FF || s.inLaunch t
  | .get => t = 0x3FF || s.inLaunch t
  | .gather => t = 0x3FF || s.inLaunch t
  | .scatter => t = 0x3FF || s.inLaunch t
  | .scadd => t = 0x3FF || s.inLaunch t
  | .awr => t = 0x3FF || s.inLaunch t

/-- Element bytes that a SCADD type needs. -/
def scaddEsz (t : Nat) : Nat := match t with | 0 => 4 | 1 => 8 | 2 => 4 | _ => 2

/-- The kind-specific conditions of R175 and 16 R285. -/
def cardKindOk (k : JobKind) (c : BitVec 512) : Bool :=
  let f := cardKflags c
  let n := (cardCounts c).length
  let r2 := cardRegion c 2
  let r3 := cardRegion c 3
  let index := r2.v && !r2.w
  match k with
  | .copy =>
    if f / 2 % 2 = 1 then
      f % 2 = 0 && cardEsz c ≠ 8 && (if cardEsz c = 1 then f / 4 < 2 else f / 4 = 0) && r3.v && r3.w && r3.len = 64
    else f / 4 = 0
  | .put => true
  | .get => true
  | .gather => n = 1 && index
  | .scatter => n = 1 && index
  | .scadd => n = 1 && index && cardEsz c = scaddEsz (f % 4)
  | .awr => n = 1 && cardEsz c = (if f % 2 = 1 then 4 else 2)
  | .slx => true

/-- The regions of a card and its shape (08 R173, R174). -/
def cardShapeOk (k : JobKind) (c : BitVec 512) : Bool :=
  let n := (cardCounts c).length
  let regions := (List.range 4).filter (fun i => !(k = .awr && i = 1))
  regions.all (fun i => !(cardRegion c i).v || (cardRegion c i).e ≤ 47)
    && (k = .awr || k = .slx || ((cardRegion c 0).v && !(cardRegion c 0).w && (cardRegion c 1).v && (cardRegion c 1).w))
    && 1 ≤ n && (List.range 6).all (fun i => i < n || cardBits c (256 + 16 * i) 16 = 0)
    && (List.range 5).all (fun i => i + 1 < n || cardBits c (352 + 16 * i) 16 = 0)

/-- The handler entry that HIDX names is not empty (09 R202). -/
def State.handlerOk (s : State) (c : BitVec 512) : Bool :=
  match s.launchOf s.ctx with
  | some l => (match l.handlers[cardHidx c]? with | some h => h.1 ≠ 0 | none => false)
  | none => false

/-- The checks of a card: RSVD, then FORMAT, then the phaser that it names (08 R173, R175, R185). -/
def State.cardCheck (s : State) (k : JobKind) (va : Nat) (c : BitVec 512) : Option TrapInfo :=
  if cardReserved k c then some { cause := .rsvd, va }
  else if !(cardShapeOk k c && cardKindOk k c && s.windowsOk k c && s.targetOk k c)
      || (cardHv c && (cardPhv c || k ≠ .put || !s.handlerOk c)) then some { cause := .format, va }
  else if cardPhv c && (s.phaser? (BitVec.ofNat 64 (cardWord c))).isNone then some { cause := .phaserFault }
  else none

/-! ### Addresses of a job -/

/-- A failure of a job: the code of TRAPCAUSE's auxiliary field and the address (08 R177). -/
abbrev JobFault := Nat × Nat

/-- n bytes at a VA of a job, translated through its copies (08 R177, 15 R273). -/
def State.jobPieces (s : State) (copies : List Cached) (a : Access) (va : Word) (n : Nat) : Except JobFault (List (Loc × Nat)) :=
  let tv (x : Nat) : Nat := x % 2 ^ 52
  match s.jobResolve va with
  | .bad c => .error (c.code.toNat, tv va.toNat)
  | .spad core off room =>
    if room < n then .error (Cause.window.code.toNat, tv (va.toNat + room))
    else .ok ((pieces off n n).map (fun p => ({ space := .spad, pa := core * 2 ^ 21 + p.1 }, p.2)))
  | .global g room =>
    if room < n then .error (Cause.window.code.toNat, tv (va.toNat + room))
    else
      (pieces g n n).foldr (fun p r =>
        match copies.find? (fun c => c.entry.covers p.1) with
        | none => .error (Cause.rangeMiss.code.toNat, tv (va.toNat + (p.1 - g)))
        | some c =>
          match s.throughEntry c a false p.1 with
          | .error (e, _) => .error (e.code.toNat, tv (va.toNat + (p.1 - g)))
          | .ok l => r.map (fun ls => (l, p.2) :: ls)) (.ok [])

/-- The copies of the table that a job takes: every valid entry that covers a byte of a footprint (15 R273). -/
def State.jobCopies (s : State) (k : JobKind) (c : BitVec 512) : List Cached :=
  let part := partOfKey s.ctx.owner
  let fps := (cardFootprints k c false ++ cardFootprints k c true).map (fun f => (s.jobCanon f.1, f.2))
  ((s.entriesFrom part 0).filter (fun e =>
    e.valid && !e.reserved && e.kind ≠ 3 && fps.any (fun f => overlaps f (e.base * 256, e.size)))).map (s.cachedOf part)

/-! ### Issue -/

/-- The card's location, for a command that names one in the own scratchpad (08 R173). -/
def State.cardBytes (s : State) (r : M) : Addressed := s.cardAt (s.ctx.sreg r.a).v

def cardOf (b : List PByte) : BitVec 512 := BitVec.ofNat 512 (pnat b)

/-- A new job joins its phaser at once as a signalling member for the current phase (08 R186). -/
def State.joinJob (s : State) (k job : Nat) : State :=
  s.modPhaser k (fun p => { p with members := p.members ++ [{ ctx := s.key, job := some job, mode := .signalOnly, signalled := false }] })

/-- A job starts with the snapshot of its card. -/
def State.startJob (s : State) (kind : JobKind) (va : Nat) (card : BitVec 512) : State :=
  let seq := s.ctx.entryId s.cur.bslot 0
  let ph := if cardPhv card then s.phaser? (BitVec.ofNat 64 (cardWord card)) else none
  let j : Job := { kind, card, cardVa := va, seq, copies := s.jobCopies kind card, phaser := ph }
  let s := s.modCtx (fun c => { c with jobs := sset c.jobs seq j })
  -- the card is read in eight frozen cycles
  let s := s.modCore (fun k => { k with busy := max k.busy (s.now + 4 + 32) })
  match ph with
  | some p => s.joinJob p seq
  | none => s

/-- Copies of ranges are taken after the RINVs of the task that cover them have completed (15 R281). -/
def State.copiesWait (s : State) (kind : JobKind) (card : BitVec 512) : Verdict :=
  if (s.jobCopies kind card).any (fun c => s.ctx.rinvs.any c.entry.covers) then .freeze else .go

/-- The checks of an engine command, its card read at `a`. -/
def State.commandVerdict (s : State) (r : M) (kind : JobKind) (a : Addressed) : Verdict :=
  match consumeThen [consumeS s.ctx r.a] a.verdict with
  | .go =>
    let card := cardOf (s.rdPieces a.parts)
    if s.asleep a then .freeze else
    match s.cardCheck kind ((s.ctx.sreg r.a).v.toNat) card with
    | some t => .trap t
    | none => s.copiesWait kind card
  | v => v

def commandSem (r : M) (kind : JobKind) : SlotSem :=
  { guard := some r.g, srcs := [(.s r.a, r.ta)], jobs := 1,
    run := fun s => s.commandVerdict r kind (s.cardBytes r),
    eff := fun s => s.startJob kind (s.ctx.sreg r.a).v.toNat (cardOf (s.rdPieces (s.cardBytes r).parts)) }

def semCopy (r : M) : SlotSem := commandSem r .copy
def semPut (r : M) : SlotSem := commandSem r .put
def semGet (r : M) : SlotSem := commandSem r .get
def semGather (r : M) : SlotSem := commandSem r .gather
def semScatter (r : M) : SlotSem := commandSem r .scatter
def semScadd (r : M) : SlotSem := commandSem r .scadd
def semAwr (r : M) : SlotSem := commandSem r .awr

/-- The card of an SLX is a global address (08 R183). -/
def State.slxCard (s : State) (r : M) : Addressed :=
  let va := (s.ctx.sreg r.a).v
  if va.toNat < 13 * 2 ^ 48 then s.accessCheck va 64 64 .load false false false
  else .trap { cause := .window, va := va.toNat % 2 ^ 52 }

def semSlx (r : M) : SlotSem :=
  { guard := some r.g, srcs := [(.s r.a, r.ta)], jobs := 1,
    stat := fun s => if s.isSluice then none else some .priv,
    run := fun s => s.commandVerdict r .slx (s.slxCard r),
    eff := fun s => s.startJob .slx (s.ctx.sreg r.a).v.toNat (cardOf (s.rdPieces (s.slxCard r).parts)) }

/-! ### The shape's walk (08 R175) -/

/-- Offset of element i on the shape's side: levels as count and step, level 1 first. -/
def walkOff : List (Nat × Int) → Nat → Int
  | [], _ => 0
  | (n, st) :: r, i => (i % n : Nat) * st + walkOff r (i / n)

def cardLevels (c : BitVec 512) : List (Nat × Int) :=
  (cardCounts c).zipIdx.map (fun e => (e.1, if e.2 = 0 then (cardEsz c : Int) else cardStep c (e.2 + 1)))

def offVa (base : Nat) (off : Int) : Word := BitVec.ofInt 64 ((base : Int) + off)

/-- Elements of the granule that starts at destination byte b, as their numbers (08 R177). -/
def granuleElems (c : BitVec 512) (b : Nat) : List Nat :=
  let e := cardEsz c
  (List.range ((min (b + 256) (cardTotal c) - b) / e)).map (fun i => b / e + i)

/-! ### Waiting for memory -/

/-- Whether an engine must wait for a part, with the state that asked for what it waits for. -/
def State.partWaits (s : State) (l : Loc) (va : Nat) : Bool × State :=
  match s.locWait l with
  | .ready => (s.bankGated l, s)
  | .fill line _ => (true, s.askFill (s.fillOf (line * 256) va))
  | .hold => (true, s)

/-- The first part of a list that must be waited for. -/
def State.partsWait (s : State) : List (Loc × Nat) → Bool × State
  | [] => (false, s)
  | (l, va) :: r =>
    match s.partWaits l va with
    | (true, t) => (true, t)
    | (false, t) => t.partsWait r

/-- Pieces with the VA of each. -/
def withVas (va : Word) : List (Loc × Nat) → List (Loc × Nat)
  | [] => []
  | (l, n) :: r => (l, va.toNat) :: withVas (va + BitVec.ofNat 64 n) r

/-- What a job reads is made ready: the directory entries of MS lines are recalled (11 R229), and the issuing core's dirty NC
copies are written back (08 R176, 10 R225). -/
def State.publishParts (s : State) (ps : List (Loc × Nat)) : State :=
  ps.foldl (fun s p =>
    let s := s.recallMs p.1
    if p.1.space = .nc then
      (match s.l1At s.cur.core (p.1.pa / 128) true with
       | some x => (s.writeNc s.cur.core (p.1.pa / 128)).putL1 s.cur.core (p.1.pa / 128) true { x with st := .ncClean }
       | none => s)
    else s) s

/-! ### The order of a job against its issuer (08 R176) -/

def isFence : QOp → Bool
  | .fence _ _ _ => true
  | _ => false

def isStore : QOp → Bool
  | .store _ _ _ _ => true
  | .atom _ _ _ _ _ _ => true
  | .mmst _ => true
  | _ => false

/-- An earlier store of the issuer, an earlier job of it, an earlier FENCE (08 R172, 10 R220) or an earlier phaser wait (08 R186)
must come first. -/
def State.jobHeld (s : State) (j : Job) : Bool :=
  let r := s.jobFps j false
  let w := s.jobSpans j true
  s.phaseHolds j.seq || s.ctx.stq.any (fun e => e.id < j.seq &&
      (isFence e.op || (isStore e.op && e.spans.any (fun x => r.any (fun f => overlaps f (s.canon x.1, x.2)))))) ||
    s.ctx.jobs.any (fun k => k.2.seq < j.seq && !k.2.ended &&
      ((s.jobSpans k.2 true).any (fun f => (r ++ w).any (overlaps f)) || (s.jobSpans k.2 false).any (fun f => w.any (overlaps f))))

/-! ### The end of a job (08 R178, R179) -/

/-- Destination bytes as granules: a last partial one counts once the target is complete (08 R177). -/
def granulesOf (total b : Nat) : Nat := if b = total then (total + 255) / 256 else b / 256

def Job.progressWord (j : Job) : Nat :=
  if j.kind = .awr then j.progress else j.streams.foldl (fun n e => n + granulesOf (cardTotal j.card) e.2) 0

/-- The completion word (08 R179). -/
def Job.word (j : Job) (status : Nat) : Word :=
  BitVec.ofNat 64 (j.progressWord % 2 ^ 40 * 2 ^ 16 + j.cause.toNat * 256 + status)

/-- ENGWAITs of a job land its word. -/
def Ctx.landEngwaits (c : Ctx) (job : Nat) (w : Word) : Ctx :=
  let l := c.engwaits.filter (fun e => e.2.2.1 = job)
  l.foldl (fun c e => c.arriveS e.2.1 e.1 w false) { c with engwaits := c.engwaits.filter (fun e => e.2.2.1 ≠ job) }

/-- The word of a finished job is kept for its card, among the last 16. -/
def Ctx.keepWord (c : Ctx) (card job : Nat) (w : Word) : Ctx :=
  let l := c.kept.filter (fun e => e.1 ≠ card || job < e.2.1)
  let l := if l.any (fun e => e.1 = card) then l else l ++ [(card, job, w)]
  { c with kept := l.drop (l.length - 16) }

/-- A job ends for good: its slot frees, its word is kept and its waits land. -/
def State.endJob (s : State) (j : Job) (status : Nat) : State :=
  s.modCtx (fun c => (({ c with jobs := sdel c.jobs j.seq }.keepWord j.cardVa j.seq (j.word status))).landEngwaits j.seq (j.word status))

/-- A job ends FAULTED; the trap becomes pending in its issuer (08 R177, R180). -/
def State.faultJob (s : State) (j : Job) (cause : Nat) (t : TrapInfo) : State :=
  let j := { j with st := .faulted, cause := BitVec.ofNat 8 cause }
  let s := s.modCtx (fun c =>
    ({ c with jobs := sset c.jobs j.seq j, deferred := c.deferred ++ [t] }).landEngwaits j.seq (j.word 1))
  match j.phaser with
  | some k => s.modPhaser k (fun p => { p with faulted := p.faulted + 1 })
  | none => s

/-- A translation, layout or footprint failure (08 R177). -/
def State.copyFault (s : State) (j : Job) (f : JobFault) : State :=
  s.faultJob j (if f.1 = 0x3FF then 0xFF else f.1) { cause := .copyFault, aux := f.1, deferred := true, va := f.2 }

/-- A job completes: its phaser arrival, and then its word (08 R178, R182). -/
def State.completeJob (s : State) (j : Job) (status : Nat) : State :=
  let s := match j.phaser with
    | some k => s.phaserStep k (fun p => p.signal s.key (some j.seq))
    | none => s
  s.endJob j status

/-- The job of a number that is running. -/
def State.activeJob (s : State) (n : Nat) : Option Job :=
  match sget? s.ctx.jobs n with
  | some j => if j.st = .active then some j else none
  | none => none

def State.setJob (s : State) (j : Job) : State := s.modCtx (fun c => { c with jobs := sset c.jobs j.seq j })

/-! ### Moving one granule -/

/-- One element's move: its source and destination, in parts. -/
structure Move where
  src : List (Loc × Nat)
  dst : List (Loc × Nat)
  sva : Word
  dva : Word
  deriving DecidableEq, Repr

/-- The first byte of an access that lies in no declared footprint of its direction (08 R176). -/
def State.breach (s : State) (fps : List (Nat × Nat)) (va : Word) (n : Nat) : Option Nat :=
  (List.range n).findSome? (fun i =>
    let v := (va + BitVec.ofNat 64 i).toNat
    if 2 ^ 52 ≤ v then none
    else
      let c := s.jobCanon v
      if fps.any (fun f => f.1 ≤ c && c < f.1 + f.2) then none else some v)

/-- Translation of an access of a job, a footprint breach being its first failure. -/
def State.jobAccess (s : State) (j : Job) (w : Bool) (va : Word) (n : Nat) : Except JobFault (List (Loc × Nat)) :=
  match s.breach (s.jobFps j w) va n with
  | some v => .error (0x3FF, v)
  | none => s.jobPieces j.copies (if w then .store else .load) va n

/-- n bytes at an offset of every member's slice that FP1 does not name are a footprint breach (08 R176, 12 R233). -/
def memberBreach (j : Job) (off n : Nat) (va : Word) : Option JobFault :=
  let r := cardRegion j.card 1
  let room := r.base % 2 ^ 21 + (if r.v && r.w then r.len else 0)
  if room < off + n then some (0x3FF, (va.toNat + (room - off)) % 2 ^ 52) else none

/-- n bytes of a member's slice, at a slice offset. -/
def slicePieces (key : Nat) (c : Ctx) (off n : Nat) (va : Word) : Except JobFault (List (Loc × Nat)) :=
  if c.sliceSize < off + n then .error (Cause.window.code.toNat, (va.toNat + (c.sliceSize - off)) % 2 ^ 52)
  else .ok ((pieces (c.sliceBase + off) n n).map (fun p => ({ space := .spad, pa := key / 8 * 2 ^ 21 + p.1 }, p.2)))

/-- Poisoned indices stop a job otherwise than a failed translation (08 R181). -/
inductive MoveFail
  | fault (f : JobFault)
  | poisonedIndex (va pa : Nat)
  deriving DecidableEq, Repr

/-- The index of an element, for the indexed kinds. -/
def State.jobIndex (s : State) (j : Job) (i : Nat) : Except MoveFail (Nat × List (Loc × Nat)) :=
  let va := BitVec.ofNat 64 ((cardRegion j.card 2).base + 4 * i)
  match s.jobAccess j false va 4 with
  | .error f => .error (.fault f)
  | .ok ps =>
    let b := s.rdPieces ps
    if pany b then
      -- the sector that is poisoned, by its first byte
      let k := (b.takeWhile (fun x => !x.2)).length
      let v := (va.toNat + k) / 32 * 32
      .error (.poisonedIndex v (match ps with | (l, _) :: _ => (l.pa + k) / 32 * 32 | [] => 0))
    else .ok (pnat b, ps)

/-- Source and destination offsets of element i, in bytes from their bases. -/
def State.jobOffsets (s : State) (j : Job) (i : Nat) : Except MoveFail (Int × Int) :=
  let e := cardEsz j.card
  let dense : Int := ((i * e : Nat) : Int)
  let shaped := walkOff (cardLevels j.card) i
  match j.kind with
  | .gather => (s.jobIndex j i).map (fun x => (((x.1 * e : Nat) : Int), dense))
  | .scatter => (s.jobIndex j i).map (fun x => (dense, ((x.1 * e : Nat) : Int)))
  | .scadd => (s.jobIndex j i).map (fun x => (dense, ((x.1 * e : Nat) : Int)))
  | .copy => .ok (if j.side then (dense, shaped) else (shaped, dense))
  | .put => .ok (shaped, dense)
  | .get => .ok (shaped, dense)
  | .slx => .ok (shaped, dense)
  | .awr => .ok (dense, 0)

/-- The move of element i for a member whose context is given, or for the one destination of a job. -/
def State.jobMove (s : State) (j : Job) (m : Option Nat) (i : Nat) : Except MoveFail Move :=
  let e := cardEsz j.card
  match s.jobOffsets j i with
  | .error f => .error f
  | .ok (so, d) =>
    let sva := offVa (cardRegion j.card 0).base so
    let dva := offVa (cardRegion j.card 1).base d
    match s.jobAccess j false sva e with
    | .error f => .error (.fault f)
    | .ok src =>
      let off := (cardRegion j.card 1).base % 2 ^ 21 + d.toNat
      let dst : Except JobFault (List (Loc × Nat)) := match m with
        | some key => (match memberBreach j off e dva with | some f => .error f | none => slicePieces key (s.ctxAt key) off e dva)
        | none => s.jobAccess j true dva e
      match dst with
      | .error f => .error (.fault f)
      | .ok dst => .ok { src, dst, sva, dva }

/-- The moves of a granule, or its first failure in walk order. -/
def State.jobMoves (s : State) (j : Job) (m : Option Nat) : List Nat → Except MoveFail (List Move)
  | [] => .ok []
  | i :: r =>
    match s.jobMove j m i with
    | .error f => .error f
    | .ok x => (s.jobMoves j m r).map (fun l => x :: l)

/-- The moves are made: each element takes the poison of its source sectors (08 R181). -/
def State.applyMoves (s : State) (l : List Move) : State :=
  -- all the sources are read, and then every destination is written in walk order
  let data := l.map (fun m => (m.dst, s.rdPieces m.src))
  data.foldl (fun s e =>
    let p := pany e.2
    s.wrPieces e.1 (e.2.map (fun b => (b.1, p)))) s

/-! ### SCADD (08 R181, 04 R82) -/

/-- One addition in the element type. -/
def scaddAdd (t : Nat) (a b : Nat) : Nat × Flags :=
  let fp (F : Fmt) : Nat × Flags :=
    let r := Num.add 0 (F.num a) (F.num b)
    let q := F.round { rm := 0 } r.1
    (q.1, r.2 ||| q.2)
  match t with
  | 0 => ((a + b) % 2 ^ 32, 0)
  | 1 => ((a + b) % 2 ^ 64, 0)
  | 2 => fp f32
  | _ => fp bf16

/-- The totals of a request by target: destination, sum, poison, and the flags raised. -/
def scaddTotals (t : Nat) : List (List (Loc × Nat) × Nat × Bool) → List (List (Loc × Nat) × Nat × Bool) × Flags
  | l => l.foldl (fun a x =>
    match a.1.find? (fun y => y.1 = x.1) with
    | none => (a.1 ++ [x], a.2)
    | some y =>
      let r := scaddAdd t y.2.1 x.2.1
      (a.1.map (fun z => if z.1 = x.1 then (z.1, r.1, z.2.2 || x.2.2) else z), a.2 ||| r.2)) ([], 0)

/-- One request of at most 32 elements: its totals are merged, each atomically, with a recall of L1 copies. -/
def State.scaddRequest (s : State) (j : Job) (l : List Move) : State :=
  let t := cardKflags j.card % 4
  let e := cardEsz j.card
  let r := scaddTotals t (l.map (fun m => let b := s.rdPieces m.src; (m.dst, pnat b, pany b)))
  let go (s : State) (x : List (Loc × Nat) × Nat × Bool) : State :=
    let s := x.1.foldl (fun s p => if p.1.space = .coh || p.1.space = .ms then s.countedRecall ((s.redirect p.1).pa / 128) else s) s
    let old := s.rdPieces x.1
    let q := scaddAdd t (pnat old) x.2.1
    (s.wrPieces x.1 (pbytes q.1 e (pany old || x.2.2))).modCtx (fun c => c.async q.2 false)
  (r.1.foldl go s).modCtx (fun c => c.async r.2 false)

/-- The requests of a granule: 32 consecutive elements each. -/
def State.scaddGranule (s : State) (j : Job) (l : List Move) : State :=
  (List.range ((l.length + 31) / 32)).foldl (fun s k => s.scaddRequest j ((l.drop (32 * k)).take 32)) s

/-! ### JOB_GRANULE_WRITE (08 R177) -/

/-- Scratchpad lines that moves write. -/
def movedLines (l : List Move) : List Nat :=
  ((l.flatMap (fun m => m.dst)).filter (fun p => p.1.space = .spad)).foldl (fun a p =>
    if a.contains (p.1.pa / 128) then a else a ++ [p.1.pa / 128]) []

/-- The zero padding of the last row of a RETILE (16 R285). -/
def State.retilePad (s : State) (j : Job) (b : Nat) : Except JobFault (List (Loc × Nat)) :=
  let total := cardTotal j.card
  let pad := (256 - total % 256) % 256
  if j.retile && total ≤ b + 256 && pad ≠ 0 then
    s.jobAccess j true (BitVec.ofNat 64 ((cardRegion j.card 1).base + total)) pad
  else .ok []

/-- FP1.BASE of a RETILE is the first byte of a row whose number is a multiple of 64 (16 R283, R285): its stack and row. -/
def State.retileRow (s : State) (j : Job) : Except JobFault (Nat × Nat) :=
  let base := (cardRegion j.card 1).base
  match s.jobAccess j true (BitVec.ofNat 64 base) 1 with
  | .error f => .error f
  | .ok ((l, _) :: _) =>
    let p := hbmPlace l.pa
    if (l.space = .coh || l.space = .nc || l.space = .ms) && paWin l.pa ≤ 2 && p.2 % 16384 = 0 then .ok (p.1, p.2 / 256)
    else .error (Cause.layout.code.toNat, base)
  | .ok [] => .error (Cause.layout.code.toNat, base)

/-- The index sectors that the elements need, with their VAs: they are read as every other access of a job is (22 R356). -/
def State.indexParts (s : State) (j : Job) (elems : List Nat) : List (Loc × Nat) :=
  if j.kind = .gather || j.kind = .scatter || j.kind = .scadd then
    elems.flatMap (fun i =>
      let va := BitVec.ofNat 64 ((cardRegion j.card 2).base + 4 * i)
      match s.jobAccess j false va 4 with
      | .ok ps => withVas va ps
      | .error _ => [])
  else []

/-- The granule of a stream at byte b is written, waits for memory, or fails. -/
def State.granuleStep (s : State) (j : Job) (pos : Nat) (m : Option Nat) (b len : Nat) : State :=
  let elems := (granuleElems j.card b).take (len / cardEsz j.card)
  match s.partsWait (s.indexParts j elems) with
  | (true, t) => t
  | (false, s) =>
  let s := s.recallsMs (s.indexParts j elems)
  match s.jobMoves j m elems, s.retilePad j b with
  | .error (.fault f), _ => s.copyFault j f
  | .error (.poisonedIndex va pa), _ =>
    (s.modCtx (fun c => c.async 0 true)).faultJob j 0x20 { cause := .poisonConsume, deferred := true, va, pa := some pa }
  | .ok _, .error f => s.copyFault j f
  | .ok l, .ok pad =>
    match s.partsWait (l.flatMap (fun x => withVas x.sva x.src ++ withVas x.dva x.dst) ++ withVas 0 pad) with
    | (true, t) => t
    | (false, t) =>
      let t := t.publishParts (l.flatMap (fun x => x.src))
      let t := if j.kind = .scadd then t.scaddGranule j l else t.applyMoves l
      let t := t.wrPieces pad (clean (List.replicate (pad.foldl (fun n p => n + p.2) 0) 0))
      let lines := if cardFedst j.card then (movedLines l).map (fun x => (pos, x)) else []
      t.setJob { j with streams := sset j.streams pos (b + elems.length * cardEsz j.card),
                        lines := j.lines ++ lines.filter (fun x => !j.lines.contains x) }

/-- Positions of the targets whose next granule can be written now. -/
def State.readyStreams (s : State) (j : Job) : List (Nat × Nat) :=
  (s.jobTargets j).zipIdx.filter (fun e =>
    sget 0 j.streams e.2 < cardTotal j.card && (!j.multicast || (match s.memberAt e.1 with | .here _ => true | _ => false)))

/-- JOB_GRANULE_WRITE of a job other than AWR and SLX. -/
def State.granule (s : State) (j : Job) : State :=
  if s.jobHeld j then s
  else
    match s.readyStreams j with
    | [] => s
    | l =>
      let r := s.pick l.length
      match l[r.1]? with
      | none => s
      | some (task, pos) =>
        let s := r.2
        let b := sget 0 j.streams pos
        let layout := if j.retile && b = 0 then (match s.retileRow j with | .error f => some f | .ok _ => none) else none
        match layout with
        | some f => s.copyFault j f
        | none =>
          let m := if j.multicast then (match s.memberAt task with | .here k => some k | _ => none) else none
          s.granuleStep j pos m b 256

/-! ### AWR (08 R182; 16 R289, R290) -/

/-- Fields of a bucket word. -/
def bucketHandle (c : BitVec 512) : Nat := cardBits c 116 12
def bucketRound (c : BitVec 512) : Nat := cardBits c 108 8
def bucketId (c : BitVec 512) : Nat := cardBits c 96 12
def bucketOff (c : BitVec 512) : Nat := cardBits c 64 32

/-- Key of a bucket set of a partition. -/
def setKey (part handle : Nat) : Nat := part * 4096 + handle

/-- The basin die that holds a handle of a partition, with its set. -/
def State.findSet (s : State) (part handle : Nat) : Option (Nat × BucketSet) :=
  s.basins.findSome? (fun b =>
    (sget? b.2.sets (setKey part handle)).map (fun x => (b.1, x)))

/-- BUCKET_ERR, deferred. -/
def State.bucketFault (s : State) (j : Job) : State :=
  s.faultJob j 0x32 { cause := .bucketErr, deferred := true, va := j.cardVa % 2 ^ 52 }

/-- The checks of R289. -/
def awrRangeOk (b : BucketSet) (off n id : Nat) : Bool :=
  let g := 2 ^ b.seglog2
  off % g = 0 && (n % g = 0 || b.elems ≤ off + n) && off + n ≤ (b.elems + g - 1) / g * g && id < b.expect

/-- Elements lo to lo + n − 1 of the gradients, each as a 32-bit pattern with the first poisoned sector's VA and PA. -/
def State.gradients (s : State) (j : Job) (l : List Move) : List (Word32 × Option (Nat × Nat)) :=
  l.map (fun m =>
    let b := s.rdPieces m.src
    let v := if cardEsz j.card = 2 then pnat b * 65536 else pnat b
    (BitVec.ofNat 32 v,
     if pany b then some (m.sva.toNat / 32 * 32, match m.src with | (p, _) :: _ => p.pa / 32 * 32 | [] => 0) else none))

/-- One source access of an AWR. -/
def State.awrMove (s : State) (j : Job) (i : Nat) : Except JobFault Move :=
  let sva := offVa (cardRegion j.card 0).base ((i * cardEsz j.card : Nat) : Int)
  (s.jobAccess j false sva (cardEsz j.card)).map (fun src => { src, dst := [], sva, dva := 0 })

def State.awrMoves (s : State) (j : Job) : List Nat → Except JobFault (List Move)
  | [] => .ok []
  | i :: r =>
    match s.awrMove j i with
    | .error f => .error f
    | .ok x => (s.awrMoves j r).map (fun l => x :: l)

/-- Elements lo to lo + n − 1 are read and handed on, or the job waits or fails. -/
def State.awrSend (s : State) (j : Job) (lo n : Nat) (f : State → Job → List (Word32 × Bool) → State) : State :=
  match s.awrMoves j ((List.range n).map (fun i => lo + i)) with
  | .error e => s.copyFault j e
  | .ok l =>
    match s.partsWait (l.flatMap (fun x => withVas x.sva x.src)) with
    | (true, t) => t
    | (false, t) =>
      let t := t.publishParts (l.flatMap (fun x => x.src))
      let d := t.gradients j l
      let bad := d.findSome? (fun x => x.2)
      f t { j with poisoned := j.poisoned.or bad } (d.map (fun x => (x.1, x.2.isSome)))

/-- A segment has answered for an AWR. -/
def Job.answer (j : Job) (seg : Nat) : Job :=
  let l := if j.answered.contains seg then j.answered else j.answered ++ [seg]
  { j with answered := l, progress := l.length }

/-- A remote package answers for a forwarded handle: accepted, rejected as a duplicate, or refused (16 R289). Its answer and its
segment size, of 2^6 to 2^16 elements, are free (log 14). -/
def State.remoteAnswer (s : State) (j : Job) : State :=
  let x := Config.arb s.freeIx
  let s := { s with freeIx := s.freeIx + 1 }
  let g := 2 ^ (6 + x / 3 % 11)
  if x % 3 = 2 then s.bucketFault j
  else s.setJob { j with dup := x % 3 = 1, progress := ((cardCounts j.card).headD 0 + g - 1) / g, sent := 1,
                         streams := sset j.streams 0 (cardTotal j.card) }

/-- The segments that an AWR touches, in a set that is held here. -/
def awrSegs (j : Job) (x : BucketSet) : List Nat :=
  let g := 2 ^ x.seglog2
  (List.range (((cardCounts j.card).headD 0 + g - 1) / g)).map (fun i => bucketOff j.card / g + i)

/-- The first of them that has not answered and whose contribution is not on its way. -/
def State.awrNext (s : State) (b : Nat) (j : Job) (x : BucketSet) : Option Nat :=
  (awrSegs j x).find? (fun g => !j.answered.contains g && !(s.basinAt b).inbound.any (fun c => c.ctx = s.key && c.job = j.seq && c.seg = g))

/-- JOB_GRANULE_WRITE of an AWR: the checks, and then one segment's contribution. -/
def State.awrGranule (s : State) (j : Job) : State :=
  let part := partOfKey s.ctx.owner
  let n := (cardCounts j.card).headD 0
  let off := bucketOff j.card
  if s.jobHeld j then s
  else
    match s.findSet part (bucketHandle j.card) with
    | none => s.bucketFault j
    | some (b, x) =>
      if x.fwd then (if j.sent = 0 then s.awrSend j 0 n (fun t j _ => t.remoteAnswer j) else s)
      else if !awrRangeOk x off n (bucketId j.card) then s.bucketFault j
      else
        let g := 2 ^ x.seglog2
        match s.awrNext b j x with
        | none => s
        | some seg =>
          let lo := (seg - off / g) * g
          s.awrSend j lo (min g (n - lo)) (fun t j data =>
            let c : Contribution :=
              { part, handle := bucketHandle j.card, round := bucketRound j.card, id := bucketId j.card, seg,
                data, ctx := t.key, job := j.seq, bcy := t.now / 6 }
            (t.setJob { j with sent := j.sent + 1 }).modBasin b (fun y => { y with inbound := y.inbound ++ [c] }))

/-- Every segment that an AWR touches has answered. -/
def State.awrDone (s : State) (j : Job) : Bool :=
  match s.findSet (partOfKey s.ctx.owner) (bucketHandle j.card) with
  | none => false
  | some (_, x) =>
    if x.fwd then j.sent = 1 else (awrSegs j x).all j.answered.contains

def execJobGranuleWrite (job : Nat) (s : State) : Host.Outcome State Fault Refusal :=
  match s.activeJob job with
  | none => .next s
  | some j =>
    match j.kind with
    | .awr => .next (s.awrGranule j)
    | .slx => .next s
    | .copy => .next (s.granule j)
    | .put => .next (s.granule j)
    | .get => .next (s.granule j)
    | .gather => .next (s.granule j)
    | .scatter => .next (s.granule j)
    | .scadd => .next (s.granule j)

/-! ### SLX (08 R183, 09 R210) -/

/-- A member of an SLX that has not had the chunk that starts at byte b. -/
def State.chunkLeft (s : State) (j : Job) (b : Nat) : List (Nat × Nat) :=
  (s.jobTargets j).zipIdx.filter (fun e => sget 0 j.streams e.2 < b && s.memberAt e.1 ≠ .gone)

/-- Granules of a chunk from byte b up to byte e, in walk order, until one waits or fails. -/
def State.chunkGranules (s : State) (job pos key : Nat) : Nat → Nat → State
  | 0, _ => s
  | fuel + 1, e =>
    match s.activeJob job with
    | none => s
    | some j =>
      let b := sget 0 j.streams pos
      if e ≤ b then s
      else
        let t := s.granuleStep j pos (some key) b (min 256 (e - b))
        if (t.activeJob job).map (fun k => sget 0 k.streams pos) = some b then t else t.chunkGranules job pos key fuel e

/-- SLX_CHUNK_DELIVER: the chunk that all the members before it have reached goes to one member that lacks it, and then its
semaphore is incremented. Later chunks wait for a member that is not resident. -/
def execSlxChunkDeliver (job : Nat) (s : State) : Host.Outcome State Fault Refusal :=
  match s.activeJob job with
  | none => .next s
  | some j =>
    if j.kind ≠ .slx || s.jobHeld j then .next s
    else
      let len := (cardCounts j.card).headD 0 * cardEsz j.card
      let live := (s.jobTargets j).zipIdx.filter (fun e => s.memberAt e.1 ≠ .gone)
      let least := live.foldl (fun a e => min a (sget 0 j.streams e.2)) (cardTotal j.card)
      let stop := (least / len + 1) * len
      let able := (s.chunkLeft j stop).filter (fun e => match s.memberAt e.1 with | .here _ => true | _ => false)
      if cardTotal j.card ≤ least || able.isEmpty then .next s
      else
        let r := s.pick able.length
        match able[r.1]? with
        | none => .next s
        | some (task, pos) =>
          match r.2.memberAt task with
          | .here key =>
            let t := r.2.chunkGranules job pos key (len / 256 + 2) stop
            if (t.activeJob job).map (fun k => sget 0 k.streams pos) = some stop then .next (t.addSem (key / 8) (cardSem j.card) 1)
            else .next t
          | .held => .next r.2
          | .gone => .next r.2

/-! ### Handler arrivals (09 R203) -/

/-- An arrival joins the queue after those of earlier cycles and after those of its own cycle with lower senders. -/
def insArrival (a : HArrival) : List HArrival → List HArrival
  | [] => [a]
  | b :: l =>
    if b.cycle = a.cycle && (a.senderCore < b.senderCore || (a.senderCore = b.senderCore && a.sender < b.sender)) then a :: b :: l
    else b :: insArrival a l

/-- A dormant handler context of a core. -/
def State.dormant (s : State) (core : Nat) : Option Nat :=
  [4, 5, 6, 7].find? (fun k => (s.ctxAt (ctxKey core k)).phase = .free && !(s.coreAt core).active.contains k)

/-- The context of a new activation (02 R27, 09 R203). -/
def handlerCtx (a : HArrival) (owner launchid seg : Nat) : Ctx :=
  let r (v : Nat) : SReg := { v := BitVec.ofNat 64 v }
  { s := [(1, r (spadVa 0x3FF a.payload)), (2, r a.bytes), (3, r a.sender), (4, r a.word.toNat)],
    owner, launchid := BitVec.ofNat 32 launchid, hindex := a.hidx, phase := .pending seg }

/-- Arrivals at the head of a core's queue take dormant contexts, once the cycle in which they entered is over. -/
def State.takeArrivals (s : State) (core k : Nat) : Nat → State
  | 0 => s
  | fuel + 1 =>
    match (s.coreAt core).inq, s.dormant core, (s.fctxAt k).launch with
    | a :: rest, some slot, some l =>
      if s.cycles ≤ a.cycle then s
      else
      let seg := (match l.handlers[a.hidx]? with | some h => h.1 | none => 0)
      let old := s.ctxAt (ctxKey core slot)
      let c : Ctx := { handlerCtx a k l.par.launchid.toNat seg with ebudget := old.ebudget, eunder := old.eunder, asyncf := old.asyncf }
      let s := (s.setCtxAt (ctxKey core slot) c).modCoreAt core (fun x => { x with inq := rest, active := x.active ++ [slot] })
      s.takeArrivals core k fuel
    | _, _, _ => s

/-- A handler arrival enters the queue of a core, which has room. -/
def State.arrive (s : State) (core : Nat) (a : HArrival) : State :=
  s.modCoreAt core (fun x => { x with inq := insArrival a x.inq })

/-! ### JOB_COMPLETE (08 R178) -/

/-- The core whose semaphore and handler queue a target's completion acts on. -/
def State.completionCore (s : State) (j : Job) (task : Nat) : Option Nat :=
  if j.multicast then (match s.memberAt task with | .here k => some (k / 8) | _ => none)
  else some (if cardTarget j.card = 0x3FF then s.cur.core else coreBase s.cur.core + cardTarget j.card)

/-- Core offset of the first byte that a target was delivered. -/
def State.payloadOf (s : State) (j : Job) (task : Nat) : Nat :=
  let base := (cardRegion j.card 1).base
  match (if j.multicast then s.memberAt task else .gone) with
  | .here key => (s.ctxAt key).sliceBase + base % 2 ^ 21
  | _ =>
    match s.jobResolve (BitVec.ofNat 64 base) with
    | .spad _ off _ => off
    | .global _ _ => 0
    | .bad _ => 0

/-- The completion steps of one target, or none while its handler queue is full. -/
def State.completeTarget (s : State) (j : Job) (task pos : Nat) : Option State :=
  match s.completionCore j task with
  | none => some s
  | some core =>
    let s := s.takeArrivals core s.ctx.owner 16
    if cardHv j.card && 16 ≤ (s.coreAt core).inq.length then none
    else
      let s := (j.lines.filter (fun l => l.1 = pos)).foldl (fun s l => s.setFull l.2 true) s
      let s := if cardSemv j.card && j.kind ≠ .slx then s.addSem core (cardSem j.card) 1 else s
      if cardHv j.card then
        let a : HArrival := { hidx := cardHidx j.card, payload := s.payloadOf j task, bytes := cardTotal j.card,
                              sender := s.ctx.taskid.toNat, senderCore := coreNo s.cur.core,
                              word := BitVec.ofNat 32 (cardWord j.card), cycle := s.cycles }
        some (s.arrive core a)
      else some s

/-- The shape record of a RETILE (16 R284, R285). -/
def State.shapeRecord (j : Job) (stack row : Nat) : List Byte :=
  let e := cardEsz j.card
  let rows := (cardElems j.card + 256 / e - 1) / (256 / e)
  let layout := match e with | 4 => 0x0101 | 2 => 0x0102 | _ => 0x0103
  let etype := match e with | 4 => 0 | 2 => 1 | _ => 2 + cardKflags j.card / 4
  leBytes 0xB5 1 ++ leBytes 1 1 ++ leBytes layout 2 ++ leBytes stack 1 ++ leBytes etype 1 ++ leBytes 0 2
    ++ leBytes (cardElems j.card) 8 ++ leBytes row 4 ++ leBytes rows 4 ++ leBytes (cardRegion j.card 1).base 8 ++ leBytes 0 32

/-- The record of a RETILE is written after its rows; other jobs go on at once. -/
def State.writeRecord (s : State) (j : Job) : Except JobFault (Bool × State) :=
  if !j.retile then .ok (true, s)
  else
    let va := BitVec.ofNat 64 (cardRegion j.card 3).base
    match s.retileRow j, s.jobAccess j true va 64 with
    | .error f, _ => .error f
    | _, .error f => .error f
    | .ok (stack, row), .ok ps =>
      match s.partsWait (withVas va ps) with
      | (true, t) => .ok (false, t)
      | (false, t) => .ok (true, t.wrPieces ps (clean (State.shapeRecord j stack row)))

/-- Targets whose bytes are all delivered and whose completion steps are to be done; those that are gone need none. -/
def State.completable (s : State) (j : Job) : List (Nat × Nat) :=
  (s.jobTargets j).zipIdx.filter (fun e =>
    !j.finished.contains e.2 &&
      ((j.multicast && s.memberAt e.1 = .gone) || (if j.kind = .awr then s.awrDone j else cardTotal j.card ≤ sget 0 j.streams e.2)))

/-- The status of a completed job (08 R179, R182), with the deferred consumption of a poisoned AWR. -/
def State.finishJob (s : State) (j : Job) : State :=
  match j.poisoned with
  | some (va, pa) =>
    let t : TrapInfo := { cause := .poisonConsume, deferred := true, va, pa := some pa }
    (s.modCtx (fun c => { c with deferred := c.deferred ++ [t] }.async 0 true)).completeJob j 4
  | none => s.completeJob j (if j.dup then 3 else 0)

/-- JOB_COMPLETE: the completion steps of one target, and with the last one the job's own. -/
def execJobComplete (job : Nat) (s : State) : Host.Outcome State Fault Refusal :=
  match s.activeJob job with
  | none => .next s
  | some j =>
    if (s.jobTargets j).length ≤ j.finished.length then .next (s.finishJob j)
    else
      match s.completable j with
      | [] => .next s
      | l =>
        let r := s.pick l.length
        match l[r.1]? with
        | none => .next s
        | some (task, pos) =>
          match r.2.writeRecord j with
          | .error f => .next (r.2.copyFault j f)
          | .ok (false, t) => .next t
          | .ok (true, t) =>
            match t.completeTarget j task pos with
            | none => .next s
            | some t =>
              let j := { j with finished := j.finished ++ [pos] }
              if (s.jobTargets j).length ≤ j.finished.length then .next (t.finishJob j) else .next (t.setJob j)

/-! ### ENGWAIT, CPRESUME, CPABORT (08 R179, R180) -/

/-- The job of a card that was issued last, among those that the context still holds. -/
def Ctx.jobOf (c : Ctx) (card : Nat) : Option Job :=
  (c.jobs.filter (fun j => j.2.cardVa = card)).foldl (fun a j =>
    match a with
    | none => some j.2
    | some (b : Job) => if b.seq < j.2.seq then some j.2 else some b) none

/-- What an ENGWAIT of a card finds: a word that lands at once, or a job to wait for. -/
def Ctx.engwaitOf (c : Ctx) (card : Nat) : Word ⊕ Nat :=
  let k := c.kept.find? (fun e => e.1 = card)
  match c.jobOf card with
  | some j =>
    if (k.map (fun e => decide (j.seq < e.2.1))).getD false then .inl ((k.map (·.2.2)).getD 0xFF)
    else if j.ended then .inl (j.word 1)
    else .inr j.seq
  | none => .inl ((k.map (·.2.2)).getD 0xFF)

/-- A poisoned card pointer is not consumed (19 R334). -/
def semEngwait (r : M) : SlotSem :=
  { guard := some r.g, srcs := [(.s r.a, r.ta)], dsts := [.s r.d],
    eff := fun s => s.modCtx (fun c =>
      match c.engwaitOf (c.sreg r.a).v.toNat with
      | .inl w => (c.arriveS s.cur.bslot r.d w false).mark (.s r.d)
      | .inr j => { c with engwaits := c.engwaits ++ [(r.d, s.cur.bslot, j, c.entryId s.cur.bslot 0)] }.mark (.s r.d)) }

/-- The task's FAULTED job of a card that was issued last. -/
def Ctx.faultedOf (c : Ctx) (card : Nat) : Option Job :=
  ({ c with jobs := c.jobs.filter (fun j => j.2.ended) }).jobOf card

/-- A FAULTED job of the current context restarts at its progress, with copies taken again (08 R180, 15 R273). -/
def State.resumeJob (s : State) (j : Job) : State :=
  let s : State := { s with changes := s.changes.map (fun c => { c with ahead := c.ahead.filter (fun x => x ≠ (s.key, j.seq)) }) }
  let s := s.setJob { j with st := .active, cause := 0, copies := s.jobCopies j.kind j.card }
  match j.phaser with
  | some k => s.modPhaser k (fun p => { p with faulted := p.faulted - 1 })
  | none => s

/-- A FAULTED job is dropped, its phaser binding with fault (08 R180, R186). -/
def State.abortJob (s : State) (j : Job) : State :=
  let s := s.endJob { j with cause := 0 } 2
  match j.phaser with
  | some k => s.phaserStep k (fun p =>
      { p with members := p.members.filter (fun m => !m.is s.key (some j.seq)), faulted := p.faulted - 1, dropf := satInc p.dropf })
  | none => s

/-- A poisoned card pointer is not consumed (19 R334). `run` is what holds the instruction back. -/
def faultedSem (r : M) (run : State → Job → Verdict) (f : State → Job → State) : SlotSem :=
  { guard := some r.g, srcs := [(.s r.a, r.ta)],
    run := fun s => match s.ctx.faultedOf (s.ctx.sreg r.a).v.toNat with | some j => run s j | none => .go,
    eff := fun s =>
      match s.ctx.faultedOf (s.ctx.sreg r.a).v.toNat with
      | some j => f s j
      | none => s }

def semCpresume (r : M) : SlotSem := faultedSem r (fun s j => s.copiesWait j.kind j.card) State.resumeJob
def semCpabort (r : M) : SlotSem := faultedSem r (fun _ _ => .go) State.abortJob

def execCopy (r : M) (s : State) : Host.Outcome State Fault Refusal := runSlot (.copy r) (semCopy r) s
def execPut (r : M) (s : State) : Host.Outcome State Fault Refusal := runSlot (.put r) (semPut r) s
def execGet (r : M) (s : State) : Host.Outcome State Fault Refusal := runSlot (.get r) (semGet r) s
def execGather (r : M) (s : State) : Host.Outcome State Fault Refusal := runSlot (.gather r) (semGather r) s
def execScatter (r : M) (s : State) : Host.Outcome State Fault Refusal := runSlot (.scatter r) (semScatter r) s
def execScadd (r : M) (s : State) : Host.Outcome State Fault Refusal := runSlot (.scadd r) (semScadd r) s
def execAwr (r : M) (s : State) : Host.Outcome State Fault Refusal := runSlot (.awr r) (semAwr r) s
def execSlx (r : M) (s : State) : Host.Outcome State Fault Refusal := runSlot (.slx r) (semSlx r) s
def execEngwait (r : M) (s : State) : Host.Outcome State Fault Refusal := runSlot (.engwait r) (semEngwait r) s
def execCpresume (r : M) (s : State) : Host.Outcome State Fault Refusal := runSlot (.cpresume r) (semCpresume r) s
def execCpabort (r : M) (s : State) : Host.Outcome State Fault Refusal := runSlot (.cpabort r) (semCpabort r) s

end Sys2Proof.Machine
end

