-- ==== Sys2Proof/Machine/Vector.lean ====
section
/-! DEFINITION. Vector-slot instructions (06 R108 to R130), on the element values of Numbers. -/

namespace Sys2Proof.Machine

/-! ### Elements, masks and poison (06 R108 to R111) -/

/-- Element i of e bits of a register's value. -/
def elem (v : Nat) (e i : Nat) : Nat := v / 2 ^ (e * i) % 2 ^ e

/-- Some lane position that holds a bit of <pos+len−1:pos> is poisoned. -/
def spanPois (p : BitVec 32) (pos len : Nat) : Bool :=
  (List.range ((pos + len + 31) / 32 - pos / 32)).any (fun j => p.getLsbD (pos / 32 + j))

/-- Element i of e bytes is active under mask m (02 R29). -/
def MReg.active (m : MReg) (e i : Nat) : Bool := m.v.getLsbD (i * e)
/-- The mask lane position that governs it is poisoned (02 R29; a mask's lane position covers four mask bits, log 13). -/
def MReg.governs (m : MReg) (e i : Nat) : Bool := m.pois.getLsbD (i * e / 4)

/-- Bits of a destination that a result writes, with the poison of the element and the flags that it raises at a
lane position. -/
structure Put where
  pos : Nat
  len : Nat
  val : Nat
  pois : Bool := false
  flags : Flags := 0
  lane : Nat := 0

def putsVal (l : List Put) : Nat := l.foldl (fun a p => a ||| (p.val % 2 ^ p.len) <<< p.pos) 0
def putsMask (l : List Put) : Nat := l.foldl (fun a p => a ||| (2 ^ p.len - 1) <<< p.pos) 0

/-- Lane positions of u bits that a poisoned element is written into. -/
def putsPois (u : Nat) (l : List Put) : BitVec 32 :=
  l.foldl (fun a p => if p.pois then a ||| BitVec.ofNat 32 ((2 ^ ((p.pos + p.len + u - 1) / u) - 1) / 2 ^ (p.pos / u) * 2 ^ (p.pos / u)) else a) 0

/-- Lane positions of u bits that are written whole. -/
def putsWhole (u : Nat) (mask : Nat) : BitVec 32 :=
  (List.range 32).foldl (fun a j => if mask / 2 ^ (u * j) % 2 ^ u = 2 ^ u - 1 then a ||| (1#32 <<< j) else a) 0

/-- The lane positions of u bits that a put touches. -/
def Put.lanes (u : Nat) (p : Put) : BitVec 32 := putsPois u [{ p with pois := true }]

/-- The puts that raise flags, unless nf: those of which no lane position is poisoned by an element (04 R78). -/
def putsClean (u : Nat) (nf : Bool) (l : List Put) : List Put :=
  let bad := putsPois u l
  if nf then [] else l.filter (fun p => p.flags ≠ 0 && p.lanes u &&& bad = 0)

/-- Flags of the puts whose lane positions are written whole. -/
def putsFlags (u : Nat) (nf : Bool) (l : List Put) : BitVec 192 :=
  let whole := putsWhole u (putsMask l)
  ((putsClean u nf l).filter (fun p => p.lanes u &&& ~~~whole = 0)).foldl (fun a p => a ||| laneFlags p.flags p.lane) 0

/-- Flags of the other puts, with the lane positions that may keep an old poison. -/
def putsPart (u : Nat) (nf : Bool) (l : List Put) : List (BitVec 32 × BitVec 192) :=
  let whole := putsWhole u (putsMask l)
  ((putsClean u nf l).filter (fun p => p.lanes u &&& ~~~whole ≠ 0)).map (fun p => (p.lanes u, laneFlags p.flags p.lane))

/-- The puts as a result in flight: a lane position ends poisoned when a poisoned element is written into it, and
clean when it is written whole with clean ones (06 R110). No element written is no result. -/
def Ctx.issuePuts (c : Ctx) (slot lat : Nat) (d : Dest) (u : Nat) (nf : Bool) (l : List Put) (ucnt : List (Nat × Nat) := []) : Ctx :=
  if l.isEmpty && ucnt.isEmpty then c
  else
    let mask := putsMask l
    let bad := putsPois u l
    c.issue slot lat d (BitVec.ofNat 1024 (putsVal l)) (BitVec.ofNat 1024 mask) bad (bad ||| putsWhole u mask)
      (putsFlags u nf l) ucnt (putsPart u nf l)

/-! ### Rounding modes of an instruction (04 R71, R73; 06 R111) -/

/-- The mode of a rm field, DYN resolved. -/
def Ctx.rmOf (c : Ctx) (rm : BitVec 3) : Nat := if rm = 6 then c.rmode.toNat else rm.toNat

/-- The mode for element i, with the rill value of SR, and the significand bits of a stored value (04 R73). -/
def Ctx.modeAt (c : Ctx) (rm : BitVec 3) (sig : Nat) (i : Nat) : Mode :=
  { rm := c.rmOf rm, rill := (rill c.srseed (BitVec.ofNat 32 i) c.srctr).toNat, sig }

/-- An SR instruction adds 1 to SRCTR after it issues (04 R73). -/
def Ctx.afterSr (c : Ctx) (usesRm : Bool) (rm : BitVec 3) : Ctx :=
  if usesRm && c.rmOf rm = 5 then { c with srctr := c.srctr + 1 } else c

/-! ### Shapes -/

/-- Width in bits, element size and count of a vector slot (06 R108). -/
def vWidth (r : V) : Nat := wBits r.w
def vEs (r : V) : Nat := etBits r.et
def vN (r : V) : Nat := (vWidth r) / (vEs r)
def vImm6 (r : V) : Nat := r.c.toNat

def etFmt (et : BitVec 3) : Option Fmt := match et.toNat with | 3 => some bf16 | 4 => some f16 | 5 => some f32 | _ => none

/-- A vector instruction: full/empty-tested sources, destination, lane unit of the destination, whether rm is
used, and what it writes. -/
def vecSem (r : V) (lat : Nat) (srcs : List (FReg × Bool)) (d : Dest) (u : Nat) (usesRm : Bool) (f : Ctx → List Put) : SlotSem :=
  { guard := none, srcs, dsts := match d with | .v i => [.v i] | _ => [],
    eff := fun s => s.modCtx (fun c => (c.issuePuts s.cur.bslot lat d u r.nf (f c)).afterSr usesRm r.rm) }

def vSrcA (r : V) : List (FReg × Bool) := [(.v r.a, r.ta)]
def vSrcAB (r : V) : List (FReg × Bool) := [(.v r.a, r.ta), (.v r.b, r.tb)]
def vSrcABC (r : V) : List (FReg × Bool) := [(.v r.a, r.ta), (.v r.b, r.tb), (.v r.c, r.tc)]

/-- Element by element: each active element i is f i of the sources' elements i. -/
def vEach (r : V) (c : Ctx) (xs : List VReg) (f : Nat → List Nat → Nat × Flags) : List Put :=
  let e := (vEs r)
  let m := c.mreg r.m
  (List.range (vN r)).filterMap (fun i =>
    if m.active (e / 8) i then
      let y := f i (xs.map (fun x => elem x.v.toNat e i))
      some { pos := e * i, len := e, val := y.1, flags := y.2, lane := e * i / 32,
             pois := m.governs (e / 8) i || xs.any (fun x => spanPois x.pois (e * i) e) }
    else none)

def arg (l : List Nat) (k : Nat) : Nat := l.getD k 0

/-- The value of n bits clamped or wrapped (04 R66). -/
def fit (sat : Bool) (n : Nat) (v : Int) : Nat := intBits n (if sat then clampInt n v else v)

/-- A float operation on elements, rounded once. -/
def vRoundOp (r : V) (c : Ctx) (F : Fmt) (f : Nat → List Num → Res) (i : Nat) (xs : List Nat) : Nat × Flags :=
  let y := f (c.rmOf r.rm) (xs.map F.num)
  let z := F.round (c.modeAt r.rm 0 i) y.1
  (z.1, z.2 ||| y.2)

def narg (l : List Num) (k : Nat) : Num := l.getD k (.nan false)

/-- VADD, VSUB, VMUL: an exact float or integer operation on two sources (06 R113). -/
def arithSem (r : V) (f : Nat → Num → Num → Res) (g : Int → Int → Int) : SlotSem :=
  vecSem r (if etFloat r.et then 3 else 2) (vSrcAB r) (.v r.d) 32 (etFloat r.et) (fun c =>
    (vEach r) c [c.vreg r.a, c.vreg r.b] (fun i xs =>
      match etFmt r.et with
      | some F => (vRoundOp r) c F (fun rm l => f rm (narg l 0) (narg l 1)) i xs
      | none => (fit r.sat (vEs r) (g (signedOf (vEs r) (arg xs 0)) (signedOf (vEs r) (arg xs 1))), 0)))

/-- VFMA, VFMS, VFNMA (06 R114). -/
def fmaSem (r : V) (negp negc : Bool) : SlotSem :=
  vecSem r 4 (vSrcABC r) (.v r.d) 32 true (fun c =>
    (vEach r) c [c.vreg r.a, c.vreg r.b, c.vreg r.c] (fun i xs =>
      match etFmt r.et with
      | some F => (vRoundOp r) c F (fun rm l => Num.fma rm negp negc (narg l 0) (narg l 1) (narg l 2)) i xs
      | none => (0, 0)))

/-- VMIN, VMAX, VMINN, VMAXN (06 R115). -/
def minmaxSem (r : V) (mx number : Bool) : SlotSem :=
  vecSem r (if etFloat r.et then 3 else 2) (vSrcAB r) (.v r.d) 32 false (fun c =>
    (vEach r) c [c.vreg r.a, c.vreg r.b] (fun _ xs =>
      match etFmt r.et with
      | some F => F.minmax mx number (arg xs 0) (arg xs 1)
      | none =>
        let a := signedOf (vEs r) (arg xs 0)
        let b := signedOf (vEs r) (arg xs 1)
        (if (if mx then b ≤ a else a ≤ b) then arg xs 0 else arg xs 1, 0)))

/-- VABS and VNEG (06 R116). -/
def signSem (r : V) (abs : Bool) : SlotSem :=
  vecSem r 2 (vSrcA r) (.v r.d) 32 false (fun c =>
    (vEach r) c [c.vreg r.a] (fun _ xs =>
      let x := arg xs 0
      let top := 2 ^ ((vEs r) - 1)
      match etFmt r.et with
      | some F =>
        if (F.num x).isNan then (F.canon, snanFlag [F.num x])
        else (if abs then x % top else (if x < top then x + top else x - top), 0)
      | none =>
        let v := signedOf (vEs r) x
        (fit r.sat (vEs r) (if abs then (v.natAbs : Int) else -v), 0)))

/-- An integer operation on one or more sources' elements. -/
def intSem (r : V) (lat : Nat) (srcs : List (FReg × Bool)) (xs : Ctx → List VReg) (f : List Nat → Nat) : SlotSem :=
  vecSem r lat srcs (.v r.d) 32 false (fun c => (vEach r) c (xs c) (fun _ l => (f l, 0)))

def int2Sem (r : V) (f : Nat → Nat → Nat) : SlotSem :=
  intSem r 2 (vSrcAB r) (fun c => [c.vreg r.a, c.vreg r.b]) (fun l => f (arg l 0) (arg l 1))
def int1Sem (r : V) (f : Nat → Nat) : SlotSem := intSem r 2 (vSrcA r) (fun c => [c.vreg r.a]) (fun l => f (arg l 0))

/-! ### Integer values (06 R117 to R120) -/

def vandn (e a b : Nat) : Nat := a &&& (2 ^ e - 1 - b)
def vshl (sat : Bool) (e a k : Nat) : Nat :=
  if sat then intBits e (clampInt e (signedOf e a * ((2 ^ min k e : Nat) : Int))) else if k < e then a * 2 ^ k % 2 ^ e else 0
def vshr (e a k : Nat) : Nat := if k < e then a / 2 ^ k else 0
def vsar (e a k : Nat) : Nat := intBits e (signedOf e a / ((2 ^ min k e : Nat) : Int))
def vclz (e a : Nat) : Nat := e - (if a = 0 then 0 else a.log2 + 1)
def vpopc (a : Nat) : Nat → Nat
  | 0 => 0
  | w + 1 => a % 2 + vpopc (a / 2) w
def vmulh (e a b : Nat) : Nat := intBits e (signedOf e a * signedOf e b / ((2 ^ e : Nat) : Int))
def vdot4 (sat : Bool) (a b c : Nat) : Nat :=
  fit sat 32 ((List.range 4).foldl (fun t k => t + signedOf 8 (a / 2 ^ (8 * k)) * signedOf 8 (b / 2 ^ (8 * k))) (signedOf 32 c))

/-! ### The instructions -/

def semVnop : SlotSem := { guard := none, eff := fun s => s }
def semVadd (r : V) : SlotSem := arithSem r Num.add (fun a b => a + b)
def semVsub (r : V) : SlotSem := arithSem r (fun rm a b => a.add rm b.negate) (fun a b => a - b)
def semVmul (r : V) : SlotSem := arithSem r (fun _ a b => a.mul b) (fun a b => a * b)
def semVfma (r : V) : SlotSem := fmaSem r false false
def semVfms (r : V) : SlotSem := fmaSem r false true
def semVfnma (r : V) : SlotSem := fmaSem r true false
def semVmin (r : V) : SlotSem := minmaxSem r false false
def semVmax (r : V) : SlotSem := minmaxSem r true false
def semVminn (r : V) : SlotSem := minmaxSem r false true
def semVmaxn (r : V) : SlotSem := minmaxSem r true true
def semVabs (r : V) : SlotSem := signSem r true
def semVneg (r : V) : SlotSem := signSem r false
def semVand (r : V) : SlotSem := int2Sem r (fun a b => a &&& b)
def semVor (r : V) : SlotSem := int2Sem r (fun a b => a ||| b)
def semVxor (r : V) : SlotSem := int2Sem r (fun a b => a ^^^ b)
def semVandn (r : V) : SlotSem := int2Sem r (vandn (vEs r))
def semVshl (r : V) : SlotSem := int2Sem r (vshl r.sat (vEs r))
def semVshr (r : V) : SlotSem := int2Sem r (vshr (vEs r))
def semVsar (r : V) : SlotSem := int2Sem r (vsar (vEs r))
def semVshli (r : V) : SlotSem := int1Sem r (fun a => vshl r.sat (vEs r) a (vImm6 r))
def semVshri (r : V) : SlotSem := int1Sem r (fun a => vshr (vEs r) a (vImm6 r))
def semVsari (r : V) : SlotSem := int1Sem r (fun a => vsar (vEs r) a (vImm6 r))
def semVclz (r : V) : SlotSem := int1Sem r (vclz (vEs r))
def semVpopc (r : V) : SlotSem := int1Sem r (fun a => vpopc a (vEs r))
def semVmulh (r : V) : SlotSem := int2Sem r (vmulh (vEs r))
def semVdot4 (r : V) : SlotSem :=
  intSem r 4 (vSrcABC r) (fun c => [c.vreg r.a, c.vreg r.b, c.vreg r.c]) (fun l => vdot4 r.sat (arg l 0) (arg l 1) (arg l 2))

/-- The integer conditions of VCMP (06 R121). -/
def vcond (e cond a b : Nat) : Bool :=
  match cond with
  | 0 => a = b | 1 => a ≠ b | 2 => signedOf e a < signedOf e b | 3 => signedOf e a ≤ signedOf e b
  | 4 => a < b | _ => a ≤ b

/-- VCMP writes the mask bits of each active element (06 R121). -/
def semVcmp (r : V) : SlotSem :=
  vecSem r 2 (vSrcAB r) (.m (r.d.setWidth 3)) 4 false (fun c =>
    let e := (vEs r)
    ((vEach r) c [c.vreg r.a, c.vreg r.b] (fun _ xs =>
      let y : Bool × Flags := match etFmt r.et with
        | some F => F.compare ((vImm6 r) % 8) (arg xs 0) (arg xs 1)
        | none => (vcond e ((vImm6 r) % 8) (arg xs 0) (arg xs 1), 0)
      (if y.1 then 2 ^ (e / 8) - 1 else 0, y.2))).map (fun p => { p with pos := p.pos / 8, len := e / 8 }))

/-- VSEL: every element is written, from a where the selector bit is 1 and from b otherwise (06 R122). -/
def semVsel (r : V) : SlotSem :=
  vecSem r 2 (vSrcAB r) (.v r.d) 32 false (fun c =>
    let e := (vEs r)
    let m := c.mreg r.m
    (List.range (vN r)).map (fun i =>
      let x := if m.active (e / 8) i then c.vreg r.a else c.vreg r.b
      { pos := e * i, len := e, val := elem x.v.toNat e i, pois := m.governs (e / 8) i || spanPois x.pois (e * i) e }))

/-- VMLOG (06 R123). -/
def maskOp (k : Nat) (a b : BitVec 128) : BitVec 128 :=
  match k with | 0 => a &&& b | 1 => a ||| b | 2 => a ^^^ b | _ => a &&& ~~~b

def semVmlog (r : V) : SlotSem :=
  { guard := none,
    eff := fun s => s.modCtx (fun c =>
      let a := c.mreg (r.a.setWidth 3)
      let b := c.mreg (r.b.setWidth 3)
      c.issue s.cur.bslot 2 (.m (r.d.setWidth 3)) ((maskOp ((vImm6 r) % 4) a.v b.v).setWidth 1024)
        (BitVec.allOnes 1024) (a.pois ||| b.pois) (BitVec.allOnes 32)) }

/-- VMCNT (06 R123). -/
def semVmcnt (r : V) : SlotSem :=
  vecSem r 2 [] (.v r.d) 32 false (fun c =>
    let m := c.mreg (r.a.setWidth 3)
    let count := ((List.range (vN r)).filter (fun i => m.active ((vEs r) / 8) i)).length
    [{ pos := 0, len := 32, val := count, pois := (List.range ((vWidth r) / 32)).any (fun j => m.pois.getLsbD j) },
     { pos := 32, len := (vWidth r) - 32, val := 0 }])

def semVmov (r : V) : SlotSem := intSem r 2 (vSrcA r) (fun c => [c.vreg r.a]) (fun l => arg l 0)

/-- VBCAST (06 R124). -/
def semVbcast (r : V) : SlotSem :=
  vecSem r 2 [(.s r.a, r.ta)] (.v r.d) 32 false (fun c =>
    ((vEach r) c [] (fun _ _ => ((c.sreg r.a).v.toNat, 0))).map (fun p => { p with pois := p.pois || (c.sreg r.a).pois }))

/-- imm18 of VMOVI, a the high part (03 R49). -/
def vImm18 (r : V) : BitVec 18 := r.a ++ r.b ++ r.c

/-- VMOVI's result is never poisoned (06 R124). -/
def semVmovi (r : V) : SlotSem :=
  vecSem r 2 [] (.v r.d) 32 (etFloat r.et) (fun c =>
    ((vEach r) c [] (fun i _ =>
      match etFmt r.et with
      | some F =>
        let x := f32.num ((vImm18 r).toNat * 2 ^ 14)
        let y := F.round (c.modeAt r.rm f32.sig i) x
        (y.1, y.2 ||| snanFlag [x])
      | none => (intBits (vEs r) (vImm18 r).toInt, 0))).map (fun p => { p with pois := false }))

/-- VINS writes element c only (06 R124). -/
def semVins (r : V) : SlotSem :=
  vecSem r 2 [(.s r.a, r.ta)] (.v r.d) 32 false (fun c =>
    ((vEach r) c [] (fun _ _ => ((c.sreg r.a).v.toNat, 0))).filterMap (fun p =>
      if p.pos = (vEs r) * (vImm6 r) then some { p with pois := p.pois || (c.sreg r.a).pois } else none))

/-- Elements chosen by position: element i of the result is a(k) for k = f i, or zero where k is beyond n. -/
def vGather (r : V) (c : Ctx) (f : Nat → Nat × Bool) : List Put :=
  let e := (vEs r)
  let a := c.vreg r.a
  let m := c.mreg r.m
  (List.range (vN r)).filterMap (fun i =>
    if m.active (e / 8) i then
      let (k, p) := f i
      some { pos := e * i, len := e, val := (if k < (vN r) then elem a.v.toNat e k else 0),
             pois := p || m.governs (e / 8) i || (k < (vN r) && spanPois a.pois (e * k) e) }
    else none)

/-- VPERM (06 R125). -/
def semVperm (r : V) : SlotSem :=
  vecSem r 3 (vSrcAB r) (.v r.d) 32 false (fun c =>
    (vGather r) c (fun i => (elem (c.vreg r.b).v.toNat (vEs r) i, spanPois (c.vreg r.b).pois ((vEs r) * i) (vEs r))))

/-- Source position of element i under a VSHUF pattern (06 R126). -/
def shufFrom (n pat i : Nat) : Nat :=
  let k := pat % 8
  match pat / 8 with
  | 0 => i ^^^ (2 ^ (k + 1) - 1)
  | 1 => i ^^^ 2 ^ k
  | 2 => (i + 2 ^ k) % n
  | 3 => i / 2 + i % 2 * (n / 2)
  | _ => if i < n / 2 then 2 * i else 2 * (i - n / 2) + 1

def semVshuf (r : V) : SlotSem :=
  vecSem r 3 (vSrcA r) (.v r.d) 32 false (fun c => (vGather r) c (fun i => (shufFrom (vN r) (vImm6 r) i, false)))

/-- One element of VCVT (04 R67, 06 R127). -/
def convertElem (c : Ctx) (r : V) (dt : BitVec 3) (i x : Nat) : Nat × Flags :=
  let md := c.modeAt r.rm ((etFmt r.et).elim (vEs r) Fmt.sig) i
  match etFmt r.et, etFmt dt with
  | some F, some G => let y := G.round md (F.num x); (y.1, y.2 ||| snanFlag [F.num x])
  | none, some G => G.round md (Num.ofInt (signedOf (vEs r) x))
  | some F, none => (F.num x).toInt (etBits dt) md
  | none, none => (fit (r.sat && etBits dt < (vEs r)) (etBits dt) (signedOf (vEs r) x), 0)

def semVcvt (r : V) : SlotSem :=
  let dt : BitVec 3 := r.c.setWidth 3
  let es := (vEs r)
  let ds := etBits dt
  let big := max es ds
  vecSem { r with nf := r.nf && (etFloat r.et || etFloat dt) } 4 (vSrcA r) (.v r.d) 32 (etFloat r.et || etFloat dt) (fun c =>
    let m := c.mreg r.m
    let a := c.vreg r.a
    (List.range ((vWidth r) / big)).filterMap (fun i =>
      if m.active (big / 8) i then
        let y := convertElem c r dt i (elem a.v.toNat es i)
        some { pos := ds * i, len := ds, val := y.1, flags := y.2, lane := ds * i / 32,
               pois := m.governs (big / 8) i || spanPois a.pois (es * i) es }
      else none))

/-! ### Reductions and scans (04 R81, 06 R130) -/

/-- One step of VRED or VSCAN: add, min, max or or. -/
def vCombine (r : V) (c : Ctx) (i a b : Nat) : Nat × Flags :=
  match etFmt r.et with
  | some F =>
    match (vImm6 r) % 4 with
    | 0 => (vRoundOp r) c F (fun rm l => (narg l 0).add rm (narg l 1)) i [a, b]
    | 1 => F.minmax false false a b
    | _ => F.minmax true false a b
  | none =>
    let x := signedOf (vEs r) a
    let y := signedOf (vEs r) b
    match (vImm6 r) % 4 with
    | 0 => (fit r.sat (vEs r) (x + y), 0)
    | 1 => (intBits (vEs r) (min x y), 0)
    | 2 => (intBits (vEs r) (max x y), 0)
    | _ => (a ||| b, 0)

/-- The identity that a masked-off element enters as. -/
def vIdentity (r : V) : Nat :=
  match etFmt r.et with
  | some F => match (vImm6 r) % 4 with | 0 => F.signed true 0 | 1 => F.infCode | _ => F.signed true F.infCode
  | none => match (vImm6 r) % 4 with | 1 => 2 ^ ((vEs r) - 1) - 1 | 2 => 2 ^ ((vEs r) - 1) | _ => 0

/-- One level of the tree: e(i) := op(e(i), e(i + h)) for i < h. -/
def vTreeLevel (r : V) (c : Ctx) (l : List Nat) (h : Nat) : List Nat × Flags :=
  (List.range h).foldl (fun (acc : List Nat × Flags) i =>
    let y := (vCombine r) c i (arg l i) (arg l (i + h))
    (acc.1 ++ [y.1], acc.2 ||| y.2)) ([], 0)

def vTree (r : V) (c : Ctx) : Nat → List Nat → Flags → Nat × Flags
  | 0, l, f => (arg l 0, f)
  | fuel + 1, l, f =>
    if l.length ≤ 1 then (arg l 0, f)
    else
      let y := (vTreeLevel r) c l (l.length / 2)
      vTree r c fuel y.1 (f ||| y.2)

/-- Of the float forms only add uses rm (06 R130). -/
def vAddsFloat (r : V) : Bool := etFloat r.et && vImm6 r % 4 = 0

def semVred (r : V) : SlotSem :=
  vecSem r 6 (vSrcA r) (.v r.d) 32 (vAddsFloat r) (fun c =>
    let e := (vEs r)
    let m := c.mreg r.m
    let a := c.vreg r.a
    let ids := List.range (vN r)
    let l := ids.map (fun i => if m.active (e / 8) i then elem a.v.toNat e i else (vIdentity r))
    let y := (vTree r) c 8 l 0
    [{ pos := 0, len := e, val := y.1, flags := y.2, lane := 0,
       pois := ids.any (fun i => m.governs (e / 8) i || (m.active (e / 8) i && spanPois a.pois (e * i) e)) },
     { pos := e, len := e * ((vN r) - 1), val := 0 }])

/-- The running state of a scan: y(i − 1), none before element 0; poison so far; elements written, last first. -/
def vScanStep (r : V) (c : Ctx) (acc : Option Nat × Bool × List Put) (i : Nat) : Option Nat × Bool × List Put :=
  let e := (vEs r)
  let m := c.mreg r.m
  let a := c.vreg r.a
  let bad := acc.2.1 || m.governs (e / 8) i
  if m.active (e / 8) i then
    let bad := bad || spanPois a.pois (e * i) e
    let x := elem a.v.toNat e i
    let y : Nat × Flags := match acc.1 with | none => (x, 0) | some p => (vCombine r) c i p x
    (some y.1, bad, { pos := e * i, len := e, val := y.1, flags := y.2, lane := e * i / 32, pois := bad } :: acc.2.2)
  else (some (acc.1.getD (vIdentity r)), bad, acc.2.2)

def semVscan (r : V) : SlotSem :=
  vecSem r 6 (vSrcA r) (.v r.d) 32 (vAddsFloat r) (fun c => ((List.range (vN r)).foldl ((vScanStep r) c) (none, false, [])).2.2.reverse)

/-! ### Microscaling (06 R128, R129) -/

/-- VMXQ: elements packed under 04 R70, and the underflow count of each block when the result lands. A poisoned element that
underflows is counted: DESIGN CHOICE, log 52. -/
def semVmxq (r : V) : SlotSem :=
  let f := (vImm6 r) % 8
  let k := mxBits f
  let e := (vEs r)
  { guard := none, srcs := (vSrcAB r), dsts := [.v r.d],
    eff := fun s => s.modCtx (fun c =>
      let m := c.mreg r.m
      let a := c.vreg r.a
      let b := c.vreg r.b
      let F := (etFmt r.et).getD f32
      let rows := (List.range (vN r)).filterMap (fun i =>
        if m.active (e / 8) i then
          let q := mxQuant f (elem b.v.toNat 8 (i / 32)) (c.modeAt r.rm F.sig i) (F.num (elem a.v.toNat e i))
          let p : Put :=
            { pos := k * i, len := k, val := q.1, flags := q.2.1, lane := e * i / 32,
              pois := b.pois.getLsbD 0 || m.governs (e / 8) i || spanPois a.pois (e * i) e }
          some (i / 32, q.2.2, p)
        else none)
      let counts := (List.range (((vN r) + 31) / 32)).map (fun j =>
        ((2 * r.a.toNat + j) % 32, (rows.filter (fun x => x.1 = j && x.2.1)).length))
      (c.issuePuts s.cur.bslot 4 (.v r.d) 32 r.nf (rows.map (·.2.2)) counts).afterSr true r.rm) }

/-- VMXDQ (06 R129). For SR the element counts as the stored value that is converted: DESIGN CHOICE, log 52. -/
def semVmxdq (r : V) : SlotSem :=
  let f := (vImm6 r) % 8
  let k := mxBits f
  let e := (vEs r)
  vecSem r 4 (vSrcAB r) (.v r.d) 32 true (fun c =>
    let m := c.mreg r.m
    let a := c.vreg r.a
    let b := c.vreg r.b
    let F := (etFmt r.et).getD f32
    (List.range (vN r)).filterMap (fun i =>
      if m.active (e / 8) i then
        let q := mxDequant f (elem b.v.toNat 8 (i / 32)) (a.v.toNat / 2 ^ (k * i) % 2 ^ k) F (c.modeAt r.rm (mxSig f) i)
        some { pos := e * i, len := e, val := q.1, flags := q.2, lane := e * i / 32,
               pois := b.pois.getLsbD 0 || m.governs (e / 8) i || spanPois a.pois (k * i) k }
      else none))

/-! ### Execution -/

def execVnop (s : State) : Host.Outcome State Fault Refusal := runSlot .vnop semVnop s
def execVadd (r : V) (s : State) : Host.Outcome State Fault Refusal := runSlot (.vadd r) (semVadd r) s
def execVsub (r : V) (s : State) : Host.Outcome State Fault Refusal := runSlot (.vsub r) (semVsub r) s
def execVmul (r : V) (s : State) : Host.Outcome State Fault Refusal := runSlot (.vmul r) (semVmul r) s
def execVfma (r : V) (s : State) : Host.Outcome State Fault Refusal := runSlot (.vfma r) (semVfma r) s
def execVfms (r : V) (s : State) : Host.Outcome State Fault Refusal := runSlot (.vfms r) (semVfms r) s
def execVfnma (r : V) (s : State) : Host.Outcome State Fault Refusal := runSlot (.vfnma r) (semVfnma r) s
def execVmin (r : V) (s : State) : Host.Outcome State Fault Refusal := runSlot (.vmin r) (semVmin r) s
def execVmax (r : V) (s : State) : Host.Outcome State Fault Refusal := runSlot (.vmax r) (semVmax r) s
def execVminn (r : V) (s : State) : Host.Outcome State Fault Refusal := runSlot (.vminn r) (semVminn r) s
def execVmaxn (r : V) (s : State) : Host.Outcome State Fault Refusal := runSlot (.vmaxn r) (semVmaxn r) s
def execVabs (r : V) (s : State) : Host.Outcome State Fault Refusal := runSlot (.vabs r) (semVabs r) s
def execVneg (r : V) (s : State) : Host.Outcome State Fault Refusal := runSlot (.vneg r) (semVneg r) s
def execVand (r : V) (s : State) : Host.Outcome State Fault Refusal := runSlot (.vand r) (semVand r) s
def execVor (r : V) (s : State) : Host.Outcome State Fault Refusal := runSlot (.vor r) (semVor r) s
def execVxor (r : V) (s : State) : Host.Outcome State Fault Refusal := runSlot (.vxor r) (semVxor r) s
def execVandn (r : V) (s : State) : Host.Outcome State Fault Refusal := runSlot (.vandn r) (semVandn r) s
def execVshl (r : V) (s : State) : Host.Outcome State Fault Refusal := runSlot (.vshl r) (semVshl r) s
def execVshr (r : V) (s : State) : Host.Outcome State Fault Refusal := runSlot (.vshr r) (semVshr r) s
def execVsar (r : V) (s : State) : Host.Outcome State Fault Refusal := runSlot (.vsar r) (semVsar r) s
def execVshli (r : V) (s : State) : Host.Outcome State Fault Refusal := runSlot (.vshli r) (semVshli r) s
def execVshri (r : V) (s : State) : Host.Outcome State Fault Refusal := runSlot (.vshri r) (semVshri r) s
def execVsari (r : V) (s : State) : Host.Outcome State Fault Refusal := runSlot (.vsari r) (semVsari r) s
def execVcmp (r : V) (s : State) : Host.Outcome State Fault Refusal := runSlot (.vcmp r) (semVcmp r) s
def execVsel (r : V) (s : State) : Host.Outcome State Fault Refusal := runSlot (.vsel r) (semVsel r) s
def execVcvt (r : V) (s : State) : Host.Outcome State Fault Refusal := runSlot (.vcvt r) (semVcvt r) s
def execVperm (r : V) (s : State) : Host.Outcome State Fault Refusal := runSlot (.vperm r) (semVperm r) s
def execVshuf (r : V) (s : State) : Host.Outcome State Fault Refusal := runSlot (.vshuf r) (semVshuf r) s
def execVbcast (r : V) (s : State) : Host.Outcome State Fault Refusal := runSlot (.vbcast r) (semVbcast r) s
def execVmovi (r : V) (s : State) : Host.Outcome State Fault Refusal := runSlot (.vmovi r) (semVmovi r) s
def execVred (r : V) (s : State) : Host.Outcome State Fault Refusal := runSlot (.vred r) (semVred r) s
def execVscan (r : V) (s : State) : Host.Outcome State Fault Refusal := runSlot (.vscan r) (semVscan r) s
def execVmov (r : V) (s : State) : Host.Outcome State Fault Refusal := runSlot (.vmov r) (semVmov r) s
def execVclz (r : V) (s : State) : Host.Outcome State Fault Refusal := runSlot (.vclz r) (semVclz r) s
def execVpopc (r : V) (s : State) : Host.Outcome State Fault Refusal := runSlot (.vpopc r) (semVpopc r) s
def execVmulh (r : V) (s : State) : Host.Outcome State Fault Refusal := runSlot (.vmulh r) (semVmulh r) s
def execVdot4 (r : V) (s : State) : Host.Outcome State Fault Refusal := runSlot (.vdot4 r) (semVdot4 r) s
def execVmxq (r : V) (s : State) : Host.Outcome State Fault Refusal := runSlot (.vmxq r) (semVmxq r) s
def execVmxdq (r : V) (s : State) : Host.Outcome State Fault Refusal := runSlot (.vmxdq r) (semVmxdq r) s
def execVmlog (r : V) (s : State) : Host.Outcome State Fault Refusal := runSlot (.vmlog r) (semVmlog r) s
def execVmcnt (r : V) (s : State) : Host.Outcome State Fault Refusal := runSlot (.vmcnt r) (semVmcnt r) s
def execVins (r : V) (s : State) : Host.Outcome State Fault Refusal := runSlot (.vins r) (semVins r) s

end Sys2Proof.Machine
end

