-- ==== Sys2Proof/Machine/Matrix.lean ====
section
/-! DEFINITION. The matrix unit (07): its queue, MMA with restart, gangs and the weir, and the accumulator instructions;
the block sums of 04 R79 to R84. -/

namespace Sys2Proof.Machine

/-! ### Numbers of a block (04 R68 to R70, R79, R83, R84) -/

/-- Element t of a packed block in a format of the MMA fields. -/
def blockElem (code scale : Nat) (raw t : Nat) : Num :=
  match code with
  | 0 => bf16.num (raw / 2 ^ (16 * t) % 2 ^ 16)
  | 1 => f16.num (raw / 2 ^ (16 * t) % 2 ^ 16)
  | _ =>
    if scale = 0xFF then .nan false
    else (mxNum code (raw / 2 ^ (mxBits code * t) % 2 ^ mxBits code)).scale ((scale : Int) - 127)

/-- The 32 elements of a dense block. -/
def denseBlock (code scale raw : Nat) : List Num := (List.range 32).map (blockElem code scale raw)

/-- The 32 elements of a packed block, expanded as SPX24 expands it; a place that no position names is +0 (R84). Under a NaN
scale every element of the block is NaN (R69). -/
def sparseBlock (code scale raw md : Nat) : List Num :=
  (List.range 32).map (fun i =>
    let g := i / 4
    let p0 := md / 2 ^ (4 * g) % 4
    let p1 := md / 2 ^ (4 * g + 2) % 4
    if 2 ≤ code && scale = 0xFF then .nan false
    else if p1 = i % 4 then blockElem code scale raw (2 * g + 1)
    else if p0 = i % 4 then blockElem code scale raw (2 * g)
    else .fin false 0 0 false)

/-- The exact block sum S of R79, with the flags that R65 calls for. -/
def blockSum (a b : List Num) : Res :=
  let ps := (a.zip b).map (fun x => x.1.mul x.2)
  let fl := ps.foldl (fun f p => f ||| p.2) (0 : Flags)
  let infs (neg : Bool) : Bool := ps.any (fun p => p.1.isInf && p.1.sign = neg)
  if infs true && infs false then (.nan false, fl ||| fNV)
  else
    match ps with
    | [] => (.fin false 0 0 false, fl)
    | p :: r => (r.foldl (fun acc q => (acc.add 0 q.1).1) p.1, fl)

/-- One element: acc := round(acc + S, RNE), with its flags. -/
def accStep (acc : Nat) (s : Res) : Nat × Flags :=
  let r := (f32.num acc).add 0 s.1
  let q := f32.round { rm := 0 } r.1
  (q.1, s.2 ||| r.2 ||| q.2)

/-- A row that the unit skips (R83): all its elements are zero and nothing of the block is infinite or NaN. -/
def skipped (row : List Num) (cols : List (List Num)) : Bool :=
  row.all Num.isZero && cols.all (fun c => c.all (fun x => !x.isNan && !x.isInf))

/-! ### Formats (07 R143, R159) -/

def denseBytes (code : Nat) : Nat := match code with | 0 => 64 | 1 => 64 | 4 => 24 | 5 => 24 | 6 => 16 | _ => 32
def isMx (code : Nat) : Bool := 2 ≤ code

/-- The bound of R159 in quarters of a unit. -/
def blockBound (w : MmaW) : Nat := (if isMx w.fa.toNat then 4 else 8) / (if w.sp then 2 else 1)

/-- Columns of members in a shape, and its members (07 R148). -/
def shapeCols (s : Nat) : Nat := match s with | 2 => 2 | 3 => 2 | 5 => 2 | _ => 1
def shapeMembers (s : Nat) : Nat := match s with | 0 => 1 | 1 => 2 | 2 => 2 | 3 => 4 | 4 => 4 | _ => 8

def mmaDebit (w : MmaW) : Nat := 16 * 2 ^ w.ec.toNat

/-! ### The queue (07 R140) -/

def MatOp.acc : MatOp → BitVec 2
  | .mma r => r.w.acc
  | .mmz a => a
  | .mmld a _ => a
  | .mmwr a _ _ _ _ => a

/-- A place holds the restarted or interrupted MMA of a context. -/
def Core.holdsRestart (k : Core) (slot : Nat) : Bool :=
  k.matq.any (fun e => e.slot = slot && (match e.op with | .mma q => q.resumed | _ => false))

/-- All four places of the current core are taken: an MMA that has faulted keeps its place (R155, R156). -/
def State.matFull (s : State) : Bool :=
  let held := [0, 1, 2, 3].filter (fun k => (s.ctxAt (ctxKey s.cur.core k)).restart.isSome && !s.core.holdsRestart k)
  4 ≤ s.core.matq.length + held.length

/-- The operation of the current context enters the queue, and its accumulator is marked empty. -/
def State.queueMat (s : State) (op : MatOp) : State :=
  let e : MatEntry := { slot := s.cur.slot, seq := s.ctx.entryId s.cur.bslot 0, op }
  (s.modCore (fun k => { k with matq := k.matq ++ [e] })).modCtx (fun c => c.setAccEmpty op.acc.toNat true)

/-- A matrix opcode in slot M0 is ILLEGAL in any context, and in slot M1 of a handler or sluice context PRIV (02 R26). -/
def matFirst (s : State) : Option Cause :=
  if s.cur.bslot = 6 then some .illegal else if s.isHandler || s.isSluice then some .priv else none

/-- An accumulator outside the task's share (02 R26). -/
def accShare (a : BitVec 2) (s : State) : Option Cause := if s.ctx.matrixShare ≤ a.toNat then some .format else none

def accOf (r : M) : BitVec 2 := r.f.setWidth 2
def matRow (r : M) : Nat := (r.f.extractLsb' 6 6).toNat
def matQuarter (r : M) : Nat := (r.f.extractLsb' 4 2).toNat

/-! ### MMA (07 R146, R147, R158) -/

/-- The gang check: the group has as many members as the shape, the issuer among them, all resident in one cluster. -/
def State.gangOk (s : State) (w : MmaW) : Bool :=
  if w.gang = 0 then w.shape = 0
  else
    match s.launchOf s.ctx with
    | none => false
    | some l =>
      match l.members w.gang.toNat with
      | none => false
      | some ts =>
        ts.length = shapeMembers w.shape.toNat && ts.contains s.ctx.taskid.toNat &&
          ts.all (fun t => match sget .waiting l.tasks t with
            | .resident c _ => clusterOf c = clusterOf s.cur.core
            | _ => false)

def State.gangRank (s : State) (w : MmaW) : Nat :=
  match (s.launchOf s.ctx).bind (fun l => l.members w.gang.toNat) with
  | some ts => if w.gang = 0 then 0 else (ts.filter (fun t => t < s.ctx.taskid.toNat)).length
  | none => 0

def mmaWalkers (w : MmaW) : List (BitVec 3) := [w.wA, w.wB] ++ (if w.sp then [w.wA + 1] else [])

/-- A walker whose base or level-1 stride is not a multiple of 4 (07 R143). -/
def WReg.misaligned (x : WReg) : Bool := x.base.toNat % 4 ≠ 0 || (x.stride 1).toNat % 4 ≠ 0

def State.mmaChecks (s : State) (w : MmaW) : Verdict :=
  let c := s.ctx
  let bad := (mmaWalkers w).find? (fun i => (c.wreg i).misaligned)
  match firstTrap ((mmaWalkers w).map (consumeW c) ++
      [bad.map (fun i => { cause := .align, va := (c.wreg i).base.toNat % 2 ^ 52 })]) with
  | .go => if s.matFull || c.ebudget.toNat < mmaDebit w then .freeze else .go
  | v => v

def Ctx.mmaRec (c : Ctx) (w : MmaW) (rank : Nat) : MmaRec :=
  { w, wa := c.wreg w.wA, wb := c.wreg w.wB, wm := c.wreg (w.wA + 1), ka := c.kreg w.kA, kb := c.kreg w.kB, rank, start := 0,
    gangNo := sget 0 c.gangSeq w.gang.toNat }

/-- The place of operand reads in the load queue (07 R142). -/
def State.holdLoads (s : State) (locs : List (Loc × Nat)) (rows : List Nat) (via : List (Nat × Nat × Bool)) : State :=
  let e : QEntry := { id := s.ctx.entryId s.cur.bslot 0, slot := s.cur.bslot, op := .matrix, locs, rows,
                      va := rows.headD 0, via }
  s.modCtx (fun c => c.enqueue true false e)

def semMma (w : MmaW) : SlotSem :=
  { guard := some w.g, first := matFirst,
    stat := fun s => (accShare w.acc s).or (if s.gangOk w then none else some .format),
    srcs := (mmaWalkers w).map (fun i => (.w i, false)), need := (1, 0),
    run := fun s => s.mmaChecks w,
    eff := fun s =>
      let r := s.ctx.mmaRec w (s.gangRank w)
      let s := (s.queueMat (.mma r)).holdLoads [] [] []
      s.modCtx (fun c => { c with
        ebudget := c.ebudget - BitVec.ofNat 32 (mmaDebit w),
        gangSeq := if w.gang = 0 then c.gangSeq else sset c.gangSeq w.gang.toNat (r.gangNo + 1) }) }

/-! ### The accumulator instructions (07 R151, R152) -/

def matSem (r : M) (srcs : List (FReg × Bool)) (dsts : List FReg) (need : Nat × Nat) (run : State → Verdict) (eff : State → State) : SlotSem :=
  { guard := some r.g, first := matFirst, stat := accShare (accOf r), srcs, dsts, need, run, eff }

def queueVerdict (s : State) : Verdict := if s.matFull then .freeze else .go

def semMmz (r : M) : SlotSem := matSem r [] [] (0, 0) queueVerdict (fun s => s.queueMat (.mmz (accOf r)))

def semMmwr (r : M) : SlotSem :=
  matSem r [(.v r.a, r.ta)] [] (0, 0) queueVerdict (fun s =>
    let v := s.ctx.vreg r.a
    s.queueMat (.mmwr (accOf r) (matRow r) (matQuarter r) v.v v.pois))

/-- Lane poison of a quarter-row: each segment's for its eight lanes. -/
def Ctx.quarterLanes (c : Ctx) (a row q : Nat) : BitVec 32 :=
  (List.range 32).foldl (fun p l => setBit p l (c.accPoisoned a row (4 * q + l / 8))) 0

def semMmrd (r : M) : SlotSem :=
  matSem r [(.a (accOf r), false)] [.v r.d] (0, 0) (fun _ => .go) (fun s =>
    s.modCtx (fun c =>
      let a := (accOf r).toNat
      let x : Arrived := { dest := .v r.d, slot := s.cur.bslot, val := c.accQuarter a (matRow r) (matQuarter r),
                           wm := BitVec.allOnes 1024, pois := c.quarterLanes a (matRow r) (matQuarter r), pm := BitVec.allOnes 32 }
      { c with arrived := c.arrived ++ [x] }.mark (.v r.d)))

/-- VA of row i. -/
def Ctx.rowVa (c : Ctx) (r : M) (i : Nat) : Word := (c.sreg r.a).v + BitVec.ofNat 64 i * (c.sreg r.x).v

/-- The row numbers in ascending order of their addresses. -/
def Ctx.rowsByVa (c : Ctx) (r : M) : List Nat :=
  (List.range 64).foldr (fun i l =>
    let le (j : Nat) : Bool := decide ((c.rowVa r j).toNat < (c.rowVa r i).toNat)
    l.takeWhile le ++ i :: l.dropWhile le) []

/-- The address check of one row, without watchpoints. -/
def State.rowCheck (s : State) (r : M) (store : Bool) (i : Nat) : Addressed :=
  s.address (s.ctx.rowVa r i) 512 32 (if store then .store else .load) false

/-- The rows' checks: the lowest faulting row is reported by its address; watchpoints come after every row has passed. -/
def State.rowsVerdict (s : State) (r : M) (store : Bool) : Verdict :=
  let c := s.ctx
  let misaligned (x : Word) : Bool := x.toNat % 32 ≠ 0
  match firstTrap [consumeS c r.a, consumeS c r.x,
      trapIf (misaligned (c.sreg r.a).v || misaligned (c.sreg r.x).v) { cause := .align, va := (c.sreg r.a).v.toNat % 2 ^ 52 }] with
  | .go =>
    let bad := (c.rowsByVa r).findSome? (fun i =>
      match s.rowCheck r store i with
      | .ok _ => none
      | .trap t => some (Verdict.trap { t with va := (c.rowVa r i).toNat % 2 ^ 52 })
      | .walk v => some (.walk v)
      | .wait => some .freeze)
    match bad with
    | some v => v
    | none =>
      let hits := (List.range 64).filterMap (fun i => s.watchHit (!store) store (c.rowVa r i).toNat 512)
      let best := hits.foldl (fun (a : Option TrapInfo) t =>
        match a with
        | none => some t
        | some b => if t.aux < b.aux || (t.aux = b.aux && t.va < b.va) then some t else some b) none
      match best with
      | some t => .trap t
      | none => .go
  | v => v

def State.rowLocs (s : State) (r : M) (store : Bool) : List (Loc × Nat) :=
  (List.range 64).flatMap (fun i => (s.rowCheck r store i).parts)

def State.rowVas (s : State) (r : M) : List Nat := (List.range 64).map (fun i => (s.ctx.rowVa r i).toNat)
def State.rowVias (s : State) (r : M) : List (Nat × Nat × Bool) := (List.range 64).flatMap (fun i => s.viaOf (s.ctx.rowVa r i) 512)

def rowSrcs (r : M) : List (FReg × Bool) := [(.s r.a, r.ta), (.s r.x, r.ta)]

def semMmld (r : M) : SlotSem :=
  matSem r (rowSrcs r) [] (1, 0)
    (fun s => match s.rowsVerdict r false with | .go => queueVerdict s | v => v)
    (fun s => (s.queueMat (.mmld (accOf r) none)).holdLoads (s.rowLocs r false) (s.rowVas r) (s.rowVias r))

/-- A row of an accumulator with the poison of its segments over their lanes. -/
def Ctx.accRow (c : Ctx) (a row : Nat) : BitVec 4096 × BitVec 128 :=
  let q (k : Nat) : Nat := (c.accQuarter a row k).toNat * 2 ^ (1024 * k)
  (BitVec.ofNat 4096 (q 0 + q 1 + q 2 + q 3),
   (List.range 128).foldl (fun p l => setBit p l (c.accPoisoned a row (l / 8))) 0)

def semMmst (r : M) : SlotSem :=
  matSem r (rowSrcs r ++ [(.a (accOf r), false)]) [] (0, 1) (fun s => s.rowsVerdict r true) (fun s =>
    let rows := (List.range 64).map (s.ctx.accRow (accOf r).toNat)
    let e : QEntry := { id := s.ctx.entryId s.cur.bslot 0, slot := s.cur.bslot, op := .mmst rows, locs := s.rowLocs r true,
                        va := (s.ctx.rowVa r 0).toNat, rows := s.rowVas r, via := s.rowVias r }
    s.modCtx (fun c => c.enqueue false true e))

/-! ### Execution -/

/-- A restart record stands in some context of the core: the unit does nothing else until it has been restarted or
discarded (07 R155, R156). -/
def State.restartHeld (s : State) (core : Nat) : Bool :=
  [0, 1, 2, 3].any (fun k => (s.ctxAt (ctxKey core k)).restart.isSome)

/-- The operation at the head of the current core's queue, with the state acting for its context. -/
def State.matHead (s : State) : Option (MatEntry × State) :=
  match s.core.matq with
  | [] => none
  | e :: _ => some (e, { s with cur := { core := s.cur.core, slot := e.slot } })

/-- The head may start: the core is not frozen, and no record is held, or it is the restart of one. -/
def State.mayStart (s : State) (core : Nat) (e : MatEntry) : Bool :=
  !(s.coreAt core).mat.started && !s.coreStands core &&
    (match e.op with
     | .mma r => r.resumed || !s.restartHeld core
     | .mmld _ got => got.isSome && !s.restartHeld core
     | .mmz _ => !s.restartHeld core
     | .mmwr _ _ _ _ _ => !s.restartHeld core)

/-- A core that holds the gangNo-th gang MMA of its task on a group at the head of its queue, ready to start. -/
def State.gangHead (s : State) (core slot : Nat) (r : MmaRec) : Bool :=
  match (s.coreAt core).matq with
  | e :: _ =>
    e.slot = slot && s.mayStart core e &&
      (match e.op with
       | .mma q => q.w.gang = r.w.gang && q.gangNo = r.gangNo
       | _ => false)
  | [] => false

/-- The partners of a gang MMA of the current context, as cores and slots; a retired member is none (07 R149). -/
def State.partners (s : State) (r : MmaRec) : List (Nat × Nat) :=
  match s.launchOf s.ctx with
  | none => []
  | some l =>
    (((l.members r.w.gang.toNat).getD []).filter (fun t => t ≠ s.ctx.taskid.toNat)).filterMap (fun t =>
      match sget .waiting l.tasks t with
      | .resident c k => some (coreBase s.cur.core + c, k)
      | _ => none)

/-- z = 1 clears the accumulator and its poison as the MMA starts (07 R147). -/
def Ctx.clearAcc (c : Ctx) (a : Nat) : Ctx :=
  { c with acc := c.acc.filter (fun e => e.1 / 256 ≠ a),
           accPois := c.accPois &&& ~~~(BitVec.ofNat 4096 ((2 ^ 1024 - 1) * 2 ^ (1024 * a))) }

/-- The head of a core's queue starts. -/
def State.startMat (s : State) (core : Nat) : State :=
  match (s.coreAt core).matq with
  | [] => s
  | e :: _ =>
    match e.op with
    | .mma r =>
      let s := s.modCoreAt core (fun k => { k with mat := { started := true, blk := r.start, energy := r.energy }, mmiss := none })
      if r.start = 0 && r.w.z && !r.resumed then s.modCtxAt (ctxKey core e.slot) (fun c => c.clearAcc r.w.acc.toNat) else s
    | _ => s.modCoreAt core (fun k => { k with mat := { started := true } })

/-- MMA_EXECUTE_START: the head of the queue starts; a gang MMA starts together with its partners' (07 R149). -/
def execMmaExecuteStart (s : State) : Host.Outcome State Fault Refusal :=
  match s.matHead with
  | none => .next s
  | some (e, t) =>
    if !t.mayStart t.cur.core e then .next s
    else
      match e.op with
      | .mma r =>
        if r.w.gang = 0 || r.resumed then .next (t.startMat t.cur.core)
        else
          let ps := t.partners r
          if ps.all (fun p => t.gangHead p.1 p.2 r) then .next (ps.foldl (fun s p => s.startMat p.1) (t.startMat t.cur.core))
          else .next s
      | _ => .next (t.startMat t.cur.core)

/-! ### Operand reads (07 R143, R154) -/

/-- Addresses of block blk in the order of R154: A rows, metadata rows, B columns, with their lengths. -/
def MmaRec.addrs (r : MmaRec) (blk : Nat) : List (Word × Nat) :=
  let w := r.w
  let na := denseBytes w.fa.toNat / (if w.sp then 2 else 1)
  let nb := denseBytes w.fb.toNat
  let c := shapeCols w.shape.toNat
  let at_ (x : WReg) (i step : Nat) : Word := x.base + BitVec.ofNat 64 i * x.stride 1 + BitVec.ofNat 64 (blk * step)
  (List.range 64).map (fun i => (at_ r.wa (64 * (r.rank / c) + i) na, na))
    ++ (if w.sp then (List.range 64).map (fun i => (at_ r.wm (64 * (r.rank / c) + i) 4, 4)) else [])
    ++ (List.range 128).map (fun j => (at_ r.wb (128 * (r.rank % c) + j) nb, nb))

/-- Translation of one operand of the MMA at program place seq through the matrix range table. -/
def State.matPlace (s : State) (seq : Nat) (va : Word) (n : Nat) : Addressed :=
  let v := va.toNat
  match s.resolve va with
  | .bad c => .trap { cause := c, va := v % 2 ^ 52 }
  | .spad core off room =>
    if room < n then .trap { cause := .window, va := (v + room) % 2 ^ 52 }
    else .ok ((pieces off n n).map (fun p => ({ space := .spad, pa := core * 2 ^ 21 + p.1 }, p.2)))
  | .global g room =>
    if room < n then .trap { cause := .window, va := (v + room) % 2 ^ 52 }
    else s.translate s.core.mrt .load (partOfKey s.ctx.owner) s.supervisor s.core.mmiss (s.ctx.rinvs (some seq)) g v (pieces g n n)

/-- The checks of one operand, which is a load of the issuing task: a watchpoint comes after its translation (19 R335). -/
def State.matAddress (s : State) (seq : Nat) (va : Word) (n : Nat) : Addressed :=
  match s.matPlace seq va n with
  | .ok ps => match s.watchHit true false va.toNat n with | some t => .trap t | none => .ok ps
  | a => a

/-- The load-queue entry of the MMA notes the ranges that its operands have been translated through (15 R272). -/
def Ctx.noteVia (c : Ctx) (seq : Nat) (via : List (Nat × Nat × Bool)) : Ctx :=
  { c with ldq := c.ldq.map (fun e => if e.id = seq then { e with via := via.foldl (fun l x => if l.contains x then l else l ++ [x]) e.via } else e) }

/-- The next operands of a block are translated in their order, each kept, up to the first that is not; and what that needs. -/
def State.matTranslate (s : State) (seq : Nat) : List (Word × Nat) → State × Option Addressed
  | [] => (s, none)
  | (va, n) :: r =>
    match s.matAddress seq va n with
    | .ok ps =>
      ((s.modCtx (fun c => c.noteVia seq (s.viaIn s.core.mrt va n))).modCore (fun k =>
        { k with mat := { k.mat with ops := k.mat.ops ++ [(va.toNat, ps)] } })).matTranslate seq r
    | a => (s, some a)

/-- The matrix unit asks the die's walker for a VA, once. -/
def State.matWalk (s : State) (va : Nat) : State :=
  if s.core.mwalk.isSome then s
  else
    (s.modCore (fun k => { k with mwalk := some va, mmiss := none })).modDie (dieOf s.cur.core)
      (fun d => { d with walks := d.walks ++ [{ core := s.cur.core, va, part := partOfKey s.ctx.owner, mat := true }] })

/-- The load-queue entry of an operation is at its head, or has been given up after a fault. -/
def Ctx.matTurn (c : Ctx) (id : Nat) : Bool := c.ldq.all (fun e => e.id ≠ id) || c.ldq.head?.map (·.id) = some id

/-- An earlier job of the issuer that has not completed writes an operand (08 R176), or an earlier wait of the context has not
ended (08 R186, 10 R226). -/
def State.matHeld (s : State) (id : Nat) (l : List (Word × Nat)) : Bool :=
  s.waitHolds id || s.ctx.jobs.any (fun j => !j.2.ended && j.2.seq < id &&
    (s.jobFps j.2 true).any (fun f => l.any (fun x => overlaps f (s.canon x.1.toNat, x.2))))

/-- The executing MMA of the current core. -/
def State.running (s : State) : Option (MatEntry × MmaRec × State) :=
  match s.matHead with
  | none => none
  | some (e, t) =>
    match e.op with
    | .mma r => if t.core.mat.started then some (e, r, t) else none
    | _ => none

/-- The block that a unit fetches next. -/
def MatExec.next (m : MatExec) : Nat := m.blk + m.blocks.length

/-- The executing MMA of the current core may fetch its next block: it has the turn of its reads. -/
def State.mayFetch (s : State) (e : MatEntry) (r : MmaRec) : Bool :=
  let b := s.core.mat.next
  b < r.w.kb.toNat && s.ctx.matTurn e.seq && !s.matHeld e.seq (r.addrs b)

/-- The cores of the matched members that may fetch, with the block that each fetches next (07 R149). -/
def State.mates (s : State) (r : MmaRec) : List (Nat × Nat) :=
  if r.w.gang = 0 then []
  else (s.partners r).filterMap (fun p =>
    match ({ s with cur := { core := p.1, slot := p.2 } } : State).running with
    | some (e, q, u) =>
      if e.slot = p.2 && q.w.gang = r.w.gang && q.gangNo = r.gangNo && !u.coreStands p.1 && u.mayFetch e q then some (p.1, u.core.mat.next)
      else none
    | none => none)

/-- The 128-byte line of a location. -/
def Loc.line (l : Loc) : Loc := { l with pa := l.pa / 128 * 128 }

/-- The line of a location, where a partner's fetch for the block has delivered it. -/
def MatExec.lineOf (m : MatExec) (b : Nat) (l : Loc) : Option (List PByte) :=
  (m.given.find? (fun g => g.1 = b && g.2.1 = l.line)).map (fun g => g.2.2)

/-- n bytes of an operand: of a line that has been delivered, or read by this fetch. -/
def State.matRead (s : State) (b : Nat) (p : Loc × Nat) : List PByte :=
  match s.core.mat.lineOf b p.1 with
  | some d => (d.drop (p.1.pa % 128)).take p.2
  | none => s.rdLoc p.1 p.2

/-- The lines that a fetch has read go to the matched members that fetch the same block; not an NC line of which that core holds
bytes of its own. -/
def State.shareFetch (s : State) (r : MmaRec) (b : Nat) (ls : List Loc) : State :=
  ((s.mates r).filter (fun m => m.2 = b)).foldl (fun t m =>
    let own (l : Loc) : Bool := l.space = .nc && (match t.l1At m.1 (l.pa / 128) true with | some x => x.st = .ncDirty | none => false)
    let new := (ls.filter (fun l => !own l)).map (fun l => (b, l, s.rdLoc l 128))
    t.modCoreAt m.1 (fun k => { k with mat := { k.mat with given := (k.mat.given.filter (fun g => k.mat.next ≤ g.1)) ++ new } })) s

/-- MMA_BLOCK_ARRIVE: the operands of the next block are translated and read, in the place of the load queue that the MMA
holds; a gang member waits for the matched members that may fetch an earlier block, and the lines that it reads are read for
all of them (07 R149). -/
def execMmaBlockArrive (s : State) : Host.Outcome State Fault Refusal :=
  match s.running with
  | none => .next s
  | some (e, r, t) =>
    let b := t.core.mat.next
    if !t.mayFetch e r || (t.mates r).any (fun m => m.2 < b) then .next s
    else
      let x := t.matTranslate e.seq ((r.addrs b).drop t.core.mat.ops.length)
      match x.2 with
      | some (.walk v) => .next (x.1.matWalk v)
      | some _ => .next x.1
      | none =>
        let ops := x.1.core.mat.ops
        let read := (ops.flatMap (fun o => o.2)).filter (fun p => (x.1.core.mat.lineOf b p.1).isNone)
        match x.1.partsWait ((ops.flatMap (fun o => withVas (BitVec.ofNat 64 o.1) o.2)).filter (fun p => (x.1.core.mat.lineOf b p.1).isNone)) with
        | (true, u) => .next u
        | (false, u) =>
          let u := (u.publishParts read).shareFetch r b (read.map (fun p => p.1.line)).eraseDups
          let data := ops.map (fun o => o.2.flatMap (u.matRead b))
          let m := if r.w.sp then 64 else 0
          let blk : MatBlock := { a := data.take 64, m := (data.drop 64).take m, b := data.drop (64 + m) }
          let u := u.modCore (fun k => { k with mat := { k.mat with blocks := k.mat.blocks ++ [blk], ops := [] } })
          let u := u.modCtx (fun c => { c with ldq := c.ldq.map (fun q => if q.id = e.seq then { q with via := [] } else q) })
          .next (if b + 1 = r.w.kb.toNat then u.modCtx (fun c => c.dropEntry e.seq) else u)

/-! ### Computing a block (07 R147) -/

/-- Byte i of a scale register. -/
def KReg.byte (k : KReg) (i : Nat) : Nat := k.v.toNat / 2 ^ (8 * i) % 256

def MmaRec.rowElems (r : MmaRec) (x : MatBlock) (i : Nat) : List Num :=
  let raw := pnat (x.a.getD i [])
  if r.w.sp then sparseBlock r.w.fa.toNat (r.ka.byte i) raw (pnat (x.m.getD i []))
  else denseBlock r.w.fa.toNat (r.ka.byte i) raw

def MmaRec.colElems (r : MmaRec) (x : MatBlock) (j : Nat) : List Num :=
  denseBlock r.w.fb.toNat (r.kb.byte j) (pnat (x.b.getD j []))

def MmaRec.rowPois (r : MmaRec) (x : MatBlock) (i : Nat) : Bool :=
  pany (x.a.getD i []) || pany (x.m.getD i []) || (isMx r.w.fa.toNat && r.ka.pois.getLsbD (i / 32))

def MmaRec.colPois (r : MmaRec) (x : MatBlock) (j : Nat) : Bool :=
  pany (x.b.getD j []) || (isMx r.w.fb.toNat && r.kb.pois.getLsbD (j / 32))

/-- Quarter q of a row after the block, with the flags of its roundings. -/
def stepQuarter (old : VWord) (row : List Num) (cols : List (List Num)) : VWord × Flags :=
  let l := cols.zipIdx.map (fun x => (x.2, accStep (elem old.toNat 32 x.2) (blockSum row x.1)))
  (BitVec.ofNat 1024 (l.foldl (fun v x => v + x.2.1 * 2 ^ (32 * x.1)) 0), l.foldl (fun f x => f ||| x.2.2) 0)

/-- One row of the accumulator after the block. A row that is skipped has the sums of its signs, as the products of zeros have
them, and raises no flag (04 R83). -/
def Ctx.stepRow (r : MmaRec) (x : MatBlock) (cols : List (List Num)) (s : Ctx × Flags) (i : Nat) : Ctx × Flags :=
  let a := r.w.acc.toNat
  let row := r.rowElems x i
  let skip := skipped row cols
  let s := (List.range 4).foldl (fun (s : Ctx × Flags) q =>
    let y := stepQuarter (s.1.accQuarter a i q) row ((cols.drop (32 * q)).take 32)
    (s.1.setAccQuarter a i q y.1, if skip then s.2 else s.2 ||| y.2)) s
  let p := r.rowPois x i
  let c := (List.range 16).foldl (fun c k =>
    if p || (List.range 8).any (fun j => r.colPois x (8 * k + j)) then c.setAccPoisoned a i k true else c) s.1
  (c, s.2)

/-- Energy of a block in quarters (07 R159). -/
def MmaRec.blockEnergy (r : MmaRec) (x : MatBlock) (cols : List (List Num)) : Nat :=
  let n := ((List.range 64).filter (fun i => skipped (r.rowElems x i) cols)).length
  (blockBound r.w * (64 - n) + 63) / 64

/-- The energy of a restarted MMA so far stands in its record as well, for a discard (07 R160). -/
def Ctx.noteEnergy (c : Ctx) (r : MmaRec) (n : Nat) : Ctx :=
  if r.resumed then { c with restart := c.restart.map (fun q => { q with energy := n }) } else c

/-- MMA_BLOCK_END: the next block that has arrived is added into the accumulator. -/
def execMmaBlockEnd (s : State) : Host.Outcome State Fault Refusal :=
  match s.running with
  | none => .next s
  | some (_, r, t) =>
    match t.core.mat.blocks with
    | [] => .next s
    | x :: rest =>
      let cols := (List.range 128).map (r.colElems x)
      let y := (List.range 64).foldl (Ctx.stepRow r x cols) (t.ctx, 0)
      let m := t.core.mat
      let energy := m.energy + r.blockEnergy x cols
      .next ((t.setCtx (y.1.noteEnergy r energy)).modCore (fun k =>
        { k with mat := { m with blk := m.blk + 1, blocks := rest, flags := m.flags ||| y.2, energy } }))

/-! ### Faults (07 R155, R156) -/

def mprogOf (acc : BitVec 2) (b : Nat) : BitVec 9 := BitVec.ofNat 9 (256 + acc.toNat * 64 + b)

/-- The flags of completed blocks reach MFLAGS unless nf is set. -/
def Ctx.addMflags (c : Ctx) (w : MmaW) (f : BitVec 5) : Ctx := if w.nf then c else { c with mflags := c.mflags ||| f }

/-- MMA_FAULT: every block before the one whose operands do not translate has been computed. The record is kept, the place of
the MMA's reads in the load queue is given up (20 R341), and the trap becomes pending. -/
def execMmaFault (s : State) : Host.Outcome State Fault Refusal :=
  match s.running with
  | none => .next s
  | some (e, r, t) =>
    let m := t.core.mat
    let b := m.blk
    if !m.blocks.isEmpty || r.w.kb.toNat ≤ b then .next s
    else
      match (t.matTranslate e.seq ((r.addrs b).drop m.ops.length)).2 with
      | some (.trap f) =>
        let c := t.ctx.addMflags r.w m.flags
        let c : Ctx := { c.dropEntry e.seq with
          mprog := mprogOf r.w.acc b, mmaTrap := some { f with slot := some 7 },
          restart := some { r with start := b, energy := m.energy, resumed := true } }
        .next ((t.setCtx c).modCore (fun k => { k with matq := k.matq.drop 1, mat := {}, mmiss := none }))
      | _ => .next s

/-- The current context has a record that restarts now: it is at the trapped bundle again, and the MMA's own trap has been
delivered (07 R156). -/
def State.restarts (s : State) : Bool :=
  let c := s.ctx
  c.restart.isSome && !s.core.holdsRestart s.cur.slot && c.frame.isNone && c.mmaTrap.isNone && c.deferred.all (fun t => t.deferred)

/-- The recorded MMA returns to the head of the queue when its task resumes, and its reads enter the load queue at its tail (20
R341). -/
def State.requeueMma (s : State) : State :=
  match s.ctx.restart with
  | none => s
  | some r =>
    if !s.restarts then s
    else
      let id := s.ctx.entryId 0 1
      let q : QEntry := { id, slot := 7, op := .matrix }
      (s.modCore (fun k => { k with matq := { slot := s.cur.slot, seq := id, op := .mma r } :: k.matq, mat := {} })).modCtx
        (fun c => c.enqueue true false q)

/-! ### Landing (07 R147, R151, R160) -/

/-- Another queued operation of the context names the accumulator. -/
def Core.names (k : Core) (slot : Nat) (a : BitVec 2) : Bool := k.matq.any (fun e => e.slot = slot && e.op.acc = a)

/-- The head of the queue completes: its accumulator is full when no later operation names it. -/
def State.landMat (s : State) (a : BitVec 2) : State :=
  let s := s.modCore (fun k => { k with matq := k.matq.drop 1, mat := {} })
  if s.core.names s.cur.slot a then s else s.modCtx (fun c => c.setAccEmpty a.toNat false)

/-- EUNDER counts an MMA that measured more than it declared. -/
def Ctx.settle (c : Ctx) (w : MmaW) (energy : Nat) : Ctx :=
  if 4 * mmaDebit w < energy then { c with eunder := satInc c.eunder } else c

/-- The rows of an MMLD in an accumulator. -/
def Ctx.loadAcc (c : Ctx) (a : Nat) (b : List PByte) : Ctx :=
  (List.range 64).foldl (fun c i =>
    let row := (b.drop (512 * i)).take 512
    let c := (List.range 4).foldl (fun c q => c.setAccQuarter a i q (BitVec.ofNat 1024 (pnat ((row.drop (128 * q)).take 128)))) c
    (List.range 16).foldl (fun c k => c.setAccPoisoned a i k (pany ((row.drop (32 * k)).take 32))) c) c

/-- A quarter-row written by MMWR. -/
def Ctx.writeQuarter (c : Ctx) (a row q : Nat) (v : VWord) (p : BitVec 32) : Ctx :=
  let c := c.setAccQuarter a row q v
  (List.range 4).foldl (fun c k => c.setAccPoisoned a row (4 * q + k) (p.extractLsb' (8 * k) 8 ≠ 0)) c

/-- ACCUMULATOR_LAND: the operation at the head of the queue has done its work and its accumulator lands. -/
def execAccumulatorLand (s : State) : Host.Outcome State Fault Refusal :=
  match s.matHead with
  | none => .next s
  | some (e, t) =>
    if !t.core.mat.started then .next s
    else
      match e.op with
      | .mma r =>
        let m := t.core.mat
        if m.blk < r.w.kb.toNat then .next s
        else
          let t := t.modCtx (fun c =>
            let c := (c.addMflags r.w m.flags).settle r.w m.energy
            if r.resumed then { c with mprog := 0, restart := none } else c)
          .next (t.landMat r.w.acc)
      | .mmz a => .next ((t.modCtx (fun c => c.clearAcc a.toNat)).landMat a)
      | .mmld a got => .next ((t.modCtx (fun c => c.loadAcc a.toNat (got.getD []))).landMat a)
      | .mmwr a row q v p => .next ((t.modCtx (fun c => c.writeQuarter a.toNat row q v p)).landMat a)

/-- The effect of a landing that discarded the context's restart record (07 R157): the unit drops the MMA where it had
restarted, and the accumulator stays empty where another queued operation names it. -/
def State.afterCancel (s : State) (before : Option MmaRec) : State :=
  match before, s.ctx.restart with
  | some r, none =>
    let mine (e : MatEntry) : Bool := e.slot = s.cur.slot && (match e.op with | .mma q => q.resumed | _ => false)
    let head := (s.core.matq.head?.map mine).getD false
    -- the blocks that it has computed since the restart raise their flags
    let s := if head then s.modCtx (fun c => c.addMflags r.w s.core.mat.flags) else s
    let s := (s.core.matq.filter mine).foldl (fun s e => s.modCtx (fun c => c.dropEntry e.seq)) s
    let s := s.modCore (fun k => { k with matq := k.matq.filter (fun e => !mine e), mat := if head then {} else k.mat })
    if s.core.names s.cur.slot r.w.acc then s.modCtx (fun c => c.setAccEmpty r.w.acc.toNat true) else s
  | _, _ => s

/-- The executing MMA of a core stops at the end of its current K block, for a context swap or a core move (07 R141). -/
def State.stopMma (s : State) (core : Nat) : State :=
  match { s with cur := { core } }.running with
  | none => s
  | some (e, r, t) =>
    let m := t.core.mat
    let q : MmaRec := { r with start := m.blk, energy := m.energy, resumed := true }
    let c := t.ctx.addMflags r.w m.flags
    -- what it fetches again stands in the load queue
    let place : List QEntry := if c.ldq.any (fun x => x.id = e.seq) || r.w.kb.toNat ≤ m.blk then [] else [{ id := e.seq, slot := 7, op := .matrix }]
    let c : Ctx := { c with mprog := mprogOf r.w.acc m.blk, restart := some q, ldq := place ++ c.ldq }
    { (t.setCtx c).modCore (fun k => { k with matq := { e with op := .mma q } :: k.matq.drop 1, mat := {}, mmiss := none }) with cur := s.cur }

def execMma (w : MmaW) (s : State) : Host.Outcome State Fault Refusal := runSlot (.mma w) (semMma w) s
def execMmz (r : M) (s : State) : Host.Outcome State Fault Refusal := runSlot (.mmz r) (semMmz r) s
def execMmld (r : M) (s : State) : Host.Outcome State Fault Refusal := runSlot (.mmld r) (semMmld r) s
def execMmst (r : M) (s : State) : Host.Outcome State Fault Refusal := runSlot (.mmst r) (semMmst r) s
def execMmrd (r : M) (s : State) : Host.Outcome State Fault Refusal := runSlot (.mmrd r) (semMmrd r) s
def execMmwr (r : M) (s : State) : Host.Outcome State Fault Refusal := runSlot (.mmwr r) (semMmwr r) s

end Sys2Proof.Machine
end

