-- ==== Sys2Proof/Machine/Scalar.lean ====
section
/-! DEFINITION. Scalar arithmetic, logic, compares, predicates and moves (05 R85 to R96). -/

namespace Sys2Proof.Machine

/-! ### Shared shapes -/

/-- A fixed-latency scalar result computed from the context: value and poison (05 R85). -/
def scalarSem (g : Option Guard) (lat : Nat) (d : BitVec 6) (srcs : List (FReg × Bool)) (f : Ctx → Word × Bool) : SlotSem :=
  { guard := g, srcs, dsts := [.s d],
    eff := fun s => s.modCtx (fun c => c.issueS s.cur.bslot lat d (f c).1 (f c).2) }

/-- A predicate result. -/
def predSem (g : Guard) (d : BitVec 3) (srcs : List (FReg × Bool)) (f : Ctx → Bool × Bool) : SlotSem :=
  { guard := some g, srcs, eff := fun s => s.modCtx (fun c => c.issueP s.cur.bslot 1 d (f c).1 (f c).2) }

/-- d := f a b; poisoned when a source is. -/
def binSem (r : SR) (lat : Nat) (f : Word → Word → Word) : SlotSem :=
  scalarSem (some r.g) lat r.d [(.s r.a, r.ta), (.s r.b, r.tb)]
    (fun c => (f (c.sreg r.a).v (c.sreg r.b).v, (c.sreg r.a).pois || (c.sreg r.b).pois))

/-- d := f a imm, the immediate sign-extended (05 R89). -/
def immSem (r : SI) (lat : Nat) (f : Word → Word → Word) : SlotSem :=
  scalarSem (some r.g) lat r.d [(.s r.a, r.ta)]
    (fun c => (f (c.sreg r.a).v (r.imm.signExtend 64), (c.sreg r.a).pois))

def unSem (r : Un) (f : Word → Word) : SlotSem :=
  scalarSem (some r.g) 1 r.d [(.s r.a, r.ta)] (fun c => (f (c.sreg r.a).v, (c.sreg r.a).pois))

def cmpSem (r : Cmp) (f : BitVec 2 → Word → Word → Bool) : SlotSem :=
  predSem r.g r.d [(.s r.a, r.ta), (.s r.b, r.tb)]
    (fun c => (f r.cc (c.sreg r.a).v (c.sreg r.b).v, (c.sreg r.a).pois || (c.sreg r.b).pois))

def ppSem (r : PP) (f : Bool → Bool → Bool) : SlotSem :=
  predSem r.g r.d [] (fun c => (f (c.preg r.a).v (c.preg r.b).v, (c.preg r.a).pois || (c.preg r.b).pois))

/-! ### Values (05 R87) -/

def mulhs (a b : Word) : Word := BitVec.ofInt 64 (a.toInt * b.toInt / 2 ^ 64)
def mulhu (a b : Word) : Word := BitVec.ofNat 64 (a.toNat * b.toNat / 2 ^ 64)
def mulhsu (a b : Word) : Word := BitVec.ofInt 64 (a.toInt * (b.toNat : Int) / 2 ^ 64)

def divs (a b : Word) : Word := if b = 0 then BitVec.allOnes 64 else BitVec.ofInt 64 (a.toInt.tdiv b.toInt)
def divu (a b : Word) : Word := if b = 0 then BitVec.allOnes 64 else BitVec.ofNat 64 (a.toNat / b.toNat)
def rems (a b : Word) : Word := if b = 0 then a else BitVec.ofInt 64 (a.toInt - b.toInt * a.toInt.tdiv b.toInt)
def remu (a b : Word) : Word := if b = 0 then a else BitVec.ofNat 64 (a.toNat % b.toNat)

/-- Bits <63:6> of a shift count are ignored (05 R87). -/
def shiftCount (b : Word) : Nat := b.toNat % 64

def shl (a b : Word) : Word := a <<< shiftCount b
def shr (a b : Word) : Word := a >>> shiftCount b
def sar (a b : Word) : Word := a.sshiftRight (shiftCount b)
def ror (a b : Word) : Word := a.rotateRight (shiftCount b)

def mins (a b : Word) : Word := if a.slt b then a else b
def minu (a b : Word) : Word := if a.ult b then a else b
def maxs (a b : Word) : Word := if a.slt b then b else a
def maxu (a b : Word) : Word := if a.ult b then b else a

/-- CMP's conditions (05 R90). -/
def condS (cc : BitVec 2) (a b : Word) : Bool :=
  match cc.toNat with
  | 0 => a = b | 1 => a ≠ b | 2 => a.slt b | _ => a.sle b

/-- CMPU's conditions (05 R90). -/
def condU (cc : BitVec 2) (a b : Word) : Bool :=
  match cc.toNat with
  | 0 => a.ult b | 1 => a.ule b | 2 => a &&& b ≠ 0 | _ => a &&& b = 0

/-- CMPI's conditions (05 R90). -/
def condI (cc : BitVec 3) (a b : Word) : Bool :=
  match cc.toNat with
  | 0 => a = b | 1 => a ≠ b | 2 => a.slt b | 3 => a.sle b | 4 => a.ult b | 5 => a.ule b | _ => a &&& b ≠ 0

/-- Number of significant bits of a natural number. -/
def sigBits (n : Nat) : Nat := if n = 0 then 0 else n.log2 + 1

def clz (w : Nat) (n : Nat) : Nat := w - sigBits n

/-- Number of one bits among the low w bits. -/
def popc (n : Nat) : Nat → Nat
  | 0 => 0
  | w + 1 => n % 2 + popc (n / 2) w

/-- Number of trailing zero bits among the low w bits. -/
def ctz (n : Nat) : Nat → Nat
  | 0 => 0
  | w + 1 => if n % 2 = 1 then 0 else 1 + ctz (n / 2) w

/-- The number with its low w bits in reverse order. -/
def brev (n acc : Nat) : Nat → Nat
  | 0 => acc
  | w + 1 => brev (n / 2) (acc * 2 + n % 2) w

/-- Bits <pos+len−1:pos>, zero-extended (05 R94). -/
def bfx (a : Word) (pos len : Nat) : Word := BitVec.ofNat 64 (a.toNat / 2 ^ pos % 2 ^ len)
/-- d with bits <pos+len−1:pos> replaced by a<len−1:0> (05 R94). -/
def bfi (d a : Word) (pos len : Nat) : Word :=
  let mask : Word := BitVec.ofNat 64 ((2 ^ len - 1) * 2 ^ pos)
  (d &&& ~~~mask) ||| (BitVec.ofNat 64 (a.toNat * 2 ^ pos) &&& mask)

/-! ### The divider (05 R88) -/

def Core.divider (k : Core) (slot : Nat) : Option DivBusy := if slot = 0 then k.div0 else k.div1
def Core.setDivider (k : Core) (slot : Nat) (d : Option DivBusy) : Core :=
  if slot = 0 then { k with div0 := d } else { k with div1 := d }

/-- Core cycles until a result of the DIV family can be read. -/
def divCycles (signed : Bool) (a b : Word) : Nat :=
  let n := if b = 0 then 0 else if signed then sigBits a.toInt.natAbs else sigBits a.toNat
  8 + (n + 1) / 2

/-- An instruction of the DIV family: the slot's divider must be free; the destination is marked empty once the
bundle has read its sources. -/
def divSem (r : SR) (signed : Bool) (f : Word → Word → Word) : SlotSem :=
  { guard := some r.g, srcs := [(.s r.a, r.ta), (.s r.b, r.tb)], dsts := [.s r.d],
    run := fun s => if (s.core.divider s.cur.bslot).isSome then .freeze else .go,
    eff := fun s =>
      let a := (s.ctx.sreg r.a).v
      let b := (s.ctx.sreg r.b).v
      let d : DivBusy := { slot := s.cur.slot, dest := r.d, val := f a b,
                           pois := (s.ctx.sreg r.a).pois || (s.ctx.sreg r.b).pois,
                           due := s.now + 4 * divCycles signed a b }
      (s.modCore (fun k => k.setDivider s.cur.bslot (some d))).modCtx (fun c => { c with marks := c.marks ++ [.s r.d] }) }

/-- The dividers whose results for context slot k and register d can be read at time t, with those results as landings. -/
def State.dueDividers (s : State) (t k : Nat) (d : Dest) : List (Nat × Landing) :=
  [0, 1].filterMap (fun u =>
    match s.core.divider u with
    | some x =>
      if x.slot = k && .s x.dest = d && x.due ≤ t then
        some (u, (s.ctxAt (ctxKey s.cur.core k)).varLanding u d (x.val.setWidth 1024) (BitVec.allOnes 1024) (pois1 x.pois) 1)
      else none
    | none => none)

/-- The result d of a divider lands at time t, with that of the other divider where it is due on the same register (02 R37). -/
def State.landDivider (s : State) (d : DivBusy) (t : Nat) : State :=
  let l := s.dueDividers t d.slot (.s d.dest)
  (s.modCtxAt (ctxKey s.cur.core d.slot) (fun c => c.landSet (.s d.dest) (l.map (·.2)))).modCore
    (fun k => l.foldl (fun k x => k.setDivider x.1 none) k)

/-- Every divider result of the core that can be read in the cycle that begins now lands (05 R88). -/
def State.landDividers (s : State) : State :=
  [0, 1].foldl (fun s u =>
    match s.core.divider u with
    | some d => if d.due ≤ s.now then s.landDivider d s.now else s
    | none => s) s

/-! ### The instructions -/

def semSnop : SlotSem := { eff := fun s => s }
def semAdd (r : SR) : SlotSem := binSem r 1 (fun a b => a + b)
def semSub (r : SR) : SlotSem := binSem r 1 (fun a b => a - b)
def semMul (r : SR) : SlotSem := binSem r 3 (fun a b => a * b)
def semMulh (r : SR) : SlotSem := binSem r 3 mulhs
def semMulhu (r : SR) : SlotSem := binSem r 3 mulhu
def semMulhsu (r : SR) : SlotSem := binSem r 3 mulhsu
def semDiv (r : SR) : SlotSem := divSem r true divs
def semDivu (r : SR) : SlotSem := divSem r false divu
def semRem (r : SR) : SlotSem := divSem r true rems
def semRemu (r : SR) : SlotSem := divSem r false remu
def semAnd (r : SR) : SlotSem := binSem r 1 (fun a b => a &&& b)
def semOr (r : SR) : SlotSem := binSem r 1 (fun a b => a ||| b)
def semXor (r : SR) : SlotSem := binSem r 1 (fun a b => a ^^^ b)
def semAndn (r : SR) : SlotSem := binSem r 1 (fun a b => a &&& ~~~b)
def semShl (r : SR) : SlotSem := binSem r 1 shl
def semShr (r : SR) : SlotSem := binSem r 1 shr
def semSar (r : SR) : SlotSem := binSem r 1 sar
def semRor (r : SR) : SlotSem := binSem r 1 ror
def semMin (r : SR) : SlotSem := binSem r 1 mins
def semMinu (r : SR) : SlotSem := binSem r 1 minu
def semMax (r : SR) : SlotSem := binSem r 1 maxs
def semMaxu (r : SR) : SlotSem := binSem r 1 maxu
def semCmp (r : Cmp) : SlotSem := cmpSem r condS
def semCmpu (r : Cmp) : SlotSem := cmpSem r condU

/-- SEL always executes; its guard fields select (05 R91). -/
def semSel (r : SR) : SlotSem :=
  scalarSem none 1 r.d [(.s r.a, r.ta), (.s r.b, r.tb)]
    (fun c => (if c.holds (some r.g) then (c.sreg r.a).v else (c.sreg r.b).v,
               (c.sreg r.a).pois || (c.sreg r.b).pois || c.guardPoisoned (some r.g)))

def semClz (r : Un) : SlotSem := unSem r (fun a => BitVec.ofNat 64 (clz 64 a.toNat))
def semCtz (r : Un) : SlotSem := unSem r (fun a => BitVec.ofNat 64 (ctz a.toNat 64))
def semPopc (r : Un) : SlotSem := unSem r (fun a => BitVec.ofNat 64 (popc a.toNat 64))
def semBrev (r : Un) : SlotSem := unSem r (fun a => BitVec.ofNat 64 (brev a.toNat 0 64))
def semSextb (r : Un) : SlotSem := unSem r (fun a => (a.setWidth 8).signExtend 64)
def semSexth (r : Un) : SlotSem := unSem r (fun a => (a.setWidth 16).signExtend 64)
def semSextw (r : Un) : SlotSem := unSem r (fun a => (a.setWidth 32).signExtend 64)
def semZextw (r : Un) : SlotSem := unSem r (fun a => (a.setWidth 32).setWidth 64)
def semPand (r : PP) : SlotSem := ppSem r (fun a b => a && b)
def semPor (r : PP) : SlotSem := ppSem r (fun a b => a || b)
def semPxor (r : PP) : SlotSem := ppSem r (fun a b => a != b)
def semPandn (r : PP) : SlotSem := ppSem r (fun a b => a && !b)

/-- MFP: p<i> into bit i (05 R92). -/
def predBits (c : Ctx) : Word :=
  (List.range 8).foldl (fun w i => if (c.preg (BitVec.ofNat 3 i)).v then w ||| (1#64 <<< i) else w) 0

def semMfp (r : MFP) : SlotSem :=
  scalarSem (some r.g) 1 r.d []
    (fun c => (predBits c, (List.range 8).any (fun i => (c.preg (BitVec.ofNat 3 i)).pois)))

/-- MTP: a<i> into p<i> for i = 1 to 7 (05 R92). -/
def semMtp (r : MTP) : SlotSem :=
  { guard := some r.g, srcs := [(.s r.a, r.ta)],
    eff := fun s => s.modCtx (fun c =>
      (List.range 8).foldl (fun d i => d.issueP s.cur.bslot 1 (BitVec.ofNat 3 i) ((c.sreg r.a).v.getLsbD i) (c.sreg r.a).pois) c) }

def semBfx (r : SF) : SlotSem :=
  scalarSem none 1 r.d [(.s r.a, false)]
    (fun c => (bfx (c.sreg r.a).v r.pos.toNat (r.len.toNat + 1), (c.sreg r.a).pois))
def semBfi (r : SF) : SlotSem :=
  scalarSem none 1 r.d [(.s r.a, false), (.s r.d, false)]
    (fun c => (bfi (c.sreg r.d).v (c.sreg r.a).v r.pos.toNat (r.len.toNat + 1), (c.sreg r.a).pois || (c.sreg r.d).pois))

def semAddi (r : SI) : SlotSem := immSem r 1 (fun a b => a + b)
def semAndi (r : SI) : SlotSem := immSem r 1 (fun a b => a &&& b)
def semOri (r : SI) : SlotSem := immSem r 1 (fun a b => a ||| b)
def semXori (r : SI) : SlotSem := immSem r 1 (fun a b => a ^^^ b)
def semShli (r : SI) : SlotSem := immSem r 1 shl
def semShri (r : SI) : SlotSem := immSem r 1 shr
def semSari (r : SI) : SlotSem := immSem r 1 sar
def semMuli (r : SI) : SlotSem := immSem r 3 (fun a b => a * b)

/-- CMPI: the 6-bit immediate is sign-extended before the comparison (05 R90). -/
def semCmpi (r : CmpI) : SlotSem :=
  predSem r.g r.d [(.s r.a, r.ta)] (fun c => (condI r.cc (c.sreg r.a).v (r.imm.signExtend 64), (c.sreg r.a).pois))

def semMovi (r : MovI) : SlotSem := scalarSem (some r.g) 1 r.d [] (fun _ => (r.imm.signExtend 64, false))

/-- MOVK replaces halfword k and keeps the others (05 R95). -/
def movk (d : Word) (k : Nat) (imm : BitVec 16) : Word :=
  (d &&& ~~~(0xFFFF#64 <<< (16 * k))) ||| (imm.setWidth 64 <<< (16 * k))

def semMovk (r : MovK) : SlotSem :=
  scalarSem none 1 r.d [(.s r.d, false)] (fun c => (movk (c.sreg r.d).v r.k.toNat r.imm, (c.sreg r.d).pois))

/-- Element i of e bits of a vector word, zero-extended. -/
def element (v : VWord) (e i : Nat) : Nat := v.toNat / 2 ^ (e * i) % 2 ^ e

/-- Lane positions that bits <hi−1:lo> touch are poisoned. -/
def lanesPoisoned (p : BitVec 32) (lo hi : Nat) : Bool :=
  (List.range 32).any (fun l => decide (32 * l < hi) && decide (lo < 32 * l + 32) && p.getLsbD l)

/-- VGET (05 R96). -/
def semVget (r : VGet) : SlotSem :=
  let e := 8 * 2 ^ r.es.toNat
  let i := r.idx.toNat
  scalarSem (some r.g) 3 r.d [(.v r.a, r.ta)]
    (fun c => (BitVec.ofNat 64 (element (c.vreg r.a).v e i), lanesPoisoned (c.vreg r.a).pois (e * i) (e * i + e)))

/-! ### Execution -/

def execSnop (s : State) : Host.Outcome State Fault Refusal := runSlot .snop semSnop s
def execAdd (r : SR) (s : State) : Host.Outcome State Fault Refusal := runSlot (.add r) (semAdd r) s
def execSub (r : SR) (s : State) : Host.Outcome State Fault Refusal := runSlot (.sub r) (semSub r) s
def execMul (r : SR) (s : State) : Host.Outcome State Fault Refusal := runSlot (.mul r) (semMul r) s
def execMulh (r : SR) (s : State) : Host.Outcome State Fault Refusal := runSlot (.mulh r) (semMulh r) s
def execMulhu (r : SR) (s : State) : Host.Outcome State Fault Refusal := runSlot (.mulhu r) (semMulhu r) s
def execMulhsu (r : SR) (s : State) : Host.Outcome State Fault Refusal := runSlot (.mulhsu r) (semMulhsu r) s
def execDiv (r : SR) (s : State) : Host.Outcome State Fault Refusal := runSlot (.div r) (semDiv r) s
def execDivu (r : SR) (s : State) : Host.Outcome State Fault Refusal := runSlot (.divu r) (semDivu r) s
def execRem (r : SR) (s : State) : Host.Outcome State Fault Refusal := runSlot (.rem r) (semRem r) s
def execRemu (r : SR) (s : State) : Host.Outcome State Fault Refusal := runSlot (.remu r) (semRemu r) s
def execAnd (r : SR) (s : State) : Host.Outcome State Fault Refusal := runSlot (.and r) (semAnd r) s
def execOr (r : SR) (s : State) : Host.Outcome State Fault Refusal := runSlot (.or r) (semOr r) s
def execXor (r : SR) (s : State) : Host.Outcome State Fault Refusal := runSlot (.xor r) (semXor r) s
def execAndn (r : SR) (s : State) : Host.Outcome State Fault Refusal := runSlot (.andn r) (semAndn r) s
def execShl (r : SR) (s : State) : Host.Outcome State Fault Refusal := runSlot (.shl r) (semShl r) s
def execShr (r : SR) (s : State) : Host.Outcome State Fault Refusal := runSlot (.shr r) (semShr r) s
def execSar (r : SR) (s : State) : Host.Outcome State Fault Refusal := runSlot (.sar r) (semSar r) s
def execRor (r : SR) (s : State) : Host.Outcome State Fault Refusal := runSlot (.ror r) (semRor r) s
def execMin (r : SR) (s : State) : Host.Outcome State Fault Refusal := runSlot (.min r) (semMin r) s
def execMinu (r : SR) (s : State) : Host.Outcome State Fault Refusal := runSlot (.minu r) (semMinu r) s
def execMax (r : SR) (s : State) : Host.Outcome State Fault Refusal := runSlot (.max r) (semMax r) s
def execMaxu (r : SR) (s : State) : Host.Outcome State Fault Refusal := runSlot (.maxu r) (semMaxu r) s
def execCmp (r : Cmp) (s : State) : Host.Outcome State Fault Refusal := runSlot (.cmp r) (semCmp r) s
def execCmpu (r : Cmp) (s : State) : Host.Outcome State Fault Refusal := runSlot (.cmpu r) (semCmpu r) s
def execSel (r : SR) (s : State) : Host.Outcome State Fault Refusal := runSlot (.sel r) (semSel r) s
def execClz (r : Un) (s : State) : Host.Outcome State Fault Refusal := runSlot (.clz r) (semClz r) s
def execCtz (r : Un) (s : State) : Host.Outcome State Fault Refusal := runSlot (.ctz r) (semCtz r) s
def execPopc (r : Un) (s : State) : Host.Outcome State Fault Refusal := runSlot (.popc r) (semPopc r) s
def execBrev (r : Un) (s : State) : Host.Outcome State Fault Refusal := runSlot (.brev r) (semBrev r) s
def execSextb (r : Un) (s : State) : Host.Outcome State Fault Refusal := runSlot (.sextb r) (semSextb r) s
def execSexth (r : Un) (s : State) : Host.Outcome State Fault Refusal := runSlot (.sexth r) (semSexth r) s
def execSextw (r : Un) (s : State) : Host.Outcome State Fault Refusal := runSlot (.sextw r) (semSextw r) s
def execZextw (r : Un) (s : State) : Host.Outcome State Fault Refusal := runSlot (.zextw r) (semZextw r) s
def execPand (r : PP) (s : State) : Host.Outcome State Fault Refusal := runSlot (.pand r) (semPand r) s
def execPor (r : PP) (s : State) : Host.Outcome State Fault Refusal := runSlot (.por r) (semPor r) s
def execPxor (r : PP) (s : State) : Host.Outcome State Fault Refusal := runSlot (.pxor r) (semPxor r) s
def execPandn (r : PP) (s : State) : Host.Outcome State Fault Refusal := runSlot (.pandn r) (semPandn r) s
def execMfp (r : MFP) (s : State) : Host.Outcome State Fault Refusal := runSlot (.mfp r) (semMfp r) s
def execMtp (r : MTP) (s : State) : Host.Outcome State Fault Refusal := runSlot (.mtp r) (semMtp r) s
def execBfx (r : SF) (s : State) : Host.Outcome State Fault Refusal := runSlot (.bfx r) (semBfx r) s
def execBfi (r : SF) (s : State) : Host.Outcome State Fault Refusal := runSlot (.bfi r) (semBfi r) s
def execAddi (r : SI) (s : State) : Host.Outcome State Fault Refusal := runSlot (.addi r) (semAddi r) s
def execAndi (r : SI) (s : State) : Host.Outcome State Fault Refusal := runSlot (.andi r) (semAndi r) s
def execOri (r : SI) (s : State) : Host.Outcome State Fault Refusal := runSlot (.ori r) (semOri r) s
def execXori (r : SI) (s : State) : Host.Outcome State Fault Refusal := runSlot (.xori r) (semXori r) s
def execShli (r : SI) (s : State) : Host.Outcome State Fault Refusal := runSlot (.shli r) (semShli r) s
def execShri (r : SI) (s : State) : Host.Outcome State Fault Refusal := runSlot (.shri r) (semShri r) s
def execSari (r : SI) (s : State) : Host.Outcome State Fault Refusal := runSlot (.sari r) (semSari r) s
def execMuli (r : SI) (s : State) : Host.Outcome State Fault Refusal := runSlot (.muli r) (semMuli r) s
def execCmpi (r : CmpI) (s : State) : Host.Outcome State Fault Refusal := runSlot (.cmpi r) (semCmpi r) s
def execMovi (r : MovI) (s : State) : Host.Outcome State Fault Refusal := runSlot (.movi r) (semMovi r) s
def execMovk (r : MovK) (s : State) : Host.Outcome State Fault Refusal := runSlot (.movk r) (semMovk r) s
def execVget (r : VGet) (s : State) : Host.Outcome State Fault Refusal := runSlot (.vget r) (semVget r) s

/-- DIVIDER_RESULT_LAND: the result of a divider lands and frees it, in frozen cycles as well (05 R88). -/
def execDividerResultLand (slot : Nat) (s : State) : Host.Outcome State Fault Refusal :=
  match s.core.divider slot with
  | none => .next s
  | some d => if s.now < d.due then .next s else .next (s.landDivider d s.now)

end Sys2Proof.Machine
end

