-- ==== Sys2Proof/Machine/Special.lean ====
section
/-! DEFINITION. Special-function-slot instructions (06 R131 to R138). -/

namespace Sys2Proof.Machine

/-! ### Shapes (06 R131) -/

def fWidth (r : FW) : Nat := wBits r.w
def fEs (r : FW) : Nat := etBits r.et
def fN (r : FW) : Nat := fWidth r / fEs r

/-- The F-slot instruction that writes its puts to one vector register. -/
def fwSem (r : FW) (lat : Nat) (srcs : List (FReg × Bool)) (usesRm : Bool) (f : Ctx → List Put) : SlotSem :=
  { guard := none, srcs, dsts := [.v r.d],
    eff := fun s => s.modCtx (fun c => (c.issuePuts s.cur.bslot lat (.v r.d) 32 r.nf (f c)).afterSr usesRm r.rm) }

/-- The F-slot instruction that writes two registers in one landing (06 R139). -/
def fwPairSem (r : FW) (lat : Nat) (srcs : List (FReg × Bool)) (f : Ctx → List Put × List Put) : SlotSem :=
  { guard := none, srcs, dsts := [.v r.d, .v (r.d + 1)],
    eff := fun s => s.modCtx (fun c =>
      (c.issuePuts s.cur.bslot lat (.v r.d) 32 r.nf (f c).1).issuePuts s.cur.bslot lat (.v (r.d + 1)) 32 r.nf (f c).2) }

/-! ### Transcendental functions (06 R132) -/

def fnSem (r : FW) (f : Num → Res) : SlotSem :=
  let e := fEs r
  fwSem r 10 [(.v r.a, r.ta)] true (fun c =>
    let m := c.mreg r.m
    let a := c.vreg r.a
    let F := (etFmt r.et).getD f32
    (List.range (fN r)).filterMap (fun i =>
      if m.active (e / 8) i then
        let y := f (F.num (elem a.v.toNat e i))
        let z := F.round (c.modeAt r.rm 0 i) y.1
        some { pos := e * i, len := e, val := z.1, flags := z.2 ||| y.2, lane := e * i / 32,
               pois := m.governs (e / 8) i || spanPois a.pois (e * i) e }
      else none))

def semFnop : SlotSem := { guard := none, eff := fun s => s }
def semFexp2 (r : FW) : SlotSem := fnSem r Num.exp2
def semFlog2 (r : FW) : SlotSem := fnSem r Num.log2
def semFrcp (r : FW) : SlotSem := fnSem r (fun x => (Num.ofInt 1).quot x)
def semFrsqrt (r : FW) : SlotSem := fnSem r Num.rsqrt
def semFsqrt (r : FW) : SlotSem := fnSem r Num.sqrt
def semFtanh (r : FW) : SlotSem := fnSem r Num.tanh
def semFsin (r : FW) : SlotSem := fnSem r Num.sin
def semFcos (r : FW) : SlotSem := fnSem r Num.cos

/-! ### 2:4 sparsity (06 R133, R134) -/

/-- Rank of an element in its group: larger magnitudes first, a NaN above every number. -/
def sparseRank (r : FW) (x : Nat) : Nat :=
  match etFmt r.et with
  | some F => if (F.num x).isNan then 2 ^ 16 else x % 2 ^ (F.eb + F.mb)
  | none => (signedOf 8 x).natAbs

/-- The positions of the two elements that a group keeps, rising; a tie goes to the lower index. -/
def keepTwo (ranks : List Nat) : List Nat :=
  (List.range 4).filter (fun i =>
    ((List.range 4).filter (fun j => decide (arg ranks i < arg ranks j) || (arg ranks i = arg ranks j && decide (j < i)))).length < 2)

def semSpk24 (r : FW) : SlotSem :=
  let e := fEs r
  let w := fWidth r
  fwPairSem r 4 [(.v r.a, r.ta)] (fun c =>
    let a := c.vreg r.a
    let groups := (List.range (fN r / 4)).map (fun g =>
      let xs := (List.range 4).map (fun k => elem a.v.toNat e (4 * g + k))
      (g, xs, keepTwo (xs.map (sparseRank r)), spanPois a.pois (4 * g * e) (4 * e)))
    let vals := groups.flatMap (fun x => (List.range 2).map (fun k =>
      ({ pos := e * (2 * x.1 + k), len := e, val := arg x.2.1 (arg x.2.2.1 k), pois := x.2.2.2 } : Put)))
    let pos4 := groups.map (fun x =>
      ({ pos := 4 * x.1, len := 4, val := arg x.2.2.1 0 + 4 * arg x.2.2.1 1, pois := x.2.2.2 } : Put))
    (vals ++ [{ pos := w / 2, len := w / 2, val := 0 }], pos4 ++ [{ pos := fN r, len := w - fN r, val := 0 }]))

def semSpx24 (r : FW) : SlotSem :=
  let e := fEs r
  fwSem r 4 [(.v r.a, r.ta), (.v (r.a + 1), r.ta)] false (fun c =>
    let a := c.vreg r.a
    let b := c.vreg (r.a + 1)
    (List.range (fN r)).map (fun i =>
      let g := i / 4
      let p0 := elem b.v.toNat 2 (2 * g)
      let p1 := elem b.v.toNat 2 (2 * g + 1)
      -- the source value that stands at the position, none where the zero stands
      let from_ : Option Nat := if p1 = i % 4 then some (2 * g + 1) else if p0 = i % 4 then some (2 * g) else none
      { pos := e * i, len := e, val := from_.elim 0 (elem a.v.toNat e),
        pois := from_.elim false (fun k => spanPois a.pois (e * k) e) || spanPois b.pois (4 * g) 4 }))

/-! ### Sorting and searching (06 R135, R136) -/

/-- VSORT's order: i32 by value; f32 with −0 below +0 and every NaN equal above +∞. -/
def sortKey (r : FW) (x : Nat) : Int :=
  if r.et = 5 then (if (f32.num x).isNan then 2 ^ 40 else f32.key x false) else signedOf 32 x

/-- Stable insertion by rising key. -/
def insertKey (x : Int × Nat) : List (Int × Nat) → List (Int × Nat)
  | [] => [x]
  | y :: l => if x.1 ≤ y.1 then x :: y :: l else y :: insertKey x l

def semVsort (r : FW) : SlotSem :=
  fwPairSem r 14 [(.v r.a, r.ta), (.v (r.a + 1), r.ta)] (fun c =>
    let a := c.vreg r.a
    let b := c.vreg (r.a + 1)
    let ids := List.range (fN r)
    let order := (ids.map (fun i => (sortKey r (elem a.v.toNat 32 i), i))).foldr insertKey []
    let all := ids.any (fun i => a.pois.getLsbD i)
    let keys := order.zipIdx.map (fun x =>
      ({ pos := 32 * x.2, len := 32, val := elem a.v.toNat 32 x.1.2, pois := all,
         flags := (if r.et = 5 && (f32.num (elem a.v.toNat 32 x.1.2)).isSnan then fNV else 0), lane := x.1.2 } : Put))
    let pays := order.zipIdx.map (fun x =>
      ({ pos := 32 * x.2, len := 32, val := elem b.v.toNat 32 x.1.2, pois := all || b.pois.getLsbD x.1.2 } : Put))
    (keys, pays))

def semVsrch (r : FW) : SlotSem :=
  fwSem r 8 [(.v r.a, r.ta), (.v r.d, false)] false (fun c =>
    let m := c.mreg r.m
    let t := c.vreg r.a
    let q := c.vreg r.d
    let keys := (List.range (fN r)).map (fun k => sortKey r (elem t.v.toNat 32 k))
    let bad := (List.range (fN r)).any (fun k => t.pois.getLsbD k)
    (List.range (fN r)).filterMap (fun i =>
      if m.active 4 i then
        some { pos := 32 * i, len := 32, val := (keys.filter (fun k => k ≤ sortKey r (elem q.v.toNat 32 i))).length,
               pois := bad || q.pois.getLsbD i || m.governs 4 i }
      else none))

/-! ### Scales, counters and the rill (06 R137, R138) -/

def semMxscl (r : FW) : SlotSem :=
  let e := fEs r
  fwSem r 6 [(.v r.a, r.ta)] false (fun c =>
    let m := c.mreg r.m
    let a := c.vreg r.a
    let F := (etFmt r.et).getD f32
    let ids := List.range (fN r)
    let block (j : Nat) := (ids.filter (fun i => i / 32 = j && m.active (e / 8) i)).map (fun i => F.num (elem a.v.toNat e i))
    let byte (j f : Nat) : Nat := scaleByte f (block j) c.policy (sget 0 c.ucnt ((2 * r.a.toNat + j) % 32)).toNat c.thresh.toNat
    let bad := ids.any (fun i => m.governs (e / 8) i || (m.active (e / 8) i && spanPois a.pois (e * i) e))
    let lanes := (List.range 6).map (fun k =>
      ({ pos := 32 * k, len := 32, val := byte 0 (k + 2) + (if 32 < fN r then 256 * byte 1 (k + 2) else 0), pois := bad } : Put))
    lanes ++ [{ pos := 192, len := fWidth r - 192, val := 0 }])

/-- A lane-wise result of 32-bit lanes that is never poisoned. -/
def cleanLanes (r : FW) (c : Ctx) (f : Nat → Nat) : List Put :=
  (List.range (fWidth r / 32)).filterMap (fun i =>
    if (c.mreg r.m).active 4 i then some { pos := 32 * i, len := 32, val := f i } else none)

def semVundc (r : FW) : SlotSem := fwSem r 3 [] false (fun c => cleanLanes r c (fun i => (sget 0 c.ucnt i).toNat))

/-- FRILL counts as an SR instruction whatever its mask (06 R138). -/
def semFrill (r : FW) : SlotSem :=
  { guard := none, dsts := [.v r.d],
    eff := fun s => s.modCtx (fun c =>
      let d := c.issuePuts s.cur.bslot 3 (.v r.d) 32 true
        (cleanLanes r c (fun i => (rill c.srseed (BitVec.ofNat 32 i) c.srctr).toNat))
      { d with srctr := d.srctr + 1 }) }

/-! ### Execution -/

def execFnop (s : State) : Host.Outcome State Fault Refusal := runSlot .fnop semFnop s
def execFexp2 (r : FW) (s : State) : Host.Outcome State Fault Refusal := runSlot (.fexp2 r) (semFexp2 r) s
def execFlog2 (r : FW) (s : State) : Host.Outcome State Fault Refusal := runSlot (.flog2 r) (semFlog2 r) s
def execFrcp (r : FW) (s : State) : Host.Outcome State Fault Refusal := runSlot (.frcp r) (semFrcp r) s
def execFrsqrt (r : FW) (s : State) : Host.Outcome State Fault Refusal := runSlot (.frsqrt r) (semFrsqrt r) s
def execFsqrt (r : FW) (s : State) : Host.Outcome State Fault Refusal := runSlot (.fsqrt r) (semFsqrt r) s
def execFtanh (r : FW) (s : State) : Host.Outcome State Fault Refusal := runSlot (.ftanh r) (semFtanh r) s
def execFsin (r : FW) (s : State) : Host.Outcome State Fault Refusal := runSlot (.fsin r) (semFsin r) s
def execFcos (r : FW) (s : State) : Host.Outcome State Fault Refusal := runSlot (.fcos r) (semFcos r) s
def execSpk24 (r : FW) (s : State) : Host.Outcome State Fault Refusal := runSlot (.spk24 r) (semSpk24 r) s
def execSpx24 (r : FW) (s : State) : Host.Outcome State Fault Refusal := runSlot (.spx24 r) (semSpx24 r) s
def execVsort (r : FW) (s : State) : Host.Outcome State Fault Refusal := runSlot (.vsort r) (semVsort r) s
def execVsrch (r : FW) (s : State) : Host.Outcome State Fault Refusal := runSlot (.vsrch r) (semVsrch r) s
def execMxscl (r : FW) (s : State) : Host.Outcome State Fault Refusal := runSlot (.mxscl r) (semMxscl r) s
def execVundc (r : FW) (s : State) : Host.Outcome State Fault Refusal := runSlot (.vundc r) (semVundc r) s
def execFrill (r : FW) (s : State) : Host.Outcome State Fault Refusal := runSlot (.frill r) (semFrill r) s

end Sys2Proof.Machine
end

