-- ==== Sys2Proof/Machine/Semantics.lean ====
section
/-! DEFINITION. What the checks and the effect of each slot instruction are made of. -/

namespace Sys2Proof.Machine

/-- The operands, checks and effect of a slot instruction; none for an event. -/
def semOf : Instr → Option SlotSem
  | .add r => some (semAdd r)
  | .sub r => some (semSub r)
  | .mul r => some (semMul r)
  | .mulh r => some (semMulh r)
  | .mulhu r => some (semMulhu r)
  | .mulhsu r => some (semMulhsu r)
  | .div r => some (semDiv r)
  | .divu r => some (semDivu r)
  | .rem r => some (semRem r)
  | .remu r => some (semRemu r)
  | .and r => some (semAnd r)
  | .or r => some (semOr r)
  | .xor r => some (semXor r)
  | .andn r => some (semAndn r)
  | .shl r => some (semShl r)
  | .shr r => some (semShr r)
  | .sar r => some (semSar r)
  | .ror r => some (semRor r)
  | .min r => some (semMin r)
  | .minu r => some (semMinu r)
  | .max r => some (semMax r)
  | .maxu r => some (semMaxu r)
  | .cmp r => some (semCmp r)
  | .cmpu r => some (semCmpu r)
  | .sel r => some (semSel r)
  | .clz r => some (semClz r)
  | .ctz r => some (semCtz r)
  | .popc r => some (semPopc r)
  | .brev r => some (semBrev r)
  | .sextb r => some (semSextb r)
  | .sexth r => some (semSexth r)
  | .sextw r => some (semSextw r)
  | .zextw r => some (semZextw r)
  | .pand r => some (semPand r)
  | .por r => some (semPor r)
  | .pxor r => some (semPxor r)
  | .pandn r => some (semPandn r)
  | .mfp r => some (semMfp r)
  | .mtp r => some (semMtp r)
  | .bfx r => some (semBfx r)
  | .bfi r => some (semBfi r)
  | .addi r => some (semAddi r)
  | .andi r => some (semAndi r)
  | .ori r => some (semOri r)
  | .xori r => some (semXori r)
  | .shli r => some (semShli r)
  | .shri r => some (semShri r)
  | .sari r => some (semSari r)
  | .muli r => some (semMuli r)
  | .cmpi r => some (semCmpi r)
  | .movi r => some (semMovi r)
  | .movk r => some (semMovk r)
  | .vget r => some (semVget r)
  | .br r => some (semBr r)
  | .loop r => some (semLoop r)
  | .nest r => some (semNest r)
  | .next g => some (semNext g)
  | .calls r => some (semCalls r)
  | .rets g => some (semRets g)
  | .yieldEnd g => some (semYieldEnd g)
  | .yieldExit g => some (semYieldExit g)
  | .yieldHdone g => some (semYieldHdone g)
  | .trap r => some (semTrap r)
  | .mfs r => some (semMfs r)
  | .mts r => some (semMts r)
  | .rdtimePtime r => some (semRdtimePtime r)
  | .rdtimeCycles r => some (semRdtimeCycles r)
  | .vadd r => some (semVadd r)
  | .vsub r => some (semVsub r)
  | .vmul r => some (semVmul r)
  | .vfma r => some (semVfma r)
  | .vfms r => some (semVfms r)
  | .vfnma r => some (semVfnma r)
  | .vmin r => some (semVmin r)
  | .vmax r => some (semVmax r)
  | .vminn r => some (semVminn r)
  | .vmaxn r => some (semVmaxn r)
  | .vabs r => some (semVabs r)
  | .vneg r => some (semVneg r)
  | .vand r => some (semVand r)
  | .vor r => some (semVor r)
  | .vxor r => some (semVxor r)
  | .vandn r => some (semVandn r)
  | .vshl r => some (semVshl r)
  | .vshr r => some (semVshr r)
  | .vsar r => some (semVsar r)
  | .vshli r => some (semVshli r)
  | .vshri r => some (semVshri r)
  | .vsari r => some (semVsari r)
  | .vcmp r => some (semVcmp r)
  | .vsel r => some (semVsel r)
  | .vcvt r => some (semVcvt r)
  | .vperm r => some (semVperm r)
  | .vshuf r => some (semVshuf r)
  | .vbcast r => some (semVbcast r)
  | .vmovi r => some (semVmovi r)
  | .vred r => some (semVred r)
  | .vscan r => some (semVscan r)
  | .vmov r => some (semVmov r)
  | .vclz r => some (semVclz r)
  | .vpopc r => some (semVpopc r)
  | .vmulh r => some (semVmulh r)
  | .vdot4 r => some (semVdot4 r)
  | .vmxq r => some (semVmxq r)
  | .vmxdq r => some (semVmxdq r)
  | .vmlog r => some (semVmlog r)
  | .vmcnt r => some (semVmcnt r)
  | .vins r => some (semVins r)
  | .fexp2 r => some (semFexp2 r)
  | .flog2 r => some (semFlog2 r)
  | .frcp r => some (semFrcp r)
  | .frsqrt r => some (semFrsqrt r)
  | .fsqrt r => some (semFsqrt r)
  | .ftanh r => some (semFtanh r)
  | .fsin r => some (semFsin r)
  | .fcos r => some (semFcos r)
  | .spk24 r => some (semSpk24 r)
  | .spx24 r => some (semSpx24 r)
  | .vsort r => some (semVsort r)
  | .vsrch r => some (semVsrch r)
  | .mxscl r => some (semMxscl r)
  | .vundc r => some (semVundc r)
  | .frill r => some (semFrill r)
  | .ld r => some (semLd r)
  | .st r => some (semSt r)
  | .ldv r => some (semLdv r)
  | .stv r => some (semStv r)
  | .ldsc r => some (semLdsc r)
  | .wset r => some (semWset r)
  | .cflushClean r => some (semCflushClean r)
  | .cflushFlush r => some (semCflushFlush r)
  | .cflushInv r => some (semCflushInv r)
  | .cflushRangenc r => some (semCflushRangenc r)
  | .atomSwap r => some (semAtomSwap r)
  | .atomCas r => some (semAtomCas r)
  | .atomAdd r => some (semAtomAdd r)
  | .atomAnd r => some (semAtomAnd r)
  | .atomOr r => some (semAtomOr r)
  | .atomXor r => some (semAtomXor r)
  | .atomMin r => some (semAtomMin r)
  | .atomMax r => some (semAtomMax r)
  | .atomMinu r => some (semAtomMinu r)
  | .atomMaxu r => some (semAtomMaxu r)
  | .atomFadd r => some (semAtomFadd r)
  | .atomIncw r => some (semAtomIncw r)
  | .atomLd r => some (semAtomLd r)
  | .qmark r => some (semQmark r)
  | .fence r => some (semFence r)
  | .copy r => some (semCopy r)
  | .put r => some (semPut r)
  | .get r => some (semGet r)
  | .gather r => some (semGather r)
  | .scatter r => some (semScatter r)
  | .scadd r => some (semScadd r)
  | .awr r => some (semAwr r)
  | .engwait r => some (semEngwait r)
  | .cpresume r => some (semCpresume r)
  | .cpabort r => some (semCpabort r)
  | .semsig r => some (semSemsig r)
  | .phreg r => some (semPhreg r)
  | .phdrop r => some (semPhdrop r)
  | .phsig r => some (semPhsig r)
  | .phwait r => some (semPhwait r)
  | .phsw r => some (semPhsw r)
  | .phstat r => some (semPhstat r)
  | .ring r => some (semRing r)
  | .sptest r => some (semSptest r)
  | .spcastExplicit r => some (semSpcastExplicit r)
  | .spcastSelf r => some (semSpcastSelf r)
  | .spcastTocluster r => some (semSpcastTocluster r)
  | .spcastFromcluster r => some (semSpcastFromcluster r)
  | .spcastClexplicit r => some (semSpcastClexplicit r)
  | .spcastClself r => some (semSpcastClself r)
  | .rocall r => some (semRocall r)
  | .rowait r => some (semRowait r)
  | .jetmsg r => some (semJetmsg r)
  | .mma r => some (semMma r)
  | .mmz r => some (semMmz r)
  | .mmld r => some (semMmld r)
  | .mmst r => some (semMmst r)
  | .mmrd r => some (semMmrd r)
  | .mmwr r => some (semMmwr r)
  | .rsplit r => some (semRsplit r)
  | .rmerge r => some (semRmerge r)
  | .rinv r => some (semRinv r)
  | .rprobe r => some (semRprobe r)
  | .slx r => some (semSlx r)
  | .jl2rd _ => none
  | .jl2wr _ => none
  | .jpf _ => none
  | .jfwd _ => none
  | .jmsg _ => none
  | .jdone _ => none
  | .jbudget _ => none
  | .jlognext _ => none
  | .jlogadv _ => none
  | .jundo _ => none
  | .variableResultLand _ => none
  | .dividerResultLand _ => none
  | .queueEntryPerform _ => none
  | .rtlbWalkComplete _ => none
  | .segmentExpansion _ _ => none
  | .taskDispatch _ _ => none
  | .jobGranuleWrite _ => none
  | .jobComplete _ => none
  | .slxChunkDeliver _ => none
  | .launch _ => none
  | .waitq _ => none
  | .sigq _ => none
  | .sluice _ => none
  | .cpyp _ => none
  | .bkcfg _ => none
  | .basin _ => none
  | .round _ => none
  | .fencep _ => none
  | .hostint _ => none
  | .jump _ => none
  | .stop _ => none
  | .slotDelivery _ => none
  | .launchComplete _ => none
  | .sluiceComplete _ => none
  | .cpypComplete _ => none
  | .gets _ => none
  | .getm _ => none
  | .pute _ => none
  | .putm _ => none
  | .fwdGets _ => none
  | .fwdGetm _ => none
  | .inv _ => none
  | .fwdRecall _ => none
  | .acknowledgement _ => none
  | .farAtomicExecute _ => none
  | .msAccess _ => none
  | .l2Fill _ _ _ => none
  | .rangeChangeComplete _ => none
  | .markerDrain _ => none
  | .roundBarrier _ => none
  | .roundBarrierComplete _ => none
  | .rocallAppend _ => none
  | .rocallReadQuery _ => none
  | .jetRunStart _ => none
  | .jetCoreInstruction _ => none
  | .replayApply _ => none
  | .jetmsgArrival _ => none
  | .cctlGo _ => none
  | .cctlHalt _ => none
  | .cctlKill _ => none
  | .registerWrite _ _ _ => none
  | .registerReadClear _ _ => none
  | .sliceExpiry _ => none
  | .forcedFreeze _ => none
  | .contextSwap _ => none
  | .swapInComplete _ => none
  | .cmpctlGo _ => none
  | .compactionSwap _ => none
  | .compactionDone _ => none
  | .bucketContribution _ _ => none
  | .basinRunStart _ _ => none
  | .basinWord _ _ => none
  | .basinUnitResultLand _ _ => none
  | .ldrRowLand _ _ => none
  | .basinRunHalt _ _ => none
  | .basinSaveMode _ _ => none
  | .allgatherRowReceive _ => none
  | .jetEvent _ _ _ _ => none
  | .jetRunKill _ _ => none
  | .ncWriteback _ _ => none
  | .tsvifRetry _ _ _ => none
  | .patrolScrubRow _ _ => none
  | .dramAct _ _ _ _ => none
  | .rowAlert _ _ _ _ => none
  | .trfmExpiry _ _ _ => none
  | .linkReplay _ _ => none
  | .linkRetrainTimeout _ => none
  | .dieReset _ => none
  | .coreRepair _ _ _ => none
  | .inboundPoisonedTlp _ _ _ => none
  | .pcieLinkChange _ => none
  | .powerWindow _ => none
  | .pcapWrite _ _ => none
  | .scrubperWrite _ _ _ => none
  | .mthWrite _ _ => none
  | .funcmodeWrite _ _ => none
  | .getVersion _ _ => none
  | .getCapabilities _ _ => none
  | .negotiateAlgorithms _ _ => none
  | .getDigests _ _ => none
  | .getCertificate _ _ => none
  | .challenge _ _ => none
  | .getMeasurements _ _ _ => none
  | .sidebandTelemetryRead _ => none
  | .sidebandErrlogRead _ => none
  | .sidebandPcapAccess _ => none
  | .partitionConfiguration _ _ => none
  | .regularRefresh _ _ _ _ => none
  | .scratchpadBankWake _ _ => none
  | .linkRetrained _ => none
  | .inboundMemoryTlp _ _ _ _ => none
  | .remotePackageRequest _ _ _ _ _ => none
  | .allgatherAcknowledgement _ => none
  | .snop => some (semSnop)
  | .pureDelayBundle => none
  | .nullBundle => none
  | .vnop => some (semVnop)
  | .fnop => some (semFnop)
  | .mnop => some (semMnop)
  | .fixedResultLand => none
  | .trapDelivery => none
  | .segmentEnd => none
  | .segmentStart => none
  | .taskRetire => none
  | .handlerDormant => none
  | .mmaExecuteStart => none
  | .mmaBlockArrive => none
  | .mmaBlockEnd => none
  | .mmaFault => none
  | .accumulatorLand => none
  | .weirRefill => none
  | .powerUp => none
  | .bootgo => none
  | .bootVerifyComplete => none
  | .sidebandDeviceReset => none
  | .sidebandBootRead => none
  | .powerOff => none

end Sys2Proof.Machine
end

