-- ==== Sys2Proof/Machine/Checks.lean ====
section
/-! DEFINITION. The checks of a bundle in the order of 03 R60 and R61. -/

namespace Sys2Proof.Machine

/-! ### Static checks (03 R60) -/

/-- A matrix opcode (08 slot opcodes 0x30 to 0x35). -/
def isMatrixOp (w : Word) : Bool := 0x30 ≤ memoryOp w && memoryOp w ≤ 0x35

/-- Lane-group claim of a present slot's word (03 R44). -/
def laneClaim (n : Nat) (w : Word) : Nat :=
  if n < 2 || 4 < n || w.toNat / 2 ^ 41 % 2 ^ 7 = 0 then 0
  else match w.toNat / 2 ^ 39 % 4 with | 0 => 256 | 1 => 512 | _ => 1024

/-- The static checks of the word in slot n: its instruction, or the first failing check. -/
def State.slotStatic (s : State) (n : Nat) (w : Word) : Except Cause Instr :=
  let s := { s with cur := { s.cur with bslot := n } }
  if n = 6 && isMatrixOp w then .error .illegal
  else if n = 7 && isMatrixOp w && (s.isHandler || s.isSluice) then .error .priv
  else
    match decodeSlot n w with
    | .error c => .error c
    | .ok i =>
      if s.isSluice && 2 ≤ n && n ≤ 5 then .error .priv
      else
        match semOf i with
        | none => .ok i
        | some m => match staticOf i m s with | some c => .error c | none => .ok i

/-- The instructions of a bundle's slots, or the trap of its first failing static check. -/
def State.staticSlots (s : State) : List (Nat × Word) → Except TrapInfo (List (Nat × Instr))
  | [] => .ok []
  | (n, w) :: r =>
    match s.slotStatic n w with
    | .error c => .error { cause := c, slot := some n }
    | .ok i =>
      match s.staticSlots r with
      | .error t => .error t
      | .ok l => .ok ((n, i) :: l)

def State.staticBundle (s : State) (b : RawBundle) : Except TrapInfo (List (Nat × Instr)) :=
  if b.hdr.extractLsb' 13 3 ≠ 0 || 64 < b.off % 64 + bundleBytes b.hdr then .error { cause := .rsvd }
  else
    match s.staticSlots b.slots with
    | .error t => .error t
    | .ok l =>
      if 2048 < b.slots.foldl (fun a e => a + laneClaim e.1 e.2) 0 then .error { cause := .lanes } else .ok l

/-! ### Operand and run-time checks (03 R61) -/

/-- The lowest slot whose trap-mode operand is empty. -/
def State.emptySlot (s : State) (l : List (Nat × Instr)) : Option Nat :=
  l.findSome? (fun e => match semOf e.2 with
    | some m => if s.ctx.holds m.guard && s.ctx.trapsEmpty m.srcs then some e.1 else none
    | none => none)

def State.anyBlocked (s : State) (l : List (Nat × Instr)) : Bool :=
  l.any (fun e => match semOf e.2 with
    | some m => s.ctx.holds m.guard && s.ctx.blocks m.srcs m.dsts
    | none => false)

/-- The first verdict, in slot order, that keeps the bundle from issuing. -/
def State.runChecks (s : State) : List (Nat × Instr) → Verdict
  | [] => .go
  | (n, i) :: r =>
    let here : Verdict := match semOf i with
      | some m => m.verdict { s with cur := { s.cur with bslot := n } }
      | none => .go
    match here with
    | .go => s.runChecks r
    | .freeze => .freeze
    | .walk v => .walk v
    | .trap t => .trap { t with slot := some n }

/-- The queue entries that the bundle's slots take. -/
def State.entriesNeeded (s : State) (l : List (Nat × Instr)) : Nat × Nat :=
  l.foldl (fun n e => match semOf e.2 with
    | some m => if s.ctx.holds m.guard then (n.1 + m.need.1, n.2 + m.need.2) else n
    | none => n) (0, 0)

/-- The job slots that the bundle takes. -/
def State.jobsNeeded (s : State) (l : List (Nat × Instr)) : Nat :=
  l.foldl (fun n e => match semOf e.2 with
    | some m => if s.ctx.holds m.guard then n + m.jobs else n
    | none => n) 0

/-- Whether the bundle's slots may issue, after its static checks. -/
def State.operandChecks (s : State) (l : List (Nat × Instr)) : Verdict :=
  match s.emptySlot l with
  | some n => .trap { cause := .feEmpty, slot := some n }
  | none =>
    if s.anyBlocked l then .freeze
    else
      match s.runChecks l with
      | .go => if s.ctx.room (s.entriesNeeded l) && s.ctx.jobRoom (s.jobsNeeded l) then .go else .freeze
      | v => v

/-- What becomes of the bundle that the context would issue next: its slots' instructions where it issues. -/
inductive BundleVerdict
  | go (l : List (Nat × Instr))
  | freeze
  | walk (va : Nat)
  | trap (t : TrapInfo)

def State.bundleVerdict (s : State) (b : RawBundle) : BundleVerdict :=
  match s.staticBundle b with
  | .error t => .trap t
  | .ok l =>
    match s.operandChecks l with
    | .go => .go l
    | .freeze => .freeze
    | .walk va => .walk va
    | .trap t => .trap t

end Sys2Proof.Machine
end

