-- ==== Sys2Proof/Machine/Crypto.lean ====
section
/-! DEFINITION. SHAKE256 (FIPS 202) and Ed448 (RFC 8032), which 23 R362 to R365 name. -/

namespace Sys2Proof.Machine

/-! ### SHAKE256 -/

/-- Rotation of lane x + 5y. -/
def keccakRot : List Nat :=
  [0, 1, 62, 28, 27, 36, 44, 6, 55, 20, 3, 10, 43, 25, 39, 41, 45, 15, 21, 8, 18, 2, 61, 56, 14]

def keccakRc : List Word :=
  [0x0000000000000001, 0x0000000000008082, 0x800000000000808A, 0x8000000080008000, 0x000000000000808B, 0x0000000080000001,
   0x8000000080008081, 0x8000000000008009, 0x000000000000008A, 0x0000000000000088, 0x0000000080008009, 0x000000008000000A] ++
  [0x000000008000808B, 0x800000000000008B, 0x8000000000008089, 0x8000000000008003, 0x8000000000008002, 0x8000000000000080,
   0x000000000000800A, 0x800000008000000A, 0x8000000080008081, 0x8000000000008080, 0x0000000080000001, 0x8000000080008008]

/-- Lane i of a state of 25. -/
def lane (a : List Word) (i : Nat) : Word := a.getD i 0

/-- One round of Keccak-f[1600]. -/
def keccakRound (a : List Word) (rc : Word) : List Word :=
  let c := (List.range 5).map (fun x => lane a x ^^^ lane a (x + 5) ^^^ lane a (x + 10) ^^^ lane a (x + 15) ^^^ lane a (x + 20))
  let d := (List.range 5).map (fun x => lane c ((x + 4) % 5) ^^^ (lane c ((x + 1) % 5)).rotateLeft 1)
  let t := (List.range 25).map (fun i => lane a i ^^^ lane d (i % 5))
  -- lane (x', y') takes lane (x' + 3y', x'), turned
  let b := (List.range 25).map (fun i =>
    let x := (i % 5 + 3 * (i / 5)) % 5
    let y := i % 5
    (lane t (x + 5 * y)).rotateLeft (keccakRot.getD (x + 5 * y) 0))
  (List.range 25).map (fun i =>
    let x := i % 5
    let y := i / 5 * 5
    let v := lane b i ^^^ (~~~(lane b ((x + 1) % 5 + y)) &&& lane b ((x + 2) % 5 + y))
    if i = 0 then v ^^^ rc else v)

def keccakF (a : List Word) : List Word := keccakRc.foldl keccakRound a

/-- A block of w lanes is absorbed. -/
def absorb (w : Nat) (a : List Word) (b : List Byte) : List Word :=
  keccakF ((List.range 25).map (fun i => if i < w then lane a i ^^^ BitVec.ofNat 64 (leNat ((b.drop (8 * i)).take 8)) else lane a i))

/-- The blocks of a padded message. -/
def absorbAll (w : Nat) : Nat → List Word → List Byte → List Word
  | 0, a, _ => a
  | n + 1, a, b => if b.length < 8 * w then a else absorbAll w n (absorb w a (b.take (8 * w))) (b.drop (8 * w))

/-- Padding to blocks of w lanes: the function's suffix, zeros, and the top bit of the last byte. -/
def keccakPad (w : Nat) (suffix : Byte) (m : List Byte) : List Byte :=
  let z := 8 * w - 1 - m.length % (8 * w)
  if z = 0 then m ++ [suffix ||| 0x80] else m ++ [suffix] ++ List.replicate (z - 1) 0 ++ [0x80]

def squeeze (w : Nat) : Nat → List Word → List Byte
  | 0, _ => []
  | n + 1, a => ((List.range w).flatMap (fun i => leBytes (lane a i).toNat 8)) ++ squeeze w n (keccakF a)

/-- n bytes of the sponge with a rate of w lanes. -/
def sponge (w : Nat) (suffix : Byte) (m : List Byte) (n : Nat) : List Byte :=
  let p := keccakPad w suffix m
  (squeeze w ((n + 8 * w - 1) / (8 * w)) (absorbAll w (p.length / (8 * w)) (List.replicate 25 0) p)).take n

/-- SHAKE256(m, n bytes). -/
def shake256 (m : List Byte) (n : Nat) : List Byte := sponge 17 0x1F m n

/-- SHA3-512 of m. -/
def sha3512 (m : List Byte) : List Byte := sponge 9 0x06 m 64

/-! ### Ed448 -/

def edP : Nat := 2 ^ 448 - 2 ^ 224 - 1
def edD : Nat := edP - 39081
def edL : Nat := 2 ^ 446 - 13818066809895115352007386748515426880336692474882178609894547503885

/-- Modular power over the low n bits of the exponent. -/
def powMod (p : Nat) : Nat → Nat → Nat → Nat
  | 0, _, _ => 1
  | n + 1, b, e => let r := powMod p n (b * b % p) (e / 2); if e % 2 = 1 then r * b % p else r

def edInv (x : Nat) : Nat := powMod edP 448 x (edP - 2)

/-- A point in projective coordinates. -/
structure EdPoint where
  x : Nat
  y : Nat
  z : Nat
  deriving DecidableEq, Repr

def edBase : EdPoint :=
  { x := 224580040295924300187604334099896036246789641632564134246125461686950415467406032909029192869357953282578032075146446173674602635247710,
    y := 298819210078481492676017930443930673437544040154080242095928241372331506189835876003536878655418784733982303233503462500531545062832660,
    z := 1 }

def EdPoint.add (p q : EdPoint) : EdPoint :=
  let a := p.z * q.z % edP
  let b := a * a % edP
  let c := p.x * q.x % edP
  let d := p.y * q.y % edP
  let e := edD * c * d % edP
  let f := (b + edP - e) % edP
  let g := (b + e) % edP
  let h := (p.x + p.y) * (q.x + q.y) % edP
  { x := a * f * (h + 2 * edP - c - d) % edP, y := a * g * (d + edP - c) % edP, z := f * g % edP }

/-- k times a point, over the low n bits of k. -/
def EdPoint.mul (p : EdPoint) : Nat → Nat → EdPoint
  | 0, _ => { x := 0, y := 1, z := 1 }
  | n + 1, k => let r := (p.add p).mul n (k / 2); if k % 2 = 1 then r.add p else r

def EdPoint.same (p q : EdPoint) : Bool := p.x * q.z % edP = q.x * p.z % edP && p.y * q.z % edP = q.y * p.z % edP

def EdPoint.encode (p : EdPoint) : List Byte :=
  let i := edInv p.z
  leBytes (p.y * i % edP + p.x * i % edP % 2 * 2 ^ 455) 57

/-- A point from its 57 bytes. -/
def edDecode (b : List Byte) : Option EdPoint :=
  let n := leNat b
  let y := n % 2 ^ 455
  let sign := n / 2 ^ 455
  if edP ≤ y then none
  else
    let u := (y * y + edP - 1) % edP
    let v := (edD * (y * y % edP) + edP - 1) % edP
    let u3v := u * u % edP * u % edP * v % edP
    let u5v3 := u3v * (u * u % edP) % edP * (v * v % edP) % edP
    let x := u3v * powMod edP 448 u5v3 ((edP - 3) / 4) % edP
    if v * (x * x % edP) % edP ≠ u then none
    else if x = 0 && sign = 1 then none
    else some { x := if x % 2 = sign then x else edP - x, y, z := 1 }

/-- "SigEd448", flag 0, empty context. -/
def edDom : List Byte := [0x53, 0x69, 0x67, 0x45, 0x64, 0x34, 0x34, 0x38, 0, 0]

/-- PureEdDSA Ed448 verification with an empty context. RFC 8032 lets an implementation check the equation with or without the
cofactor. -/
def edVerify (cofactored : Bool) (pub msg sig : List Byte) : Bool :=
  match edDecode pub, edDecode (sig.take 57) with
  | some a, some r =>
    let k := leNat (shake256 (edDom ++ sig.take 57 ++ pub ++ msg) 114) % edL
    let s := leNat ((sig.drop 57).take 57)
    let l := edBase.mul 448 s
    let q := r.add (a.mul 448 k)
    s < edL && (if cofactored then ((l.mul 3 4).same (q.mul 3 4)) else l.same q)
  | _, _ => false

/-- The secret scalar and the second half of a seed's expansion. -/
def edSecret (seed : List Byte) : Nat × List Byte :=
  let h := shake256 seed 114
  let n := leNat (h.take 57)
  (n % 2 ^ 447 / 4 * 4 + 2 ^ 447, h.drop 57)

def edPublic (seed : List Byte) : List Byte := (edBase.mul 448 (edSecret seed).1).encode

def edSign (seed msg : List Byte) : List Byte :=
  let x := edSecret seed
  let pub := edPublic seed
  let r := leNat (shake256 (edDom ++ x.2 ++ msg) 114) % edL
  let rb := (edBase.mul 448 r).encode
  let k := leNat (shake256 (edDom ++ rb ++ pub ++ msg) 114) % edL
  rb ++ leBytes ((r + k * x.1) % edL) 57

/-! ### Measurement registers (23 R363) -/

/-- extend(MR, data). -/
def extendMr (mr : BitVec 512) (data : List Byte) : BitVec 512 :=
  BitVec.ofNat 512 (leNat (shake256 (leBytes mr.toNat 64 ++ shake256 data 64) 64))

end Sys2Proof.Machine
end

