-- ==== Sys2Proof/Machine/Seq.lean ====
section
/-! DEFINITION. The sequencer of a core: landings (02 R33, R34, R37), range walks (15 R270), segment expansion (03 R55 to
R59), trap delivery (19 R325), segment starts and ends (05 R103; 09 R195 to R200), and the ends of tasks and handler
activations (05 R104; 09 R204, R207). -/

namespace Sys2Proof.Machine

/-! ### Landings -/

/-- FIXED_RESULT_LAND: every result of the current context that is due in its advancing cycle lands. -/
def execFixedResultLand (s : State) : Host.Outcome State Fault Refusal :=
  let before := s.ctx.restart
  -- a sluice has no semaphores (09 R209)
  let s := if s.isSluice then s else s.modCore (fun k => k.landDue s.cycles s.ctx)
  .next ((s.modCtx Ctx.landDue).afterCancel before)

/-- The start of the core's next cycle. -/
def State.nextCycle (s : State) : Nat := max s.now s.core.busy

/-- VARIABLE_RESULT_LAND: the value that arrived i-th for the current context lands. Another that has arrived for its register,
which can only be one of its own bundle (02 R36), lands in the same cycle or in a later one; a divider result that is due on
it lands in the same cycle. -/
def execVariableResultLand (i : Nat) (s : State) : Host.Outcome State Fault Refusal :=
  match s.ctx.arrived[i]? with
  | none => .next s
  | some a =>
    let rest := s.ctx.arrived.eraseIdx i
    let rivals := rest.filter (fun x => x.dest = a.dest)
    let r := if rivals.isEmpty then (false, s) else s.either true false
    let set := a :: (if r.1 then rivals else [])
    let divs := r.2.dueDividers r.2.nextCycle r.2.cur.slot a.dest
    let t := if divs.isEmpty then r.2 else r.2.modCore (fun k => divs.foldl (fun k x => k.setDivider x.1 none) k)
    .next (t.modCtx (fun c =>
      { c with arrived := if r.1 then rest.filter (fun x => x.dest ≠ a.dest) else rest }.landSet a.dest
        (set.map (fun (x : Arrived) => c.varLanding x.slot x.dest x.val x.wm x.pois x.pm) ++ divs.map Prod.snd)))

/-! ### Range walks (15 R268, R270) -/

/-- A new entry of an associative table of n places; where it is full, a free choice makes room. -/
def State.insertCached (s : State) (n : Nat) (t : List Cached) (c : Cached) : List Cached × State :=
  if t.length < n then (t ++ [c], s)
  else
    let r := s.pick t.length
    (t.eraseIdx r.1 ++ [c], r.2)

/-- The result of a walk for one requester. -/
def State.answerWalk (s : State) (found : Option Cached) (w : Walk) : State :=
  let k := s.coreAt w.core
  match found with
  | some c =>
    if w.mat then
      let r := s.insertCached 16 k.mrt c
      r.2.modCoreAt w.core (fun k => { k with mrt := r.1, mwalk := none })
    else
      let r := s.insertCached 64 k.rtlb c
      r.2.modCoreAt w.core (fun k => { k with rtlb := r.1, walk := none })
  | none =>
    if w.mat then s.modCoreAt w.core (fun k => { k with mwalk := none, mmiss := some (w.va / 32) })
    else s.modCoreAt w.core (fun k => { k with walk := none, missVa := some (w.va / 32) })

/-- Two misses of one 4 KiB granule, of which the later one takes the earlier one's result. -/
def Walk.joins (x w : Walk) : Bool := x.part = w.part && x.va / 4096 = w.va / 4096

/-- The walks of a die that run: the first miss of each granule, in the order of arrival, 64 at most. -/
def Die.running (d : Die) : List Walk := (d.walks.foldl (fun l w => if l.any w.joins then l else l ++ [w]) []).take 64

/-- RTLB_WALK_COMPLETE: one of the die's walks finishes, for every requester in its granule, or asks for a line of the table
that L2 does not hold (15 R267). -/
def execRtlbWalkComplete (die : Nat) (s : State) : Host.Outcome State Fault Refusal :=
  let l := (s.dieAt die).walks
  if l.isEmpty then .next s
  else
    let run := (s.dieAt die).running
    let r := s.pick run.length
    match run[r.1]? with
    | none => .next s
    | some w =>
      match r.2.walkLacks w.part w.va with
      | some line => .next (r.2.askFill (r.2.fillAt (some w.part) line none))
      | none =>
        let found := (r.2.walk w.part w.va).map (r.2.cachedOf w.part)
        let s := r.2.modDie die (fun d => { d with walks := d.walks.filter (fun x => !x.joins w) })
        .next ((l.filter (fun x => x.joins w)).foldl (fun s x => s.answerWalk found x) s)

/-! ### Reading code (03 R55 to R58) -/

/-- The place of a code byte at a VA for the prefetch engine, or the fault with its auxiliary code (15 R269) and the VA that it
shows. -/
def State.codeLoc (s : State) (hdr v : Nat) : Except (Cause × Nat × Nat) Loc :=
  let part := partOfKey s.ctx.owner
  if 13 * 2 ^ 48 ≤ v then .error (.window, 0, hdr)
  else
    match s.walk part v with
    | none => .error (.rangeMiss, 0, v)
    | some e => match s.throughEntry (s.cachedOf part e) .code s.supervisor v with | .error (c, aux) => .error (c, aux, v) | .ok l => .ok l

/-- Code bytes at some VAs, or the first fault. -/
def State.readCode (s : State) (hdr : Nat) : List (Nat × Nat) → Except (Cause × Nat × Nat) (List Byte)
  | [] => .ok []
  | (v, n) :: r =>
    match s.codeLoc hdr v with
    | .error f => .error f
    | .ok l =>
      match s.readCode hdr r with
      | .error f => .error f
      | .ok b => .ok (pvals (s.rdLoc l n) ++ b)

/-- What the read of some code waits for, up to its first fault: table lines, and the code's own lines (03 R59; 10 R216). -/
def State.codeWait (s : State) (hdr : Nat) : List (Nat × Nat) → Wait
  | [] => .ready
  | (v, _) :: r =>
    let part := partOfKey s.ctx.owner
    if 13 * 2 ^ 48 ≤ v then .ready
    else
      match s.walkLacks part v with
      | some l => .fill l none
      | none =>
        match s.codeLoc hdr v with
        | .error _ => .ready
        | .ok l => match s.locWait l (some v) with | .ready => s.codeWait hdr r | .fill l v => .fill l v | .hold => .hold

/-- What a read of code does to the directory: one through an MS range recalls (11 R229). -/
def State.recallCode (s : State) (hdr : Nat) (ps : List (Nat × Nat)) : State :=
  ps.foldl (fun s p => match s.codeLoc hdr p.1 with | .ok l => s.recallMs l | .error _ => s) s

/-- A core's prefetch engine waits: the state with the fill asked for, for the context that it works for (22 R356). -/
def State.codeFill (s : State) (w : Wait) : Option State :=
  match w with
  | .ready => none
  | .hold => some s
  | .fill line va =>
    let r := s.fillAt (some (partOfKey s.ctx.owner)) line va
    some (s.askFill { r with ctxid := ctxidOf s.ctx.owner, taskid := s.ctx.taskid.toNat,
                             core := if s.isSluice then none else some (coreNo s.cur.core) })

/-- Little-endian field of n bytes at offset o. -/
def fieldAt (b : List Byte) (o n : Nat) : Nat := leNat ((b.drop o).take n)

/-- The used wait entries of a header. -/
def waitsOf (b : List Byte) : List (Nat × Nat) :=
  ((List.range 4).map (fun i => fieldAt b (14 + 2 * i) 2)).filterMap (fun e => if e % 4096 = 0 then none else some (e / 4096, e % 4096))

def distinct : List Nat → Bool
  | [] => true
  | x :: r => !r.contains x && distinct r

def pointerOk (p : Nat) : Bool := p = 0 || (p % 64 = 0 && p < 2 ^ 52)

/-- The header of the segment at va (03 R55, R56). -/
def parseHeader (va : Nat) (b : List Byte) : Except Cause SegHdr :=
  let flags := fieldAt b 2 2
  let len := fieldAt b 4 4
  let count := fieldAt b 12 2
  let unusedOk := (List.range 4).all (fun i => let e := fieldAt b (14 + 2 * i) 2; e % 4096 ≠ 0 || e = 0)
  if 256 < count || 16384 < len then .error .segsize
  else if fieldAt b 0 1 = 0x5A && fieldAt b 1 1 = 1 && flags < 16 && 1 ≤ len && 1 ≤ fieldAt b 8 4 && 1 ≤ count
      && unusedOk && distinct ((waitsOf b).map (·.1)) && pointerOk (fieldAt b 22 8) && pointerOk (fieldAt b 30 8)
      && (b.drop 38).all (fun x => x = 0) && va % 64 = 0 then
    .ok { va, handler := flags % 2 = 1, safeEntry := flags / 2 % 2 = 1, safeExit := flags / 4 % 2 = 1, hint := flags / 8 = 1,
          len, cycles := fieldAt b 8 4, count, waits := waitsOf b, next0 := fieldAt b 22 8, next1 := fieldAt b 30 8 }
  else .error .seghdr

/-- The words of the present slots, which follow the bundle's header in slot order (03 R41). -/
def slotWords (hdr : BitVec 16) : List Nat → List Byte → List (Nat × Word)
  | [], _ => []
  | n :: r, b =>
    if present hdr n then (n, BitVec.ofNat 64 (leNat (b.take (slotBytes n)))) :: slotWords hdr r (b.drop (slotBytes n))
    else slotWords hdr r b

/-- The bundle at offset off of a body. -/
def bundleAt (b : List Byte) (off : Nat) : RawBundle :=
  let hdr := BitVec.ofNat 16 (fieldAt b off 2)
  { off, hdr, slots := slotWords hdr [0, 1, 2, 3, 4, 5, 6, 7] (b.drop (off + 2)) }

/-- The bundles of a body up to the one with LAST, and the offset at which they end; line pads are skipped (03 R42). -/
def parseBody (b : List Byte) : Nat → Nat → List RawBundle × Nat
  | 0, off => ([], off)
  | fuel + 1, off =>
    if b.length ≤ off then ([], off)
    else if fieldAt b off 2 = 0 then parseBody b fuel ((off / 64 + 1) * 64)
    else
      let x := bundleAt b off
      let next := off + bundleBytes x.hdr
      if hdrLast x.hdr then ([x], next)
      else
        let r := parseBody b fuel next
        (x :: r.1, r.2)

/-- The expansion of the segment at va, read now: header line, checks, body (03 R57). -/
def State.expand (s : State) (va : Nat) : Half :=
  let bad (c : Cause) (aux v : Nat) : Half := { va, complete := true, fault := some (c, aux, v) }
  match s.readCode va (pieces va 64 64) with
  | .error (c, aux, v) => bad c aux v
  | .ok b =>
    match parseHeader va b with
    | .error c => bad c 0 va
    | .ok h =>
      match s.readCode va (pieces (va + 64) h.len h.len) with
      | .error (c, aux, v) => bad c aux v
      | .ok body =>
        let r := parseBody body 513 0
        if r.1.length = h.count && (r.1.getLast?.map (fun x => hdrLast x.hdr)) = some true && r.2 = h.len then
          { va, complete := true, hdr := h, bundles := r.1 }
        else bad .seghdr 0 va

/-- The body's pieces of a segment whose header can be read. -/
def State.bodyPieces (s : State) (va : Nat) : List (Nat × Nat) :=
  match s.readCode va (pieces va 64 64) with
  | .error _ => []
  | .ok b => match parseHeader va b with | .error _ => [] | .ok h => pieces (va + 64) h.len h.len

/-- What the expansion of the segment at va waits for: first for its header. -/
def State.expandWait (s : State) (va : Nat) : Wait :=
  match s.codeWait va (pieces va 64 64) with
  | .ready => s.codeWait va (s.bodyPieces va)
  | .fill l v => .fill l v
  | .hold => .hold

/-! ### Which segment comes next (05 R103; 09 R195, R196) -/

/-- The expansion of a segment that a half holds. -/
def Core.holdsSeg (k : Core) (va : Nat) : Option Half :=
  if k.h0.complete && k.h0.va = va then some k.h0 else if k.h1.complete && k.h1.va = va then some k.h1 else none

/-- The same state, for context slot k of the current core. -/
def State.atSlot (s : State) (k : Nat) : State := { s with cur := { s.cur with slot := k } }

/-- The pending segment is the trap handler that the launch names (19 R328). -/
def State.startsTrap (s : State) (va : Nat) : Bool := s.ctx.frame.isSome && va = s.trapSeg

/-- The header of a pending segment as far as it can be read. -/
def State.headerOf (s : State) (va : Nat) : Option SegHdr :=
  match s.core.holdsSeg va with
  | some h => if h.fault.isSome then none else some h.hdr
  | none =>
    if s.codeWait va (pieces va 64 64) ≠ .ready then none
    else match s.readCode va (pieces va 64 64) with
    | .error _ => none
    | .ok b => match parseHeader va b with | .ok h => some h | .error _ => none

/-- The waits of a header hold. -/
def Core.met (k : Core) (waits : List (Nat × Nat)) : Bool := waits.all (fun w => w.2 ≤ (k.sem w.1).toNat)

/-- The pending segment of context slot k is eligible (09 R195). A resumption is at once (19 R329), and a trap handler never
waits (R328); a header that fails is met by its start (03 R58), and one that is still to be fetched is waited for. -/
def State.eligible (s : State) (k : Nat) : Bool :=
  let s := s.atSlot k
  match s.ctx.phase with
  | .resuming => true
  | .pending va => s.startsTrap va ||
      (match s.headerOf va with | some h => s.core.met h.waits | none => (s.core.holdsSeg va).isSome || s.codeWait va (pieces va 64 64) = .ready)
  | _ => false

/-- The headers of the core's pending segments that are not at hand are asked for. -/
def State.askHeaders (s : State) : State :=
  (List.range 8).foldl (fun (s : State) k =>
    let t := s.atSlot k
    match t.ctx.phase with
    | .pending va =>
      if (t.core.holdsSeg va).isSome then s
      else match t.codeFill (t.codeWait va (pieces va 64 64)) with | some u => { u with cur := s.cur } | none => s
    | _ => s) s

/-- The first pointer that is not zero, of one and then the return stack (05 R103). -/
def firstPtr (q : Nat) : List Nat → Nat
  | [] => q
  | r :: l => if q ≠ 0 then q else firstPtr r l

/-- The segment that follows the running one, as far as it is known (09 R196). -/
def Ctx.successor (c : Ctx) : Nat :=
  match c.act with
  | .call t => t
  | .ret => firstPtr (c.retstack.head?.getD 0) (c.retstack.drop 1)
  | .none => firstPtr (if (if c.nexted then c.sel else c.hdr.hint) then c.hdr.next1 else c.hdr.next0) c.retstack
  | .finish => 0
  | .exit => 0
  | .hdone => 0
  | .trapReturn => 0

/-- The VA that a context waits to have expanded: its pending segment, or one whose start failed and is resumed. -/
def Ctx.wanted (c : Ctx) : Option Nat :=
  match c.phase with
  | .pending va => some va
  | .resuming => if c.hdr.count = 0 then some c.hdr.va else none
  | _ => none

/-- The segment that the prefetch engine works for, with the context slot that will start it (09 R196). -/
def State.prefetch (s : State) : Option (Nat × Nat) :=
  match s.core.running with
  | none => s.core.chosen.bind (fun k => ((s.atSlot k).ctx.wanted).map (fun va => (k, va)))
  | some k =>
    let ready := (s.core.active.find? (fun h => h ≠ k && s.eligible h)).bind (fun h => ((s.atSlot h).ctx.wanted).map (fun va => (h, va)))
    match ready with
    | some (h, va) =>
      if s.core.hrun < s.core.hmax.toNat && (s.core.holdsSeg va).isNone then some (h, va)
      else if (s.atSlot k).ctx.successor = 0 then none else some (k, (s.atSlot k).ctx.successor)
    | none => if (s.atSlot k).ctx.successor = 0 then none else some (k, (s.atSlot k).ctx.successor)

/-- A half that may take an expansion: while a segment runs the one that it does not use, and otherwise the one that the segment
just ended has used (09 R196). -/
def Core.mayExpand (k : Core) (half : Bool) : Bool :=
  match k.ended with
  | none => true
  | some e => if k.running.isSome then half != e else half == e

/-- The half that holds the segment at va. -/
def Core.halfOf (k : Core) (va : Nat) : Option Bool :=
  if k.h0.complete && k.h0.va = va then some false else if k.h1.complete && k.h1.va = va then some true else none

/-- SEGMENT_EXPANSION: the prefetch engine completes the expansion of its target at va into a half, or asks for a line of it. -/
def execSegmentExpansion (half va : Nat) (s : State) : Host.Outcome State Fault Refusal :=
  match s.prefetch with
  | none => .next s
  | some (k, v) =>
    let t := s.atSlot k
    if v ≠ va || (s.core.holdsSeg va).isSome || !s.core.mayExpand (half ≠ 0) then .next s
    else
      match t.codeFill (t.expandWait va) with
      | some u => .next u
      | none =>
        let h := t.expand va
        let u := (t.recallCode va (pieces va 64 64)).recallCode va (t.bodyPieces va)
        .next (u.modCore (fun c => if half = 0 then { c with h0 := h } else { c with h1 := h }))

/-! ### The choice (09 R199, R200) -/

/-- What a start of context slot k charges: its declared count, and nothing for a resumption (19 R329). -/
def State.declared (s : State) (k : Nat) : Nat :=
  let s := s.atSlot k
  match s.ctx.phase with
  | .pending va => (s.headerOf va).elim 0 (fun h => h.cycles)
  | _ => 0

def State.setDeficit (s : State) (k : Nat) (d : Int) : State := s.modCtxAt (ctxKey s.cur.core k) (fun c => { c with deficit := d })
def State.deficit (s : State) (k : Nat) : Int := (s.ctxAt (ctxKey s.cur.core k)).deficit

/-- The refills that the loop of R200 makes before one of the contexts T has a positive deficit: as many as the context
nearest to it needs. -/
def State.refills (s : State) (l : List Nat) : Nat :=
  let need (k : Nat) : Nat := ((4096 - s.deficit k) / 4096).toNat
  if l.any (fun k => 0 < s.deficit k) then 0
  else match l with | [] => 0 | k :: r => r.foldl (fun n j => min n (need j)) (need k)

/-- drr_pick over a list of task contexts that is not empty. -/
def State.drr (s : State) (l : List Nat) : Option Nat × State :=
  let n := s.refills l
  let s := l.foldl (fun s k => s.setDeficit k (min (s.deficit k + 4096 * n) 4096)) s
  let order := (List.range 4).map (fun i => (s.core.rrp + i) % 4)
  match order.find? (fun c => l.contains c && 0 < s.deficit c) with
  | none => (none, s)
  | some c =>
    let s := s.setDeficit c (s.deficit c - s.declared c)
    (some c, s.modCore (fun k => { k with rrp := if 0 < s.deficit c then c else (c + 1) % 4 }))

/-- choose: the context whose segment starts next, none where the core is idle. A sluice has one context. -/
def State.choose (s : State) : Option Nat × State :=
  if s.isSluice then (if s.eligible 0 then some 0 else none, s)
  else
    let ts := [0, 1, 2, 3].filter s.eligible
    match s.core.active.filter s.eligible with
    | h :: _ =>
      if s.core.hrun < s.core.hmax.toNat || ts.isEmpty then (some h, s.modCore (fun k => { k with hrun := k.hrun + 1 }))
      else
        let r := s.drr ts
        (r.1, r.2.modCore (fun k => { k with hrun := 0 }))
    | [] =>
      if ts.isEmpty then (none, s)
      else
        let r := s.drr ts
        (r.1, r.2.modCore (fun k => { k with hrun := 0 }))

/-! ### SEGMENT_START -/

/-- A cycle in which the core has nothing to issue; a core that is to stop does so at once (09 R197, 14 R258). -/
def State.idle (s : State) : State :=
  s.modCore (fun k => { k with busy := s.now + 4, stopped := k.stopped || (k.stopReq && k.chosen.isNone) })

/-- The start of the segment at va fails: the context stands before it and takes the trap (03 R58). The failed expansion is
given up. -/
def State.failStart (s : State) (va : Nat) (cause : Cause) (aux shown : Nat) : State :=
  let s := s.modCore (fun k => { k with
    chosen := none, h0 := if k.h0.va = va then {} else k.h0, h1 := if k.h1.va = va then {} else k.h1 })
  let s := s.modCtx (fun c => { c with hdr := { va }, body := [], pc := 0, act := .none, sel := false, nexted := false, segStart := none })
  s.deliver { cause, aux, va := shown } va

/-- The current context starts the segment of a complete half; `again` where its waits have been taken before. A trap handler
waits until the record of its trap is in the partition's log (22 R358). -/
def State.startSeg (s : State) (h : Half) (again : Bool) : State :=
  let trap := s.startsTrap h.va
  match h.fault with
  | some (c, aux, v) => s.failStart h.va c aux v
  | none =>
    if (if trap then !h.hdr.waits.isEmpty else h.hdr.handler != s.isHandler) then s.failStart h.va .seghdr 0 h.va
    else if s.core.stopReq && h.hdr.safeEntry then s.modCore (fun k => { k with stopped := true })
    else if trap && s.dev.logq.any (fun x => x.log = some (partOfKey s.ctx.owner)) then s.idle
    else if !again && !s.core.met h.hdr.waits then s.modCore (fun k => { k with chosen := none })
    else
      let s := s.modCore (fun k =>
        let k := if again then k else { k with q := h.hdr.waits.foldl (fun q w => sset q w.1 (sget 0 q w.1 - BitVec.ofNat 16 w.2)) k.q }
        { k with running := some s.cur.slot, chosen := none, ended := (k.halfOf h.va).or k.ended })
      s.modCtx (fun c => { c with
        hdr := h.hdr, body := h.bundles, pc := 0, act := .none, sel := false, nexted := false, segStart := none,
        hold := 0, bend := false, branch := none, phase := .running })

/-- The chosen context goes on where it stopped, its interrupted MMA ahead of the matrix queue (19 R327, 07 R156). -/
def State.resumeSeg (s : State) : State :=
  let s := s.modCtx (fun c => { c with phase := .running })
  (s.modCore (fun k => { k with running := some s.cur.slot, chosen := none, ended := (k.halfOf s.ctx.hdr.va).or k.ended })).requeueMma

/-- SEGMENT_START: the sequencer of a core that runs no segment makes its selection, and starts it where a half holds it. -/
def execSegmentStart (s : State) : Host.Outcome State Fault Refusal :=
  if s.core.running.isSome || s.core.stopped || s.core.frozen then .next s
  else
    let r := match s.core.chosen with | some k => (some k, s) | none => s.askHeaders.choose
    match r.1 with
    | none => .next r.2.idle
    | some k =>
      let t := (r.2.modCore (fun c => { c with chosen := some k })).atSlot k
      match t.ctx.phase, t.ctx.wanted with
      | .resuming, none => .next (if t.restarts && !t.ctx.room (1, 0) then t.idle else t.resumeSeg)
      | .resuming, some va => (match t.core.holdsSeg va with | some h => .next (t.startSeg h true) | none => .next t.idle)
      | .pending va, _ => (match t.core.holdsSeg va with | some h => .next (t.startSeg h false) | none => .next t.idle)
      | _, _ => .next (t.modCore (fun c => { c with chosen := none }))

/-! ### TRAP_DELIVERY (19 R325) -/

/-- The current context stands at a bundle boundary. -/
def Ctx.atBoundary (c : Ctx) : Bool := c.phase = .running && c.hold = 0 && !c.bend && c.phwait.isEmpty

/-- The pending trap that comes next, the deferred ones before a fault of the context's MMA that waits with them; in trap mode
they are held (19 R329; 20 R342). -/
def Ctx.nextDeferred (c : Ctx) : Option TrapInfo :=
  if c.frame.isSome then none else (c.deferred.find? (fun t => t.deferred)).or c.deferred.head?

/-- The trap is taken from those that are pending; a fault of the MMA that is pending at this boundary waits with the others,
until the trap return (20 R342). -/
def Ctx.takeDeferred (c : Ctx) (t : TrapInfo) : Ctx := { c with deferred := c.deferred.erase t ++ c.mmaTrap.toList, mmaTrap := none }

/-- TRAP_DELIVERY: the oldest deferred trap, otherwise the fault of the context's MMA, otherwise the first failing check of
the bundle that would issue next. -/
def execTrapDelivery (s : State) : Host.Outcome State Fault Refusal :=
  if !s.ctx.atBoundary then .next s
  else
    match s.ctx.nextDeferred with
    | some t => .next ((s.modCtx (fun c => c.takeDeferred t)).trapHere t)
    | none =>
      match s.ctx.mmaTrap with
      | some t => .next ((s.modCtx (fun c => { c with mmaTrap := none })).trapHere t)
      | none =>
        match s.bundle with
        | none => .next s
        | some b => match s.bundleVerdict b with | .trap t => .next (s.trapHere t) | _ => .next s

/-! ### SEGMENT_END (05 R103; 09 R197, R198) -/

/-- The segment named by a pointer, or what a zero pointer means. -/
def Ctx.follow (c : Ctx) (handler : Bool) (q : Nat) : List Nat → Ctx
  | [] => if q ≠ 0 then { c with phase := .pending q, retstack := [] }
          else { c with retstack := [], phase := if handler then .ending else .retiring 0 0 }
  | r :: l => if q ≠ 0 then { c with phase := .pending q, retstack := r :: l } else c.follow handler r l

/-- The exit action of the segment that has ended. A poisoned s1 at EXIT gives the status of 05 R104. -/
def Ctx.leave (c : Ctx) (handler : Bool) : Ctx :=
  let p := if c.sel then c.hdr.next1 else c.hdr.next0
  match c.act with
  | .call t => { c with retstack := p :: c.retstack, phase := .pending t }
  | .ret => c.follow handler (c.retstack.head?.getD 0) (c.retstack.drop 1)
  | .finish => { c with phase := .retiring 0 0 }
  | .exit => { c with phase := if (c.sreg 1).pois then .retiring 0xFFFFFFFF 3 else .retiring ((c.sreg 1).v.setWidth 32) 0 }
  | .hdone => { c with phase := .ending }
  | .trapReturn => c.trapReturn
  | .none => c.follow handler p c.retstack

/-- A telemetry event of a partition: its kind (1 overrun, 2 RATE lowered) and what it concerns. -/
def State.telemetry (s : State) (part kind what : Nat) : State := s.modPart part (fun p => { p with telemetry := p.telemetry ++ [(kind, what)] })

/-- The segment ran past twice its declared count. -/
def State.overran (s : State) : Bool :=
  match s.ctx.segStart with
  | some t => 2 * s.ctx.hdr.cycles < s.cycles - t
  | none => false

/-- SEGMENT_END: every result of the ended segment has landed. -/
def execSegmentEnd (s : State) : Host.Outcome State Fault Refusal :=
  if s.ctx.phase ≠ .draining || !s.ctx.pend.isEmpty then .next s
  else
    let safe := s.ctx.hdr.safeExit
    let s := if s.overran then
        (s.modCore (fun k => { k with overruns := if k.overruns < 0xFFFFFFFF then k.overruns + 1 else k.overruns })).telemetry (partOfKey s.ctx.owner) 1 s.cur.core
      else s
    let s := s.modCtx (fun c => c.leave s.isHandler)
    .next (s.modCore (fun k => { k.release s.cur.slot with stopped := k.stopped || (k.stopReq && safe) }))

/-! ### The end of a task or activation (05 R104; 07 R142; 09 R204, R207) -/

/-- A free context keeps what outlives tasks and activations (00 R5, 02 R31). -/
def Ctx.freed (c : Ctx) : Ctx := { ebudget := c.ebudget, eunder := c.eunder, asyncf := c.asyncf }

/-- The waits of 05 R104 and 07 R142: no job that still runs, nothing left in the queues or in the matrix unit. -/
def State.mayLeave (s : State) : Bool :=
  let c := s.ctx
  c.jobs.all (fun j => j.2.ended) && c.ldq.isEmpty && c.stq.isEmpty && c.restart.isNone && s.core.matq.all (fun e => e.slot ≠ s.cur.slot)

/-- A key that no context has. -/
def deadKey : Nat := 2 ^ 50

/-- Answers that are on their way to the context reach nobody: those of bucket units and of replay engines. Nothing of it is
ahead of a range change any more. -/
def State.forget (s : State) (key : Nat) : State :=
  let item (i : JetItem) : JetItem := match i with
    | .read p o m t a c d sl => if c = key then .read p o m t a deadKey d sl else i
    | _ => i
  let con (c : Contribution) : Contribution := if c.ctx = key then { c with ctx := deadKey } else c
  let chg (c : RangeChange) : RangeChange :=
    { c with ahead := c.ahead.filter (fun x => x.1 ≠ key), entries := c.entries.filter (fun x => x.1 ≠ key),
             issuer := match c.issuer with | some x => if x.1 = key then some (deadKey, x.2) else some x | none => none }
  { s with
    changes := s.changes.map chg,
    basins := s.basins.map (fun e => (e.1, { e.2 with inbound := e.2.inbound.map con })),
    slices := s.slices.map (fun e =>
      (e.1, { e.2 with fifo := e.2.fifo.map (fun i => (i.1, item i.2)), run := e.2.run.map (fun r => { r with item := item r.item }) })) }

/-- What is on its way to the context is given up, and the context is free. -/
def State.freeCtx (s : State) : State :=
  let s := s.forget s.key
  let mine (d : Option DivBusy) : Option DivBusy := match d with | some x => if x.slot = s.cur.slot then none else some x | none => none
  (s.modCtx Ctx.freed).modCore (fun k => { k.release s.cur.slot with div0 := mine k.div0, div1 := mine k.div1 })

/-- The context's registrations are dropped at their phasers' next boundaries, as by PHDROP (09 R207); until then they are those
of no context, so that another task can come to its place. -/
def State.dropAll (s : State) : State :=
  (s.phasers.map (·.1)).foldl (fun t k =>
    let p := t.phaserAt k
    if (p.member s.key none).isSome || p.joining.any (fun m => m.is s.key none) then
      (t.phaserStep k (fun p => p.drop s.key)).modPhaser k (fun p => p.rename s.key deadKey)
    else t) s

/-- The record of a poisoned EXIT status (21 R348). -/
def State.exitRecord (s : State) : ErrRec :=
  { kind := 0x12, flags := 0x10, source := coreNo s.cur.core, ctxid := ctxidOf s.ctx.owner, taskid := s.ctx.taskid.toNat, reg := 1,
    phys := s.phys s.cur.core }

def State.modLaunch (s : State) (k : Nat) (f : Launch → Launch) : State := s.modFctx k (fun x => { x with launch := x.launch.map f })

/-- HANDLER_DORMANT: the activation ends, its table entry's semaphore is incremented, and the context takes the next arrival. -/
def execHandlerDormant (s : State) : Host.Outcome State Fault Refusal :=
  if s.ctx.phase ≠ .ending || !s.mayLeave then .next s
  else match s.publishWait with
  | some t => .next t
  | none =>
    let k := s.ctx.owner
    let i := s.ctx.hindex
    let c := s.cur.core
    let h := (((s.fctxAt k).launch.map (fun l => l.handlers)).getD []).getD i (0, 0)
    let s := s.publish
    let s := if h.2.getLsbD 4 then s.addSem c (h.2.toNat % 16) 1 else s
    let s := s.freeCtx.modCore (fun x => { x with active := x.active.filter (fun j => j ≠ s.cur.slot) })
    .next (s.takeArrivals c k 16)

end Sys2Proof.Machine
end

