-- ==== Sys2Proof/Machine/Launch.lean ====
section
/-! DEFINITION. Launches: the checks of a LAUNCH block and its tables (14 R250, R251; 09 R202, R205), the placement of tasks
(09 R191, R194), their dispatch (R193, R206), the completion record (14 R252, R253) and KILL. -/

namespace Sys2Proof.Machine

/-! ### Parameter blocks -/

/-- Why a command does not issue now: the cause of a failed check, or what a read of its blocks waits for. -/
inductive Stop
  | cause (c : Cause) | wait (w : Wait)
  deriving DecidableEq, Repr

/-- A check of a command that gives a cause where it fails. -/
def need (ok : Bool) (c : Cause) : Except Stop Unit := if ok then .ok () else .error (.cause c)

/-- n bytes at a VA, as the fontanier reads them, once their lines are there (10 R216; 23 R360). -/
def State.block (s : State) (part va n : Nat) : Except Stop (List Byte) :=
  match s.vaWait part .load (pieces va n n) with
  | .ready =>
    match s.readVa part .load (pieces va n n) with
    | .ok b => .ok (pvals b)
    | .error (c, _) => .error (.cause c)
  | .fill l v => .error (.wait (.fill l v))
  | .hold => .error (.wait .hold)

/-- The places of n bytes that the fontanier will write, once the table lines of their walks are there. -/
def State.places (s : State) (part va n : Nat) : Except Stop (List (Loc × Nat)) :=
  match (pieces va n n).findSome? (fun p => s.walkLacks part p.1) with
  | some l => .error (.wait (.fill l none))
  | none =>
    match s.locsVa part .store (pieces va n n) with
    | .ok l => .ok l
    | .error (c, _) => .error (.cause c)

/-- A CSEM byte: number and CSEMV (14 R245, R250). -/
def csemOf (b : Nat) : Option Nat := if b / 16 % 2 = 1 then some (b % 16) else none

/-- The fields of a LAUNCH block (14 R250). -/
def launchFields (b : List Byte) : LaunchParams :=
  { entry := fieldAt b 0 8, fx := fieldAt b 8 4, fy := fieldAt b 12 4, fz := fieldAt b 16 4, scratch := fieldAt b 20 4,
    l1g := fieldAt b 24 1, matrix := fieldAt b 25 1, team := fieldAt b 26 1, packed := fieldAt b 27 1 % 2 = 1,
    priv := fieldAt b 28 4, privb := fieldAt b 32 8, gtab := fieldAt b 40 8, gcount := fieldAt b 48 2,
    csem := fieldAt b 50 1 % 16, csemv := fieldAt b 50 1 / 16 % 2 = 1, htab := fieldAt b 56 8, trapseg := fieldAt b 64 8,
    crec := fieldAt b 72 8, skip := fieldAt b 80 8, phdie := BitVec.ofNat 64 (fieldAt b 88 8),
    phpkg := BitVec.ofNat 64 (fieldAt b 96 8), launchid := BitVec.ofNat 32 (fieldAt b 104 4) }

def LaunchParams.ntask (p : LaunchParams) : Nat := p.fx * p.fy * p.fz

/-- Field values of R250, but for the reserved ones. -/
def LaunchParams.legal (p : LaunchParams) : Bool :=
  p.entry % 64 = 0 && 1 ≤ p.fx && 1 ≤ p.fy && 1 ≤ p.fz && p.ntask ≤ 2 ^ 20
    && 64 ≤ p.scratch && p.scratch ≤ 2 ^ 21 && p.scratch % 64 = 0 && p.l1g ≤ 4 && p.matrix ≤ 4 && 1 ≤ p.team && p.team ≤ 4
    && (p.privb = 0) == (p.priv = 0) && p.gcount ≤ 256 && (p.gcount = 0) == (p.gtab = 0) && p.crec ≠ 0 && p.crec % 64 = 0

/-- S′ (09 R191). -/
def LaunchParams.slice (p : LaunchParams) : Nat := (p.scratch + 4095) / 4096 * 4096

/-- Tasks resident on a core (09 R191). -/
def LaunchParams.resident (p : LaunchParams) : Nat :=
  min (min 4 p.team) (min ((2 ^ 21 - p.l1g * 2 ^ 18) / p.slice) (if p.matrix = 0 then 4 else 4 / p.matrix))

/-! ### Placement (14 R251; 09 R194; 19 R337, R338) -/

def State.ownsCluster (s : State) (part cluster : Nat) : Bool :=
  match (s.partAt part).config with
  | some c => c.clusters.getLsbD cluster
  | none => false

/-- The active cores of the partition's clusters on the dies of a mask, in ascending order. -/
def State.launchCores (s : State) (part : Nat) (dies : BitVec 4) : List Nat :=
  (List.range 576).filter (fun c => s.ownsCluster part (c / 8) && dies.getLsbD (c / 144) && !s.dev.lost.contains c)

/-- A die of the mask on which the partition owns no cluster. -/
def State.bareDie (s : State) (part : Nat) (dies : BitVec 4) : Bool :=
  (List.range 4).any (fun d => dies.getLsbD d && !(List.range 18).any (fun c => s.ownsCluster part (18 * d + c)))

/-- Die-to-die links: i joins dies i and i + 1 of the ring, 4 + k joins the basin die of stack k to its die. -/
def State.linkUp (s : State) (l : Nat) : Bool := (sget {} s.dev.links l).st ≠ .failed
def State.routes (s : State) : List Nat := (List.range 16).filter s.linkUp

/-- The ring and the basin dies are connected by the links that are left. -/
def State.routable (s : State) : Bool :=
  ((List.range 4).filter (fun l => !s.linkUp l)).length ≤ 1 && (List.range 12).all (fun k => s.linkUp (4 + k))

/-- Phasers of the block within the partition's allotment. -/
def State.phasersAllotted (s : State) (part : Nat) (p : LaunchParams) : Bool :=
  match (s.partAt part).config with
  | some c => p.phdie &&& ~~~c.phdie = 0 && p.phpkg &&& ~~~c.phpkg = 0
  | none => false

/-! ### Group and handler tables (09 R202, R205) -/

/-- Entry i of a group table, with the number of its members and the place of their list. -/
structure RawGroup where
  flags : Nat
  count : Nat
  off : Nat
  phid : Nat
  deriving DecidableEq, Repr

def rawGroup (b : List Byte) (i : Nat) : RawGroup :=
  { flags := fieldAt b (16 * i) 4, count := fieldAt b (16 * i + 4) 4, off := fieldAt b (16 * i + 8) 4, phid := fieldAt b (16 * i + 12) 4 }

def RawGroup.valid (g : RawGroup) : Bool := g.flags % 2 = 1
def RawGroup.phdef (g : RawGroup) : Bool := g.flags / 2 % 2 = 1

def ascending : List Nat → Bool
  | [] => true
  | [_] => true
  | a :: b :: r => a < b && ascending (b :: r)

/-- One entry of a group table with its members. -/
def State.parseGroup (s : State) (part gtab n : Nat) (l : Launch) (g : RawGroup) : Except Stop Group := do
  need (g.flags < 4 && (g.phdef || g.phid = 0)) .rsvd
  if !g.valid then return { valid := false, phdef := false, phid := 0, members := [] }
  need (1 ≤ g.count && g.count ≤ 2 ^ 20 && g.off % 4 = 0 && (!g.phdef || phaserForm g.phid)) .format
  need (!g.phdef || l.allots g.phid (clusterOf (l.cores.headD 0))) .placement
  let b ← s.block part (gtab + g.off) (4 * g.count)
  let m := (List.range g.count).map (fun i => fieldAt b (4 * i) 4)
  need (ascending m && m.all (fun t => t < n)) .format
  return { valid := true, phdef := g.phdef, phid := g.phid, members := m }

/-- Groups that hold a task, in ascending order. -/
def groupsOf (gs : List Group) (t : Nat) : List Nat := (gs.zipIdx.filter (fun g => g.1.valid && g.1.members.contains t)).map (·.2)

def State.parseGroups (s : State) (part : Nat) (l : Launch) : Except Stop (List Group) := do
  let p := l.par
  if p.gcount = 0 then return []
  let b ← s.block part p.gtab (16 * p.gcount)
  let gs ← ((List.range p.gcount).map (rawGroup b)).mapM (s.parseGroup part p.gtab p.ntask l)
  need (gs.all (fun g => g.members.all (fun t => (groupsOf gs t).length ≤ 4))) .format
  return gs

/-- The handler table: segment and HCTL of its 16 entries. -/
def State.parseHandlers (s : State) (part htab : Nat) : Except Stop (List (Nat × Byte)) := do
  if htab = 0 then return []
  let b ← s.block part htab 256
  need ((List.range 16).all (fun i => fieldAt b (16 * i + 8) 1 < 32 && fieldAt b (16 * i + 9) 7 = 0)) .rsvd
  need ((List.range 16).all (fun i => pointerOk (fieldAt b (16 * i) 8))) .format
  return (List.range 16).map (fun i => (fieldAt b (16 * i) 8, BitVec.ofNat 8 (fieldAt b (16 * i + 8) 1)))

/-! ### Units and their assignment (09 R194) -/

/-- The tasks of each group that is placed as a unit. -/
def packGroups (gs : List Group) (skipped : Nat → Bool) : List (List Nat) :=
  (gs.filter (fun g => g.valid && 2 ≤ g.members.length && g.members.length ≤ 8)).map (fun g => g.members.filter (fun t => !skipped t))

/-- Groups that share a task start in one dispatch step (log 54). -/
def packUnits (sets : List (List Nat)) : List (List Nat) :=
  sets.foldl (fun us m =>
    let meets (u : List Nat) : Bool := u.any m.contains
    let joined := ((us.filter meets).flatten ++ m).eraseDups.mergeSort (· ≤ ·)
    us.filter (fun u => !meets u) ++ [joined]) []

/-- The unit that a task belongs to. -/
def Launch.unitOf (l : Launch) (t : Nat) : List Nat := ((packUnits l.packed).find? (fun u => u.contains t)).getD [t]

/-- Two tasks of one packed group, which go to distinct cores. -/
def Launch.apart (l : Launch) (a b : Nat) : Bool := a ≠ b && l.packed.any (fun m => m.contains a && m.contains b)

/-- Cores for some tasks, each the first of the list that has room left and no task of a common group. -/
def Launch.placeIn (l : Launch) (room : Nat → Nat) (cores : List Nat) (done : List (Nat × Nat)) : List Nat → Option (List (Nat × Nat))
  | [] => some done
  | t :: r =>
    match cores.find? (fun c => (done.filter (fun x => x.2 = c)).length < room c && !done.any (fun x => x.2 = c && l.apart t x.1)) with
    | none => none
    | some c => l.placeIn room cores (done ++ [(t, c)]) r

/-- Units of the tasks that are not skipped, by their lowest task. -/
def Launch.units (l : Launch) : List (List Nat) :=
  ((List.range l.ntask).filter (fun t => sget .waiting l.tasks t ≠ .skipped && (l.unitOf t).head? = some t)).map l.unitOf

/-- The cores of a launch by cluster. -/
def Launch.clusters (l : Launch) : List (List Nat) :=
  ((l.cores.map (· / 8)).eraseDups).map (fun k => l.cores.filter (fun c => c / 8 = k))

/-- The places of a unit in pass p, after which no core has more than p + 1 tasks: of a packed one in one cluster. -/
def Launch.passFor (l : Launch) (load : SMap Nat) (u : List Nat) (p : Nat) : Option (List (Nat × Nat)) :=
  let room (c : Nat) : Nat := p + 1 - sget 0 load c
  if u.length = 1 then l.placeIn room l.cores [] u else l.clusters.findSome? (fun k => l.placeIn room k [] u)

/-- The passes over the candidate cores: the core of each task that they place. -/
def Launch.assign (l : Launch) : SMap Nat :=
  (l.units.foldl (fun (a : SMap Nat × SMap Nat) u =>
    match (List.range l.nteam).findSome? (l.passFor a.2 u) with
    | none => a
    | some ps => ps.foldl (fun (a : SMap Nat × SMap Nat) x => (sset a.1 x.1 x.2, smod 0 a.2 x.2 (· + 1))) a) ([], [])).1

/-- Every packed group fits in some cluster of the launch. -/
def Launch.packable (l : Launch) : Bool := l.packed.all (fun u => l.clusters.any (fun k => u.length ≤ k.length))

/-! ### LAUNCH at its issue (14 R248, R250, R251) -/

/-- Bytes of the completion record (14 R253). -/
def recordSize (n : Nat) : Nat := 64 + ((n + 7) / 8 + 63) / 64 * 64 + (5 * n + 63) / 64 * 64

/-- The launch that a LAUNCH block at va describes. -/
def State.parseLaunch (s : State) (k va : Nat) (dies : BitVec 4) : Except Stop Launch := do
  let part := partOfKey k
  let b ← s.block part va 128
  let p := launchFields b
  need (fieldAt b 27 1 < 2 && fieldAt b 50 1 < 32 && fieldAt b 51 5 = 0 && fieldAt b 108 20 = 0) .rsvd
  need p.legal .format
  need (!s.bareDie part dies && p.resident ≠ 0 && s.phasersAllotted part p && s.routable) .placement
  let l : Launch := { par := p, dies, cores := s.launchCores part dies, nteam := p.resident, ntask := p.ntask, links := s.routes }
  let gs ← s.parseGroups part l
  let hs ← s.parseHandlers part p.htab
  let bits ← if p.skip = 0 then .ok [] else s.block part p.skip ((p.ntask + 7) / 8)
  let skip (t : Nat) : Bool := (bits.getD (t / 8) 0).getLsbD (t % 8)
  let recs ← s.places part p.crec (recordSize p.ntask)
  let l := { l with groups := gs, handlers := hs, crecLocs := recs,
                    tasks := ((List.range p.ntask).filter skip).map (fun t => (t, TaskState.skipped)),
                    packed := if p.packed then packGroups gs skip else [] }
  need l.packable .placement
  return { l with assigned := l.assign }

/-! ### The start of a launch on a die (14 R251; 02 R24; 03 R59; 09 R206) -/

/-- A member task that is registered on a phaser before it is resident stands under a key of its own. -/
def awaitedKey (k task : Nat) : Nat := 2 ^ 40 + k * 2 ^ 20 + task

/-- A core's L1 is emptied: what is dirty is written back. -/
def State.emptyL1 (s : State) (core : Nat) : State :=
  let lines := (s.coreAt core).l1
  let s := lines.foldl (fun s e =>
    if e.1 % 2 = 1 then s.writeNc core (e.1 / 2)
    else
      let s := s.writeBack (e.1 / 2) core
      if e.2.st = .exclusive || e.2.st = .modified then s.freeDir (e.1 / 2) else s) s
  s.modCoreAt core (fun k => { k with l1 := [] })

/-- What the emptying of a core's L1 waits for: the home lines of what it writes back (11 R228). -/
def State.emptyWait (s : State) (core : Nat) : Wait := firstWait ((s.coreAt core).l1.map (fun e => s.evictWait core e.1))

/-- What is on its way to a context or waits for it at a home is given up, and the context becomes what f makes of it. -/
def State.dropCtx (s : State) (key : Nat) (f : Ctx → Ctx) : State :=
  let s := s.forget key
  let s := s.modMem (fun m => { m with homeops := m.homeops.filter (fun o => o.ctx ≠ key) })
  let drop (x : Slice) : Slice := { x with msgs := x.msgs.filter (fun m => m.1 ≠ key) }
  let s : State := { s with calls := s.calls.filter (fun c => c.ctx ≠ key), slices := s.slices.map (fun e => (e.1, drop e.2)) }
  s.modCtxAt key f

/-- A context of the launch is discarded: nothing of it performs any more. -/
def State.discardCtx (s : State) (key : Nat) : State := s.dropCtx key Ctx.freed

/-- A core of the launch has nothing of it left. -/
def Core.discard (k : Core) : Core :=
  { k with running := none, chosen := none, active := [], inq := [], matq := [], mat := {}, div0 := none, div1 := none,
           walk := none, mwalk := none, missVa := none, mmiss := none }

/-- Every context of a core is given up in one way. -/
def State.dropCore (s : State) (core : Nat) (f : State → Nat → State) : State :=
  let s := (List.range 8).foldl (fun s j => f s (ctxKey core j)) s
  (s.modCoreAt core Core.discard).modDie (dieOf core) (fun d => { d with walks := d.walks.filter (fun w => w.core ≠ core) })

def State.discardCore (s : State) (core : Nat) : State := s.dropCore core State.discardCtx

def dropRangeOf {α : Type} (m : SMap α) (lo n : Nat) : SMap α := m.filter (fun e => e.1 < lo || lo + n ≤ e.1)

/-- The slice of n bytes at a core offset takes the image, the rest of it zero, every line empty. -/
def Mem.writeSlice (m : Mem) (core off n : Nat) (image : List Byte) : Mem :=
  let a := spadAddr core off
  { m with
    bytes := msets (dropRangeOf m.bytes a n) a (image.take n),
    pois := dropRangeOf m.pois (a / 32) (n / 32),
    full := dropRangeOf m.full ((core * 2 ^ 21 + off) / 128) ((n + 127) / 128) }

/-- A gated bank is cleared as it wakes, its lines empty (10 R218). -/
def State.wakeBank (s : State) (core bank : Nat) : State :=
  (s.modMem (fun m => m.writeSlice core (bank * 2 ^ 18) (2 ^ 18) [])).modCoreAt core (fun k => { k with gated := setBit k.gated bank false })

/-- The banks of a core that the slices of a launch use wake, and the others, whole and no L1's, are gated or left as they are,
which is a free choice of the fontanier (10 R218). -/
def State.gateBanks (s : State) (core used l1g : Nat) : State :=
  let spare := (List.range 8).filter (fun b => used ≤ b * 2 ^ 18 && b + l1g < 8)
  let s := ((List.range 8).filter (fun b => !spare.contains b && (s.coreAt core).gated.getLsbD b)).foldl (fun s b => s.wakeBank core b) s
  let r := s.pick 2
  r.2.modCoreAt core (fun k => { k with gated := if r.1 = 1 then spare.foldl (fun g b => setBit g b true) k.gated else k.gated })

/-- A core of the launch of context k is made ready for its tasks, of n slices. Tasks that a lost link has left frozen on it are
gone. -/
def State.readyCore (s : State) (k core l1g n : Nat) : State :=
  (((s.discardCore core).emptyL1 core).gateBanks core n l1g).modCoreAt core (fun c => { c with
    h0 := {}, h1 := {}, ended := none, q := [], qstat := 0, qinc := [], rrp := 0, hrun := 0, l1gran := l1g, chosen := none,
    resident := some k })

/-- Keys of the phasers that are allotted to a launch, at the core numbers from base. -/
def Launch.phaserKeys (l : Launch) (base : Nat) : List Nat :=
  let cl := ((l.cores.map (· / 8)).eraseDups).flatMap (fun c => (List.range 64).map (fun i => c * 64 + i))
  let dies := ((List.range 4).filter (fun d => l.dies.getLsbD d)).flatMap (fun d =>
    ((List.range 256).filter (fun i => l.par.phdie.getLsbD (i / 4))).map (fun i => 8192 + d * 256 + i))
  let pkg := ((List.range 64).filter (fun i => l.par.phpkg.getLsbD i)).map (fun i => 16384 + i)
  (cl ++ dies ++ pkg).map (fun i => base * 4 + i)

/-- At the start of the launch its phasers are reset, and the members of groups with PHDEF are registered (09 R206). -/
def State.startPhasers (s : State) (k base : Nat) (l : Launch) : State :=
  let s := { s with phasers := (l.phaserKeys base).foldl sdel s.phasers }
  let own := clusterOf (l.cores.headD 0)
  (l.groups.filter (fun g => g.valid && g.phdef)).foldl (fun s g =>
    let m := (g.members.filter (fun t => sget .waiting l.tasks t ≠ .skipped)).map (fun t =>
      ({ ctx := awaitedKey k t, job := none, mode := .signalWait, signalled := false } : Member))
    s.modPhaser (base * 4 + phaserKey g.phid own) (fun p => m.foldl Phaser.register p)) s

/-- What the delivery of context k's LAUNCH to a die waits for. -/
def State.launchWait (s : State) (k die : Nat) : Wait :=
  match (s.fctxAt k).launch with
  | none => .ready
  | some l => firstWait ((l.cores.filter (fun c => c / 144 = die)).map (fun c => s.emptyWait (s.baseOf k + c)))

/-- The LAUNCH of context k is delivered to a die. -/
def State.deliverLaunch (s : State) (k die : Nat) : State :=
  match (s.fctxAt k).launch with
  | none => s
  | some l =>
    let base := s.baseOf k
    let s := if l.delivered = 0 then s.startPhasers k base l else s
    let s := (l.cores.filter (fun c => c / 144 = die)).foldl (fun s c => s.readyCore k (base + c) l.par.l1g (l.nteam * l.par.slice)) s
    s.modLaunch k (fun l => { l with delivered := setBit l.delivered die true })

/-! ### TASK_DISPATCH (09 R193, R194) -/

/-- GROUPS of a task (02 R31). -/
def groupsWord (ids : List Nat) : BitVec 36 :=
  ids.zipIdx.foldl (fun w e => w ||| BitVec.ofNat 36 (e.1 * 2 ^ (8 * e.2) + 2 ^ (32 + e.2))) 0

/-- The context of task t, dispatched to slot j (02 R27, 09 R193); what is context-lived stays. -/
def taskCtx (k t j : Nat) (l : Launch) (old : Ctx) : Ctx :=
  let p := l.par
  { old.freed with
    taskid := BitVec.ofNat 20 t,
    coord := BitVec.ofNat 60 (t % p.fx + t / p.fx % p.fy * 2 ^ 20 + t / (p.fx * p.fy) * 2 ^ 40),
    team := BitVec.ofNat 5 (l.nteam * 4 + j), groups := groupsWord (groupsOf l.groups t), launchid := p.launchid,
    owner := k, matrixShare := p.matrix, sliceBase := j * p.slice, sliceSize := p.scratch, privBase := p.privb, privSize := p.priv,
    phase := .pending p.entry }

/-- A member registered under one key is registered under another. -/
def State.renameMember (s : State) (old new : Nat) : State :=
  { s with phasers := s.phasers.map (fun e => (e.1, e.2.rename old new)) }

/-- Lowest task slot of a core that is free. -/
def State.freeSlot (s : State) (core n : Nat) : Option Nat := (List.range n).find? (fun j => (s.ctxAt (ctxKey core j)).phase = .free)

/-- Task t of context k starts on a core: its slice, its context, its registrations and the increments held for it. -/
def State.dispatch (s : State) (k t core : Nat) : State :=
  match (s.fctxAt k).launch with
  | none => s
  | some l =>
    match s.freeSlot core l.nteam with
    | none => s
    | some j =>
      let key := ctxKey core j
      let s := s.modMem (fun m => m.writeSlice core (j * l.par.slice) l.par.scratch (s.fctxAt k).image)
      let s := (s.modCtxAt key (taskCtx k t j l)).renameMember (awaitedKey k t) key
      let s := s.modLaunch k (fun l => { l with
        tasks := sset l.tasks t (.resident core j), held := l.held.filter (fun h => h.task ≠ t) })
      (l.held.filter (fun h => h.task = t)).foldl (fun s h => s.addSem core h.sem h.count) s

/-- Tasks of a launch that have not started. -/
def Launch.waiting (l : Launch) (t : Nat) : Bool := t < l.ntask && sget .waiting l.tasks t = .waiting

/-- Free task contexts of a core that no assigned task is to have. -/
def State.spareSlots (s : State) (l : Launch) (core : Nat) : Nat :=
  ((List.range l.nteam).filter (fun j => (s.ctxAt (ctxKey core j)).phase = .free)).length
    - (l.assigned.filter (fun a => a.2 = core && l.waiting a.1)).length

/-- The places that a unit which waits would take for core c: on c, and for a packed one on others of its cluster. -/
def State.fitAt (s : State) (l : Launch) (u : List Nat) (c : Nat) : Option (List (Nat × Nat)) :=
  if s.spareSlots l c = 0 then none
  else l.placeIn (s.spareSlots l) (c :: l.cores.filter (fun d => d ≠ c && d / 8 = c / 8)) [] u

/-- The unit that core c takes next: the lowest-indexed waiting one that fits there. -/
def State.nextUnit (s : State) (l : Launch) (c : Nat) : Option (List Nat × List (Nat × Nat)) :=
  l.units.findSome? (fun u =>
    if u.any (fun t => !l.waiting t || (sget? l.assigned t).isSome) then none
    else (s.fitAt l u c).map (fun places => (u, places)))

/-- A unit that the passes have placed waits for a lower-indexed one of one of its cores that has not started. -/
def Launch.behind (l : Launch) (u : List Nat) : Bool :=
  let cores := u.filterMap (sget? l.assigned)
  l.assigned.any (fun a => l.waiting a.1 && (l.unitOf a.1).headD 0 < u.headD 0 && cores.contains a.2)

/-- Context k is resident and its partition's cores run. -/
def State.inPlace (s : State) (k : Nat) : Bool :=
  let p := s.partAt (partOfKey k)
  p.resident = some k && p.swapping.isNone && p.expired.isNone

/-- TASK_DISPATCH: the unit of a waiting task starts, on the cores that the passes gave it or on cores that have room. -/
def execTaskDispatch (k task : Nat) (s : State) : Host.Outcome State Fault Refusal :=
  match (s.fctxAt k).launch with
  | none => .next s
  | some l =>
    if !s.inPlace k || !l.waiting task || l.ending.isSome then .next s
    else
      let u := l.unitOf task
      let go (ps : List (Nat × Nat)) : State :=
        if ps.all (fun x => l.delivered.getLsbD (x.2 / 144)) then ps.foldl (fun s x => s.dispatch k x.1 x.2) s else s
      match sget? l.assigned task with
      | some _ => if l.behind u then .next s else .next (go (u.map (fun t => (t, sget 0 l.assigned t))))
      | none =>
        match (l.cores.filter (fun c => l.delivered.getLsbD (c / 144))).findSome? (fun c =>
            match s.nextUnit l c with | some r => if r.1 = u then some r.2 else none | none => none) with
        | some places => .next (go places)
        | none => .next s

/-! ### Sluices (14 R245; 09 R209) -/

/-- The core number of a die's sluice for context k. -/
def State.sluiceCore (s : State) (k die : Nat) : Nat := s.baseOf k + 576 + die

/-- The next delivered program of context k starts on a die's sluice that is free, with its loop buffer cleared (03 R59). -/
def State.startSluice (s : State) (k die : Nat) : State :=
  let f := s.fctxAt k
  let key := ctxKey (s.sluiceCore k die) 0
  if (s.ctxAt key).phase ≠ .free then s
  else
    match f.sluiceCmds.find? (fun c => c.waiting.getLsbD die && c.arrived.getLsbD die) with
    | none => s
    | some c =>
      let l := ((f.launch.map (fun l => l.par.launchid)).getD 0)
      (s.modCtxAt key (fun x => { x.freed with owner := k, sluice := true, launchid := l, phase := .pending c.va })).modCoreAt
        (s.sluiceCore k die) (fun x => { x with h0 := {}, h1 := {}, ended := none })

def State.deliverSluice (s : State) (k die num : Nat) : State :=
  (s.modFctx k (fun f => { f with sluiceCmds := f.sluiceCmds.map (fun c =>
    if c.num = num then { c with arrived := setBit c.arrived die true } else c) })).startSluice k die

/-- The program that runs on a die's sluice retires. -/
def State.retireSluice (s : State) (k die : Nat) : State :=
  match (s.fctxAt k).sluiceCmds.find? (fun c => c.waiting.getLsbD die && c.arrived.getLsbD die) with
  | none => s
  | some c =>
    (s.modFctx k (fun f => { f with sluiceCmds := f.sluiceCmds.map (fun x =>
      if x.num = c.num then { x with waiting := setBit x.waiting die false } else x) })).startSluice k die

/-! ### TASK_RETIRE (05 R104; 09 R204, R207) -/

/-- TASK_RETIRE: the task leaves its core with its status; a sluice program leaves its sluice. -/
def execTaskRetire (s : State) : Host.Outcome State Fault Refusal :=
  match s.ctx.phase with
  | .retiring status disp =>
    if !s.mayLeave then .next s
    else match s.publishWait with
    | some t => .next t
    | none =>
      let k := s.ctx.owner
      let t := s.ctx.taskid.toNat
      let s := s.publish
      if s.isSluice then .next (s.freeCtx.retireSluice k (dieOf s.cur.core))
      else
        let s := if disp = 3 then s.record (some (partOfKey k)) s.exitRecord else s
        .next (s.dropAll.freeCtx.modLaunch k (fun l =>
          { l with tasks := sset l.tasks t (.retired status disp), held := l.held.filter (fun h => h.task ≠ t) }))
  | _ => .next s

/-! ### The completion record (14 R252, R253) -/

/-- STATUS and DISP of a task. -/
def TaskState.result : TaskState → Word32 × Byte
  | .retired st d => (st, d)
  | .skipped => (0xFFFFFFFE, 1)
  | .waiting => (0xFFFFFFFD, 2)
  | .resident _ _ => (0xFFFFFFFD, 2)

/-- Retired or skipped. -/
def TaskState.done : TaskState → Bool
  | .retired _ _ => true
  | .skipped => true
  | .waiting => false
  | .resident _ _ => false

def Launch.state (l : Launch) (t : Nat) : TaskState := sget .waiting l.tasks t
def Launch.nret (l : Launch) : Nat := (l.tasks.filter (fun t => t.2.done)).length

def padTo (n : Nat) (b : List Byte) : List Byte := b ++ List.replicate ((n - b.length % n) % n) 0

/-- The bytes of RETIRED: bit t for task t. -/
def Launch.retiredBytes (l : Launch) : List Byte :=
  (List.range ((l.ntask + 7) / 8)).map (fun i =>
    (List.range 8).foldl (fun (b : Byte) j => setBit b j (8 * i + j < l.ntask && (l.state (8 * i + j)).done)) 0)

def Launch.record (l : Launch) (now : Nat) : List Byte :=
  let r := (List.range l.ntask).map (fun t => (l.state t).result)
  leBytes l.par.launchid.toNat 4 ++ [l.ending.getD 0] ++ leBytes 0 3 ++ leBytes l.ntask 4 ++ leBytes l.nret 4 ++ leBytes now 8
    ++ leBytes 0 40 ++ padTo 64 l.retiredBytes ++ padTo 64 (r.flatMap (fun x => leBytes x.1.toNat 4) ++ r.map (·.2))

/-! ### Completion and signalling (14 R249) -/

/-- The increments of a semaphore in the ns at time t (14 R246). -/
def FCtx.incsOf (f : FCtx) (t n : Nat) : Nat := match sget? f.csinc n with | some (u, c) => if u = t then c else 0 | none => 0

/-- A semaphore of a context gains n, saturating. -/
def State.addCsem (s : State) (k n count : Nat) : State :=
  s.modFctx k (fun f => { f with
    csem := smod 0 f.csem n (fun x => satAdd x count), csinc := sset f.csinc n (s.ptime, f.incsOf s.ptime n + count) })

/-- The host's value of a semaphore is stored first, and increments of the same ns are added to it (14 R246). -/
def FCtx.storeCsem (f : FCtx) (t n : Nat) (v : Word32) : FCtx := { f with csem := sset f.csem n (satAdd v (f.incsOf t n)) }

def State.signalCsem (s : State) (k : Nat) (n : Option Nat) : State := match n with | some i => s.addCsem k i 1 | none => s

/-- The bytes can be written: no place of them waits for the PCIe link. -/
def State.canWrite (s : State) (l : List (Loc × Nat)) : Bool := l.all (fun p => !s.locBusy p.1)

/-- The handler contexts of a core are dormant and its queue is empty. -/
def State.quietCore (s : State) (core : Nat) : Bool :=
  (s.coreAt core).inq.isEmpty && (s.coreAt core).active.isEmpty &&
    [4, 5, 6, 7].all (fun j => (s.ctxAt (ctxKey core j)).phase = .free)

/-- Every task, activation and sluice program of the launch has ended (14 R252). -/
def State.launchDone (s : State) (k : Nat) (l : Launch) : Bool :=
  l.delivered = l.dies && l.nret = l.ntask && l.cores.all (fun c => s.quietCore (s.baseOf k + c)) &&
    (s.fctxAt k).sluiceCmds.all (fun c => c.waiting = 0)

/-- LAUNCH_COMPLETE: the record is written through the translations of its issue, and then CSEM is incremented. -/
def execLaunchComplete (k : Nat) (s : State) : Host.Outcome State Fault Refusal :=
  match (s.fctxAt k).launch with
  | none => .next s
  | some l =>
    if !(l.ending.isSome || s.launchDone k l) || !s.canWrite l.crecLocs then .next s
    else
      let s := s.wrPieces l.crecLocs (clean (l.record s.ptime))
      let s := s.modFctx k (fun f => { f with launch := none })
      .next (s.signalCsem k (if l.par.csemv then some l.par.csem else none))

/-- SLUICE_COMPLETE: every named sluice has retired the program of the oldest SLUICE command. -/
def execSluiceComplete (k : Nat) (s : State) : Host.Outcome State Fault Refusal :=
  match (s.fctxAt k).sluiceCmds.find? (fun c => c.waiting = 0) with
  | none => .next s
  | some c => .next ((s.modFctx k (fun f => { f with sluiceCmds := f.sluiceCmds.filter (fun x => x.num ≠ c.num) })).signalCsem k c.csem)

/-! ### The end of a launch by KILL or link loss (14 R253; 19 R338) -/

/-- A write that a lost link has cut: its request had crossed, and its target sectors are poisoned, or it does not take place at
all; which of its writes have crossed is free (19 R338, log 55). -/
def State.cutWrite (s : State) (e : QEntry) : State :=
  let writes : Bool := match e.op with
    | .store _ _ _ _ => true
    | .mmst _ => true
    | _ => false
  if !writes || e.locs.all (fun p => p.1.space = .host || p.1.space = .remote) then s
  else
    let r := s.pick 2
    if r.1 = 0 then r.2
    else e.locs.foldl (fun s p =>
      let l : Loc := { p.1 with pa := p.1.pa / 32 * 32 }
      s.wrLoc l ((s.rdLoc l 32).map (fun y => (y.1, true)))) r.2

/-- A context of a launch that has lost a link is frozen as it stands, not killed; its jobs are aborted (19 R338). -/
def State.freezeCtx (s : State) (key : Nat) : State :=
  let c := s.ctxAt key
  if c.phase = .free then s
  else (c.stq.foldl State.cutWrite s).dropCtx key (fun c => { c.park with jobs := [], ldq := [], stq := [], phwait := [], engwaits := [], rowaits := [] })

/-- The launch of context k ends with a STATE for its record: tasks and activations are discarded without retiring, or where a link
has been lost, frozen. -/
def State.endLaunch (s : State) (k : Nat) (code : Byte) : State :=
  match (s.fctxAt k).launch with
  | none => s
  | some l =>
    let base := s.baseOf k
    let s := l.cores.foldl (fun (s : State) c => s.dropCore (base + c) (if code = 1 then State.freezeCtx else State.discardCtx)) s
    let s := [576, 577, 578, 579].foldl (fun (s : State) c => s.discardCore (base + c)) s
    let late (d : Delivery) : Bool := d.k = k && (d.kind = 1 || d.kind = 4)
    let s : State := { s with
      phasers := if code = 1 then s.phasers else (l.phaserKeys base).foldl sdel s.phasers, deliveries := s.deliveries.filter (fun d => !late d) }
    let s := s.modFctx k (fun f => { f with sluiceCmds := [] })
    s.modLaunch k (fun l => { l with ending := some code, held := [], tasks := l.tasks.filter (fun t => t.2.done) })

end Sys2Proof.Machine
end

