-- ==== Sys2Proof/Machine/Buckets.lean ====
section
/-! DEFINITION. Bucket sets: shape records (16 R284), the checks of BKCFG, BASIN and ROUND blocks (R286, R287, R298, R303),
contributions (R288 to R291), and the rows of a basin die (R283). -/

namespace Sys2Proof.Machine

/-! ### Rows (16 R283) -/

/-- A place of a basin die's stack, as an agent on that die reaches it: window 001, uncached. -/
def rowLoc (stack row : Nat) : Loc := { space := .ms, pa := paOf 1 stack (256 * row) }

def State.rdRow (s : State) (stack row : Nat) : List PByte := s.rdLoc (rowLoc stack row) 128 ++ s.rdLoc ((rowLoc stack row).plus 128) 128

/-- Bytes from byte off of a row on, within the row. -/
def State.wrRow (s : State) (stack row off : Nat) (b : List PByte) : State :=
  let first := b.take (128 - off)
  let s := if first.isEmpty then s else s.wrLoc ((rowLoc stack row).plus off) first
  let rest := b.drop first.length
  if rest.isEmpty then s else s.wrLoc ((rowLoc stack row).plus (off + first.length)) rest

/-- Bytes from the start of a row on, over as many rows as they fill. -/
def State.wrRows (s : State) (stack row : Nat) (b : List PByte) : State :=
  (List.range ((b.length + 255) / 256)).foldl (fun s i => s.wrRow stack (row + i) 0 ((b.drop (256 * i)).take 256)) s

/-- Elements per row of a layout. -/
def perRow (layout : Nat) : Nat := match layout with | 0x0101 => 64 | 0x0102 => 128 | _ => 256

/-! ### Shape records (16 R284) -/

/-- A record with whether its magic and version are right. -/
def State.shapeAt (s : State) (part va : Nat) : Except Stop (Bool × Shape) :=
  (s.block part va 64).map (fun b =>
    (fieldAt b 0 1 = 0xB5 && fieldAt b 1 1 = 1,
     { layout := fieldAt b 2 2, stack := fieldAt b 4 1, etype := fieldAt b 5 1, elems := fieldAt b 8 8, row0 := fieldAt b 16 4,
       rows := fieldAt b 20 4, va := fieldAt b 24 8 }))

def noShape : Shape := { layout := 0, stack := 0, etype := 0, elems := 0, row0 := 0, rows := 0, va := 0 }

/-- The basin row window of a partition on a stack: base row and row count (16 R299). -/
def State.rowWindow (s : State) (part stack : Nat) : Nat × Nat :=
  match (s.partAt part).config with
  | some c => c.rowwin.getD stack (0, 0)
  | none => (0, 0)

def State.inWindow (s : State) (part stack row n : Nat) : Bool :=
  let w := s.rowWindow part stack
  w.1 ≤ row && row + n ≤ w.1 + w.2

/-! ### BKCFG (16 R286, R287) -/

/-- A bucket set from its block, its shapes aside. -/
def setFields (part : Nat) (b : List Byte) : BucketSet :=
  let mode := fieldAt b 3 1
  { part, mode := mode % 4, wcrne := mode / 8 % 2 = 1, policy1 := mode / 16 % 2 = 1, fwd := mode / 32 % 2 = 1,
    elems := fieldAt b 4 4, seglog2 := fieldAt b 8 1, thresh := fieldAt b 9 1, expect := fieldAt b 10 2,
    seed := BitVec.ofNat 32 (fieldAt b 12 4), bucket := noShape, m1 := noShape, m2 := noShape, master := noShape, wc := noShape,
    ws := none, stage := none, wcvsh := 0, hpva := fieldAt b 72 8, prog := fieldAt b 80 1, wcfmt := fieldAt b 81 1,
    round := fieldAt b 82 1, agpkg := (List.range 4).map (fun i => fieldAt b (84 + i) 1),
    budget := (let n := fieldAt b 88 4; if n = 0 then 2 ^ 32 - 1 else n), fwdhandle := fieldAt b 92 2, fwdpkg := fieldAt b 94 1 }

def BucketSet.segsize (x : BucketSet) : Nat := 2 ^ x.seglog2
def BucketSet.segcount (x : BucketSet) : Nat := (x.elems + x.segsize - 1) / x.segsize
/-- G ÷ 64: rows of a segment. -/
def BucketSet.segrows (x : BucketSet) : Nat := x.segsize / 64

def zeroBytes (b : List Byte) (o n : Nat) : Bool := fieldAt b o n = 0

/-- A set that only forwards (R286). -/
def fwdForm (b : List Byte) : Bool :=
  fieldAt b 3 1 = 32 && zeroBytes b 4 6 && zeroBytes b 12 80 && 1 ≤ fieldAt b 10 2 && fieldAt b 10 2 ≤ 4096

/-- Field limits of a set that is neither released nor forwarded; a record that it needs is not at VA 0 (18 R320). -/
def setForm (x : BucketSet) (b : List Byte) : Bool :=
  x.mode < 3 && 1 ≤ x.elems && x.elems ≤ 2 ^ 28 && 6 ≤ x.seglog2 && x.seglog2 ≤ 16 && x.thresh ≤ 32 && 1 ≤ x.expect && x.expect ≤ 4096
    && (x.mode = 0) == zeroBytes b 64 8 && [16, 24, 32, 40, 48].all (fun o => !zeroBytes b o 8) && x.hpva % 64 = 0 && 1 ≤ x.prog && x.wcfmt ≤ 2 && (x.wcfmt = 0) == zeroBytes b 56 8

/-- The records of a set are of the kinds that R287 asks for, and the program declares them. -/
def BucketSet.layoutsOk (x : BucketSet) (p : Option BasinProg) : Bool :=
  let is (r : Shape) (l e : Nat) : Bool := r.layout = l && r.etype = e
  let f (r : Shape) : Bool := is r 0x0101 0
  let ws (o : Option Shape) (g : Shape → Bool) : Bool := match o with | some r => g r | none => true
  f x.bucket && f x.m1 && f x.m2 && f x.master && ws x.stage f && ws x.ws (fun r => is r 0x0104 4)
    && (if x.wcfmt = 0 then is x.wc 0x0102 1 else is x.wc 0x0103 (x.wcfmt + 1))
    && (match p with
        | some q => q.layouts = [0x0101, 0x0101, 0x0101, 0x0101, x.wc.layout, (x.ws.map (·.layout)).getD 0]
        | none => true)

/-- The conditions on the records' places (R287, step 5). -/
def State.setPlaces (s : State) (x : BucketSet) (stack : Nat) (range : Option RangeEntry) (loaded : Bool) : Bool :=
  let tensors := [x.bucket, x.m1, x.m2, x.master, x.wc] ++ x.ws.toList
  let all := tensors ++ x.stage.toList
  all.all (fun r => r.stack = stack && r.row0 % 64 = 0 && r.rows = (r.elems + perRow r.layout - 1) / perRow r.layout
      && s.inWindow x.part stack r.row0 r.rows)
    && tensors.all (fun r => r.elems = x.elems)
    && (match x.stage with | some r => x.segrows ≤ r.rows | none => true)
    && (match range with
        | some e => e.vers && 14 ≤ e.vsh && s.inWindow x.part stack (x.wc.row0 + 2 ^ e.vsh / 256) x.wc.rows
        | none => false)
    && loaded

/-- What a BKCFG block asks for: the release of a handle, or a set. -/
def State.parseBkcfg (s : State) (part va die : Nat) : Except Stop Payload := do
  let b ← s.block part va 128
  let h := fieldAt b 0 2
  let stack := fieldAt b 2 1
  let mode := fieldAt b 3 1
  need (h < 4096 && mode < 64 && fieldAt b 83 1 = 0 && zeroBytes b 95 33) .rsvd
  need (1 ≤ h && stack ≤ 11 && stackDie stack = die) .format
  let old := sget? (s.basinAt stack).sets (setKey part h)
  if mode / 4 % 2 = 1 then
    let busy := match old with | some x => x.segs.any (fun g => g.2.cnt ≠ 0) | none => true
    need (mode = 4 && zeroBytes b 4 124 && !busy) .format
    return .bkrelease stack (setKey part h)
  need ((s.findSet part h).isNone) .format
  let x := setFields part b
  if x.fwd then
    need (fwdForm b) .format
    return .bkcfg stack (setKey part h) x
  need (setForm x b) .format
  let (k1, r1) ← s.shapeAt part (fieldAt b 16 8)
  let (k2, r2) ← s.shapeAt part (fieldAt b 24 8)
  let (k3, r3) ← s.shapeAt part (fieldAt b 32 8)
  let (k4, r4) ← s.shapeAt part (fieldAt b 40 8)
  let (k5, r5) ← s.shapeAt part (fieldAt b 48 8)
  let (k6, r6) ← (if x.wcfmt = 0 then .ok (true, none) else (s.shapeAt part (fieldAt b 56 8)).map (fun r => (r.1, some r.2)))
  let (k7, r7) ← (if x.mode = 0 then .ok (true, none) else (s.shapeAt part (fieldAt b 64 8)).map (fun r => (r.1, some r.2)))
  need (k1 && k2 && k3 && k4 && k5 && k6 && k7) .format
  let range := s.walk part r5.va
  let x := { x with
    bucket := r1, m1 := r2, m2 := r3, master := r4, wc := r5, ws := r6, stage := r7,
    wcvsh := (range.map (·.vsh)).getD 0, pool := (r7.map (fun r => r.rows / x.segrows)).getD 0 }
  let prog := sget? (s.basinAt stack).progs (part * 256 + x.prog)
  need (x.layoutsOk prog) .layout
  need (s.setPlaces x stack range prog.isSome) .format
  return .bkcfg stack (setKey part h) x

/-! ### BASIN (16 R293, R294, R298) -/

/-- Ports of each unit: which of x, y, t and r it has (R296). -/
def unitPorts : List (Bool × Bool × Bool × Bool) :=
  [(true, false, true, true), (true, false, true, true), (true, true, true, true), (true, false, true, true), (true, false, true, true),
   (false, false, true, true), (true, true, true, true), (true, false, true, true), (false, false, true, true), (false, false, true, true)] ++
  [(true, false, true, true), (true, true, true, true), (false, true, true, true), (true, false, false, true), (false, false, true, true),
   (false, false, true, true), (true, true, true, false), (false, true, true, true), (false, false, true, false)]

/-- An assigned port used in its direction. -/
def portOk (p : Nat) (dest : Bool) : Bool :=
  if p < 0x50 then true
  else if p < 0x60 then false
  else if p < 0x80 then !dest
  else
    match unitPorts[(p - 0x80) / 4]? with
    | none => false
    | some u =>
      match (p - 0x80) % 4 with
      | 0 => dest && u.1
      | 1 => dest && u.2.1
      | 2 => dest && u.2.2.1
      | _ => !dest && u.2.2.2

/-- A move of an instruction word: source, destination, guard. -/
structure PortMove where
  src : Nat
  dst : Nat
  guard : Nat
  deriving DecidableEq, Repr

/-- Move i of a word; none for the null move. -/
def moveOf (w : Word) (i : Nat) : Option PortMove :=
  let m := w.toNat / 2 ^ (20 * i) % 2 ^ 20
  if m = 0xFFFFC then none else some { src := m / 2 ^ 11, dst := m / 4 % 512, guard := m % 4 }

def movesOf (w : Word) : List PortMove := [0, 1, 2].filterMap (moveOf w)
def controlOf (w : Word) : Nat := w.toNat / 2 ^ 60

/-- A word that the BASIN command accepts. -/
def wordOk (w : Word) : Bool := controlOf w < 3 && (movesOf w).all (fun m => portOk m.src false && portOk m.dst true)

def layoutIds : List Nat := [0x0000, 0x0101, 0x0102, 0x0103, 0x0104]

def State.parseBasin (s : State) (part va die : Nat) : Except Stop Payload := do
  let b ← s.block part va 64
  let prog := fieldAt b 0 1
  let stack := fieldAt b 1 1
  let n := fieldAt b 2 2
  let code := fieldAt b 8 8
  let lay := (List.range 6).map (fun i => fieldAt b (16 + 2 * i) 2)
  let key := part * 256 + prog
  need (zeroBytes b 4 4 && zeroBytes b 28 36) .rsvd
  need (1 ≤ prog && stack ≤ 11 && stackDie stack = die && 1 ≤ n && n ≤ 1024 && code % 8 = 0) .format
  let bd := s.basinAt stack
  let others := (bd.progs.filter (fun p => p.1 ≠ key)).foldl (fun a p => a + p.2.words.length) 0
  need (others + n ≤ 4096) .format
  need (!((sget? bd.progs key).isSome && bd.sets.any (fun x => x.2.part = part && x.2.prog = prog))) .format
  need (lay.all layoutIds.contains) .layout
  let c ← s.block part code (8 * n)
  let words := (List.range n).map (fun i => BitVec.ofNat 64 (fieldAt c (8 * i) 8))
  need (words.all wordOk) .format
  return .basin stack key { words, layouts := lay }

/-! ### ROUND at its issue (16 R303) -/

/-- The fields of a ROUND block. -/
structure RoundBlock where
  n : Nat
  semv : Bool
  rsem : Nat
  group : Nat
  csem : Option Nat
  handles : List Nat
  recva : Nat
  rxrows : Nat
  deriving DecidableEq, Repr

def State.roundBlock (s : State) (part va : Nat) : Except Stop RoundBlock := do
  let b ← s.block part va 64
  let k := fieldAt b 0 1
  need (fieldAt b 2 1 < 2 && fieldAt b 3 1 < 16 && fieldAt b 5 1 < 32 && zeroBytes b 6 2 && zeroBytes b 52 12
    && (k ≤ 16 → zeroBytes b (8 + 2 * k) (32 - 2 * k))) .rsvd
  need (1 ≤ k && k ≤ 16 && fieldAt b 40 8 % 64 = 0) .format
  return { n := fieldAt b 1 1, semv := fieldAt b 2 1 = 1, rsem := fieldAt b 3 1, group := fieldAt b 4 1, csem := csemOf (fieldAt b 5 1),
           handles := (List.range k).map (fun i => fieldAt b (8 + 2 * i) 2), recva := fieldAt b 40 8, rxrows := fieldAt b 48 4 }

/-- A set of the block has a round-(n − 1) barrier that has not completed. -/
def State.roundWaits (s : State) (part va : Nat) : Bool :=
  match s.roundBlock part va with
  | .error _ => false
  | .ok b => s.rounds.any (fun r => r.part = part && (r.n + 1) % 256 = b.n % 256 && r.handles.any (fun h => b.handles.any (fun x => setKey part x = h.2)))

/-- The ROUND that a block asks for, and the constants c0 to c31 of its sets. -/
def State.parseRound (s : State) (k va : Nat) : Except Stop (RoundCmd × List (Nat × Nat × List Word32)) := do
  let part := partOfKey k
  let b ← s.roundBlock part va
  let sets := b.handles.map (fun h => (s.findSet part h).map (fun x => (x.1, setKey part h, x.2)))
  need (sets.all (fun o => match o with | some x => !x.2.2.fwd && x.2.2.round = b.n | none => false)
    && (s.partAt part).round == (b.n % 2 = 1)
    && (!b.semv || ((((s.fctxAt k).launch).bind (fun l => l.members b.group)).isSome))) .format
  let recs ← s.places part b.recva 64
  let found := sets.filterMap id
  let hyper ← found.mapM (fun x => (s.block part x.2.2.hpva 128).map (fun h =>
    (x.1, x.2.1, (List.range 32).map (fun i => BitVec.ofNat 32 (fieldAt h (4 * i) 4)))))
  return ({ k, part, n := b.n, handles := found.map (fun x => (x.1, x.2.1)), semv := b.semv, rsem := b.rsem, group := b.group,
            csem := b.csem, recLocs := recs, rxrows := b.rxrows }, hyper)

/-! ### Opening a round (16 R288) -/

def State.modSet (s : State) (b key : Nat) (f : BucketSet → BucketSet) : State :=
  s.modBasin b (fun y => { y with sets := match sget? y.sets key with | some x => sset y.sets key (f x) | none => y.sets })

def State.setAt (s : State) (b key : Nat) : Option BucketSet := sget? (s.basinAt b).sets key

/-- Every segment returns to its reset value and its bucket rows to +0.0. -/
def State.openRound (s : State) (b key n : Nat) : State :=
  match s.setAt b key with
  | none => s
  | some x =>
    let s := s.modSet b key (fun x => { x with round := n, segs := [], hyper := [], started := false, flags := 0, dups := 0, uf := 0, wrote := [] })
    if x.fwd then s else s.wrRows b x.bucket.row0 (clean (List.replicate (256 * x.segrows * x.segcount) 0))

/-! ### Contributions (16 R290, R291) -/

abbrev Elems := List (Word32 × Bool)

/-- The sum of two values, element by element, in FP32 rounded to nearest even, with the flags that it raises. -/
def addElems (a b : Elems) : Elems × Flags :=
  (a.zip b).foldr (fun p r =>
    let x := Num.add 0 (f32.num p.1.1.toNat) (f32.num p.2.1.toNat)
    let q := f32.round { rm := 0 } x.1
    ((BitVec.ofNat 32 q.1, p.1.2 || p.2.2) :: r.1, r.2 ||| x.2 ||| q.2)) ([], 0)

def elemBytes (e : Elems) : List PByte := e.flatMap (fun x => pbytes x.1.toNat 4 x.2)

/-- The elements of a row's bytes. -/
def rowElems (b : List PByte) : Elems :=
  (List.range (b.length / 4)).map (fun i => let w := (b.drop (4 * i)).take 4; (BitVec.ofNat 32 (pnat w), pany w))

/-- A contribution to a whole segment, of which n elements are not padding: the others are taken as +0.0, sent or not (R289). -/
def padElems (g n : Nat) (e : Elems) : Elems := e.take n ++ List.replicate (g - min n e.length) (0, false)

/-- Elements of segment j below ELEMS. -/
def BucketSet.realElems (x : BucketSet) (j : Nat) : Nat := min x.segsize (x.elems - x.segsize * j)

/-- The value of a segment as its bucket rows hold it. -/
def State.segValue (s : State) (b : Nat) (x : BucketSet) (j : Nat) : Elems :=
  (List.range x.segrows).flatMap (fun i => rowElems (s.rdRow b (x.bucket.row0 + x.segrows * j + i)))

def State.setSegValue (s : State) (b : Nat) (x : BucketSet) (j : Nat) (e : Elems) : State :=
  s.wrRows b (x.bucket.row0 + x.segrows * j) (elemBytes e)

def BucketSet.seg (x : BucketSet) (j : Nat) : Seg := sget {} x.segs j

def State.modSeg (s : State) (b key j : Nat) (f : Seg → Seg) : State := s.modSet b key (fun x => { x with segs := smod {} x.segs j f })

/-- Places of the staging pool in use. -/
def BucketSet.placesUsed (x : BucketSet) : List Nat := x.segs.flatMap (fun g => g.2.staged.filterMap (·.place))
def BucketSet.poolFull (x : BucketSet) : Bool := x.pool ≤ x.placesUsed.length

/-- A value is written, or added to what the segment holds. -/
def State.combine (s : State) (b key j : Nat) (first : Bool) (e : Elems) : State :=
  match s.setAt b key with
  | none => s
  | some x =>
    if first then s.setSegValue b x j e
    else
      let r := addElems (s.segValue b x j) e
      (s.setSegValue b x j r.1).modSet b key (fun x => { x with flags := x.flags ||| r.2 })

/-- A value is staged: in a free place of the pool, chosen freely, or in none where none is left. -/
def State.stage (s : State) (b key j skey : Nat) (e : Elems) : State :=
  match s.setAt b key with
  | none => s
  | some x =>
    let free := (List.range x.pool).filter (fun p => !x.placesUsed.contains p)
    let r := s.pick free.length
    match free[r.1]? with
    | none => s.modSeg b key j (fun g => { g with staged := g.staged ++ [{ key := skey, place := none, data := e }] })
    | some p =>
      let t := match x.stage with
        | some sh => r.2.wrRows b (sh.row0 + p * x.segrows) (elemBytes e)
        | none => r.2
      t.modSeg b key j (fun g => { g with staged := g.staged ++ [{ key := skey, place := some p, data := e }] })

def State.unstage (s : State) (b key j skey : Nat) : State :=
  s.modSeg b key j (fun g => { g with staged := g.staged.filter (fun x => x.key ≠ skey) })

def Seg.stagedAt (g : Seg) (skey : Nat) : Option Elems := (g.staged.find? (fun x => x.key = skey)).map (·.data)

/-- RANKED: the staged contributions whose turn has come are added. -/
def State.drainRanked (s : State) (b key j : Nat) : Nat → State
  | 0 => s
  | fuel + 1 =>
    match s.setAt b key with
    | none => s
    | some x =>
      let g := x.seg j
      match g.stagedAt g.nextid with
      | none => s
      | some e =>
        let s := ((s.unstage b key j g.nextid).combine b key j (g.nextid = 0) e).modSeg b key j (fun g => { g with nextid := g.nextid + 1 })
        s.drainRanked b key j fuel

/-- Key of node i of level l of a tree. -/
def nodeKey (l i : Nat) : Nat := l * 8192 + i

/-- TREE: a node's value joins with its sibling's as far as siblings are there, and is then staged, or written at the root. -/
def State.climb (s : State) (b key j expect : Nat) : Nat → Nat → Nat → Elems → State
  | 0, _, _, e => s.combine b key j true e
  | fuel + 1, l, i, e =>
    if 2 ^ l ≥ expect then s.combine b key j true e
    else
      let sib := if i % 2 = 0 then i + 1 else i - 1
      if expect ≤ sib * 2 ^ l then s.climb b key j expect fuel (l + 1) (i / 2) e
      else
        match (s.setAt b key).bind (fun x => (x.seg j).stagedAt (nodeKey l sib)) with
        | none => s.stage b key j (nodeKey l i) e
        | some o =>
          let r := if sib < i then addElems o e else addElems e o
          let s := (s.unstage b key j (nodeKey l sib)).modSet b key (fun x => { x with flags := x.flags ||| r.2 })
          s.climb b key j expect fuel (l + 1) (i / 2) r.1

/-- Whether a contribution would need a staging place that it cannot have. -/
def BucketSet.mustStage (x : BucketSet) (j id : Nat) : Bool :=
  let g := x.seg j
  match x.mode with
  | 0 => false
  | 1 => id ≠ g.nextid
  | _ =>
    -- the sibling of the first node on its way that has one
    let rec up : Nat → Nat → Nat → Bool
      | 0, _, _ => false
      | fuel + 1, l, i =>
        if 2 ^ l ≥ x.expect then false
        else
          let sib := if i % 2 = 0 then i + 1 else i - 1
          if x.expect ≤ sib * 2 ^ l then up fuel (l + 1) (i / 2) else (g.stagedAt (nodeKey l sib)).isNone
    up 13 0 id

/-- Every contribution of the segment's round has arrived: those that wait for the pool combine without it. -/
def Basin.allHere (y : Basin) (x : BucketSet) (c : Contribution) : Bool :=
  let g := x.seg c.seg
  let ids := (y.inbound.filter (fun d => d.part = c.part && d.handle = c.handle && d.seg = c.seg && d.round = x.round && !g.bitmap.contains d.id)).map (·.id)
  x.expect ≤ g.cnt + ids.eraseDups.length

/-- An accepted contribution is combined under the set's mode. -/
def State.acceptData (s : State) (b key : Nat) (x : BucketSet) (c : Contribution) : State :=
  let e := padElems x.segsize (x.realElems c.seg) c.data
  match x.mode with
  | 0 => s.combine b key c.seg ((x.seg c.seg).cnt = 0) e
  | 1 =>
    if c.id = (x.seg c.seg).nextid then
      ((s.combine b key c.seg (c.id = 0) e).modSeg b key c.seg (fun g => { g with nextid := g.nextid + 1 })).drainRanked b key c.seg x.expect
    else s.stage b key c.seg c.id e
  | _ => s.climb b key c.seg x.expect 13 0 c.id e

/-- The job that a contribution came from learns of it. -/
def State.answerAwr (s : State) (c : Contribution) (dup : Bool) : State :=
  let t := s.asCtx c.ctx
  match sget? t.ctx.jobs c.job with
  | none => s
  | some j => t.setJob { (j.answer c.seg) with dup := j.dup || dup }

/-- The contribution leaves the unit's queue. -/
def State.takeInbound (s : State) (b i : Nat) : State := s.modBasin b (fun y => { y with inbound := y.inbound.eraseIdx i })

/-- The contribution is held, and counted where it was not before. -/
def State.holdInbound (s : State) (b i : Nat) (c : Contribution) : State :=
  if c.held then s
  else s.modBasin b (fun y => { y with inbound := y.inbound.set i { c with held := true }, bkheld := satInc y.bkheld })

/-- A contribution of the open round can be taken, accepted or as a duplicate: it does not wait for the staging pool. -/
def Basin.canTake (y : Basin) (x : BucketSet) (c : Contribution) : Bool :=
  (x.seg c.seg).bitmap.contains c.id || !x.mustStage c.seg c.id || !x.poolFull || y.allHere x c

/-- Whether another waiting contribution of the segment comes first: one that arrived before it, or in its cycle with a lower id.
One that waits for the pool stands in nobody's way (R291). -/
def Basin.comesFirst (y : Basin) (i : Nat) (c : Contribution) : Bool :=
  let free (d : Contribution) : Bool :=
    match sget? y.sets (setKey c.part c.handle) with | some x => d.round ≠ x.round || y.canTake x d | none => true
  y.inbound.zipIdx.any (fun d =>
    d.1.part = c.part && d.1.handle = c.handle && d.1.seg = c.seg && d.1.round = c.round && d.2 ≠ i &&
      (d.1.bcy < c.bcy || (d.1.bcy = c.bcy && (d.1.id < c.id || (d.1.id = c.id && d.2 < i)))) && free d.1)

/-- A contribution of the open round (R290). -/
def State.take (s : State) (b i key : Nat) (x : BucketSet) (c : Contribution) : State :=
  let g := x.seg c.seg
  if g.bitmap.contains c.id then
    let t := (s.takeInbound b i).modBasin b (fun y => { y with duprej := satInc y.duprej })
    (t.modSet b key (fun x => { x with dups := x.dups + 1 })).answerAwr c true
  else if !(s.basinAt b).canTake x c then s.holdInbound b i c
  else
    let s := (s.takeInbound b i).acceptData b key x c
    let s := s.modSeg b key c.seg (fun g => { g with
      cnt := g.cnt + 1, bitmap := g.bitmap ++ [c.id], poisonf := g.poisonf || c.data.any (·.2) })
    let s := if g.cnt + 1 = x.expect then
        (s.modSeg b key c.seg (fun g => { g with st := .queued })).modBasin b (fun y => { y with queue := y.queue ++ [(key, c.seg)] })
      else s
    s.answerAwr c false

/-- BUCKET_CONTRIBUTION: a bucket unit takes contribution i of those that have arrived (16 R290). -/
def execBucketContribution (b i : Nat) (s : State) : Host.Outcome State Fault Refusal :=
  match (s.basinAt b).inbound[i]? with
  | none => .next s
  | some c =>
    if (s.basinAt b).comesFirst i c then .next s
    else
      -- the basin cycle of its arrival is over: no other contribution of that cycle is still to come
      let s : State := { s with now := max s.now (6 * (c.bcy + 1)) }
      let key := setKey c.part c.handle
      let fail (t : State) : State :=
        let u := (t.takeInbound b i).asCtx c.ctx
        match u.activeJob c.job with | some j => u.bucketFault j | none => u
      match s.setAt b key with
      | none => .next (fail s)
      | some x =>
        if c.round = x.round then .next (s.take b i key x c)
        else if c.round = (x.round + 1) % 256 then .next (s.holdInbound b i c)
        else .next (fail (s.modBasin b (fun y => { y with bkstale := satInc y.bkstale })))

end Sys2Proof.Machine
end

