-- ==== Sys2Proof/Machine/Engine.lean ====
section
/-! DEFINITION. The basin engine: its ports, moves and units (16 R293 to R297, R299), the runs of segments (R300), all-gather
(R301) and save mode (R302). -/

namespace Sys2Proof.Machine

/-! ### Lanes -/

def Lanes.get (x : Lanes) (l : Nat) : Nat := (x.v.extractLsb' (32 * l) 32).toNat
def Lanes.bad (x : Lanes) (l : Nat) : Bool := x.pois.getLsbD l

/-- Lanes from 64 values with their poison. -/
def lanesOf (f : Nat → Nat × Bool) : Lanes :=
  { v := (List.range 64).foldl (fun a l => a ||| BitVec.ofNat 2048 ((f l).1 % 2 ^ 32 * 2 ^ (32 * l))) 0,
    pois := (List.range 64).foldl (fun p l => setBit p l (f l).2) 0 }

/-- One value in every lane. -/
def broadcast (v : Nat) (p : Bool) : Lanes := lanesOf (fun _ => (v, p))

/-- Lanes of the bytes of a row. -/
def lanesOfRow (b : List PByte) : Lanes := lanesOf (fun l => let w := (b.drop (4 * l)).take 4; (pnat w, pany w))

/-! ### Ports (16 R294, R295) -/

def Engine.port (e : Engine) (u : Nat) : UnitPorts := sget {} e.units u
def Engine.modPort (e : Engine) (u : Nat) (f : UnitPorts → UnitPorts) : Engine := { e with units := smod {} e.units u f }

/-- A source: lanes b, z and c broadcast, and a unit's result. -/
def Engine.source (e : Engine) (c : List Word32) (p : Nat) : Lanes :=
  if p < 0x40 then sget {} e.b p
  else if p < 0x50 then broadcast ((sget {} e.z (p - 0x40)).get 0) ((sget {} e.z (p - 0x40)).bad 0)
  else if p < 0x80 then broadcast ((c.getD (p - 0x60) 0).toNat) false
  else (e.port ((p - 0x80) / 4)).r

/-- The guard bit of a lane satisfies a guard. -/
def Engine.holds (e : Engine) (g l : Nat) : Bool :=
  match g with | 0 => true | 1 => e.g0.getLsbD l | 2 => !e.g0.getLsbD l | _ => e.g1.getLsbD l

/-- The guard bit of a lane is poisoned: it poisons what it lets through (02 R29, 06 R110). -/
def Engine.holdsBad (e : Engine) (g l : Nat) : Bool :=
  match g with | 0 => false | 1 => e.g0p.getLsbD l | 2 => e.g0p.getLsbD l | _ => e.g1p.getLsbD l

/-! ### Units (16 R296, R297) -/

def latencyOf (u : Nat) : Nat := [3, 3, 4, 2, 2, 1, 2, 1, 8, 8, 12, 4, 4, 3, 6, 0, 0, 1, 1].getD u 1

/-- An FP32 result with its flags. -/
def fp32 (r : Res) : Nat × Flags := let q := f32.round { rm := 0 } r.1; (q.1, r.2 ||| q.2)

/-- The lane-wise units. -/
def laneUnit (u x y t : Nat) : Nat × Flags :=
  match u with
  | 0 => fp32 (Num.add 0 (f32.num x) (f32.num t))
  | 1 => fp32 ((f32.num x).mul (f32.num t))
  | 2 => fp32 (Num.fma 0 false false (f32.num x) (f32.num y) (f32.num t))
  | 3 => f32.minmax false false x t
  | 4 => f32.minmax true false x t
  | 5 => if (f32.num t).isNan then (f32.canon, snanFlag [f32.num t]) else (t % 2 ^ 31, 0)
  | 8 => fp32 (f32.num t).rsqrt
  | 9 => fp32 (f32.num t).sqrt
  | 10 => fp32 ((f32.num x).quot (f32.num t))
  | _ => (0, 0)

/-- CMP's conditions as those of VCMP: LT, LE, EQ, NE. -/
def cmpCond (y : Nat) : Nat := match y % 4 with | 0 => 2 | 1 => 3 | 2 => 0 | _ => 1

/-- Lanes and flags together. A poisoned lane raises nothing (04 R78). -/
def laneMap (f : Nat → Nat × Flags) (bad : Nat → Bool) : Lanes × Flags :=
  (lanesOf (fun l => ((f l).1, bad l)), (List.range 64).foldl (fun a l => if bad l then a else a ||| (f l).2) 0)

/-- The pairwise sum of 64 lanes (04 R81). -/
def treeSum : Nat → List Nat → Flags → Nat × Flags
  | 0, l, f => (l.headD 0, f)
  | fuel + 1, l, f =>
    let h := l.length / 2
    if h = 0 then (l.headD 0, f)
    else
      let r := (List.range h).map (fun i => fp32 (Num.add 0 (f32.num (l.getD i 0)) (f32.num (l.getD (i + h) 0))))
      treeSum fuel (r.map (·.1)) (r.foldl (fun a x => a ||| x.2) f)

/-- The scale bytes of blocks 0 and 1 for an element format, with the count that each block's position has. -/
def blockScale (x : BucketSet) (e : Engine) (f j pos : Nat) (t : Lanes) : Nat :=
  scaleByte f ((List.range 32).map (fun i => f32.num (t.get (32 * j + i)))) x.policy1 (sget 0 e.ucnt (pos % 32)).toNat x.thresh

/-- The element format that y<1:0> names for SCL and CVT. -/
def mxFormat (y : Nat) : Nat := if y % 4 = 3 then 3 else 2

/-- CVT into BF16 or FP16, or into E4M3 or E5M2 with the blocks' scales and underflow counts; pbad is the poison of x and y,
from which every element is computed. -/
def convert (x : BucketSet) (e : Engine) (px : Nat) (y : Nat) (pbad : Bool) (t : Lanes) : Lanes × Flags × List (Nat × Nat) :=
  let md (l : Nat) : Mode :=
    if y / 4 % 2 = 1 then { rm := 0 }
    else { rm := 5, sig := f32.sig, rill := (rill x.seed (BitVec.ofNat 32 (px + l)) (BitVec.ofNat 32 x.round)).toNat }
  if y % 4 < 2 then
    let F := if y % 4 = 0 then bf16 else f16
    let one (l : Nat) : Nat × Flags :=
      let v := f32.num (t.get l)
      let q := F.round (md l) v
      (q.1, q.2 ||| snanFlag [v])
    let r := laneMap one (fun l => pbad || t.bad l)
    (r.1, r.2, [])
  else
    let f := mxFormat y
    let pos (j : Nat) : Nat := (2 * (px / 64 % 16) + j) % 32
    let sc (j : Nat) : Nat := blockScale x e f j (pos j) t
    let q (i : Nat) : Nat × Flags × Bool := mxQuant f (sc (i / 32)) (md i) (f32.num (t.get i))
    let blockBad (j : Nat) : Bool := pbad || (List.range 32).any (fun i => t.bad (32 * j + i))
    let out (l : Nat) : Nat × Bool :=
      if l < 16 then
        ((List.range 4).foldl (fun a k => a + (q (4 * l + k)).1 * 2 ^ (8 * k)) 0, blockBad (l / 8) || (List.range 4).any (fun k => t.bad (4 * l + k)))
      else if l = 16 then (sc 0 + 256 * sc 1, blockBad 0 || blockBad 1)
      else (0, false)
    let fl := (List.range 64).foldl (fun a i => if (out (i / 4)).2 then a else a ||| (q i).2.1) 0
    let cnt (j : Nat) : Nat := ((List.range 32).filter (fun i => (q (32 * j + i)).2.2)).length
    (lanesOf out, fl, [(pos 0, cnt 0), (pos 1, cnt 1)])

/-- What a trigger of a unit computes: the result in flight, the round's flags and the underflow counts. SCL's count position,
which the spec does not name, is a free value. -/
def Engine.fire (e : Engine) (x : BucketSet) (free u : Nat) : UnitResult × Flags × List (Nat × Nat) :=
  let p := e.port u
  let due := e.bcy + latencyOf u
  let used := (unitPorts.getD u (false, false, false, false))
  let bad (l : Nat) : Bool := (used.1 && p.x.bad l) || (used.2.1 && p.y.bad l) || (used.2.2.1 && p.t.bad l)
  let plain (r : Lanes × Flags) : UnitResult × Flags × List (Nat × Nat) := ({ unit := u, due, val := r.1 }, r.2, [])
  match u with
  | 6 =>
    let c (l : Nat) : Bool × Flags := f32.compare (cmpCond (p.y.get l)) (p.x.get l) (p.t.get l)
    let r := laneMap (fun l => (if (c l).1 then 2 ^ 32 - 1 else 0, (c l).2)) bad
    ({ unit := u, due, eff := .cmp (p.y.get 0 / 4 % 2 = 1), val := r.1 }, r.2, [])
  | 7 => plain (lanesOf (fun l =>
      if e.g0.getLsbD l then (p.x.get l, p.x.bad l || e.g0p.getLsbD l) else (p.t.get l, p.t.bad l || e.g0p.getLsbD l)), 0)
  | 11 =>
    let r := convert x e (p.x.get 0) (p.y.get 0) (p.x.bad 0 || p.y.bad 0) p.t
    ({ unit := u, due, val := r.1 }, r.2.1, r.2.2)
  | 12 =>
    let f := mxFormat (p.y.get 0)
    plain (lanesOf (fun l => if l = 0 then
      (blockScale x e f 0 free p.t + 256 * blockScale x e f 1 (free + 1) p.t, (List.range 64).any p.t.bad || p.y.bad 0) else (0, false)), 0)
  | 13 => plain (lanesOf (fun l => ((rill x.seed (BitVec.ofNat 32 (p.x.get 0 + l)) (BitVec.ofNat 32 x.round)).toNat, p.x.bad 0)), 0)
  | 14 =>
    let r := treeSum 7 ((List.range 64).map p.t.get) 0
    let any := (List.range 64).any p.t.bad
    plain (lanesOf (fun l => if l = 0 then (r.1, any) else (0, false)), if any then 0 else r.2)
  | 17 => ({ unit := u, due, eff := .cntLoad (BitVec.ofNat 32 (p.t.get 0)) }, 0, [])
  | 18 => ({ unit := u, due, eff := .branch (p.t.get 0) }, 0, [])
  | _ => plain (laneMap (fun l => laneUnit u (p.x.get l) (p.y.get l) (p.t.get l)) bad)

/-! ### Landing (16 R295) -/

/-- Bits of lanes that hold a compare's result. -/
def laneBits (x : Lanes) : BitVec 64 := (List.range 64).foldl (fun g l => setBit g l (x.get l ≠ 0)) 0

/-- One result lands. A branch sets the next instruction. -/
def Engine.land (e : Engine) (r : UnitResult) : Engine :=
  match r.eff with
  | .value => e.modPort r.unit (fun p => { p with r := r.val })
  | .cmp g1 =>
    let e := e.modPort r.unit (fun p => { p with r := r.val })
    if g1 then { e with g1 := laneBits r.val, g1p := r.val.pois } else { e with g0 := laneBits r.val, g0p := r.val.pois }
  | .cntLoad n => { e with cnt := n }.modPort 17 (fun p => { p with r := broadcast n.toNat false })
  | .cntDec =>
    let n : Word32 := if e.cnt = 0 then 0 else e.cnt - 1
    { e with cnt := n, g1 := if n = 0 then 0 else BitVec.allOnes 64, g1p := 0 }.modPort 17 (fun p => { p with r := broadcast n.toNat false })
  | .branch t => { e with nextpc := some t }

/-- Every result that is due lands, in trigger order. -/
def Engine.landDue (e : Engine) : Engine :=
  let due := e.inflight.filter (fun r => r.due ≤ e.bcy)
  due.foldl Engine.land { e with inflight := e.inflight.filter (fun r => e.bcy < r.due) }

/-! ### One instruction (16 R293, R295, R299) -/

/-- The place and bytes of a STR's part, by its y. -/
def strPart (y : Nat) (d : Lanes) : Option (Nat × List PByte) :=
  let words (n : Nat) : List PByte := (List.range n).flatMap (fun l => pbytes (d.get l) 4 (d.bad l))
  if y = 0 then some (0, words 64)
  else if y = 2 || y = 3 then some (128 * (y - 2), (List.range 64).flatMap (fun l => pbytes (d.get l % 65536) 2 (d.bad l)))
  else if 4 ≤ y && y ≤ 7 then some (64 * (y - 4), words 16)
  else if 256 ≤ y && y < 384 then some (2 * (y - 256), pbytes (d.get 16 % 65536) 2 (d.bad 16))
  else none

/-- The instruction must wait: for a row that it reads from ldr.r, or for one of the eight places of LDR. -/
def Engine.stalls (e : Engine) (ms : List PortMove) : Bool :=
  let takes := (ms.filter (fun m => m.src = 0x80 + 4 * 15 + 3)).length
  let loads := ms.any (fun m => m.dst = 0x80 + 4 * 15 + 2 && e.holds m.guard 0)
  let out := e.ldr.length + e.ldrq.length
  (e.ldr.length < takes && e.ldr.length < out) || (loads && 8 ≤ out - min takes out)

/-- Sources of the moves in order; each read of ldr.r takes the oldest row. -/
def Engine.sources (e : Engine) (c : List Word32) : List PortMove → Engine × List Lanes
  | [] => (e, [])
  | m :: r =>
    if m.src = 0x80 + 4 * 15 + 3 then
      match e.ldr with
      | x :: rest =>
        let e := { e with ldr := rest }.modPort 15 (fun p => { p with r := x })
        let t := e.sources c r
        (t.1, x :: t.2)
      | [] =>
        let t := e.sources c r
        (t.1, (e.port 15).r :: t.2)
    else
      let t := e.sources c r
      (t.1, e.source c m.src :: t.2)

/-- The faults of a move that would trigger LDR, STR, CNT or BR (R299). -/
def Engine.moveFault (e : Engine) (m : PortMove) (v : Lanes) : Option HaltReason :=
  if !e.holds m.guard 0 || m.dst < 0x80 || m.dst % 4 ≠ 2 then none
  else
    let u := (m.dst - 0x80) / 4
    if u < 15 then none
    else if v.bad 0 || e.holdsBad m.guard 0 then some .bpoison
    else if (u = 15 || u = 16) && e.limit ≤ v.get 0 then some .brow
    else none

/-- The first fault of an instruction's moves: of two that would trigger one unit, only the higher-numbered one triggers it
(R295). -/
def Engine.movesFault (e : Engine) : List (PortMove × Lanes) → Option HaltReason
  | [] => none
  | v :: r =>
    let later := r.any (fun x => x.1.dst = v.1.dst && e.holds x.1.guard 0)
    (if later then none else e.moveFault v.1 v.2).or (e.movesFault r)

/-- A value that a guard lets through. -/
def Engine.guarded (e : Engine) (g : Nat) (v : Lanes) : Lanes := if e.holdsBad g 0 then { v with pois := BitVec.allOnes 64 } else v

/-- A move into b, z or a port x, y or t. -/
def Engine.put (e : Engine) (m : PortMove) (v : Lanes) : Engine :=
  if m.dst < 0x40 then
    let old := sget {} e.b m.dst
    { e with b := sset e.b m.dst (lanesOf (fun l => if e.holds m.guard l then (v.get l, v.bad l || e.holdsBad m.guard l) else (old.get l, old.bad l))) }
  else if !e.holds m.guard 0 then e
  else if m.dst < 0x50 then { e with z := sset e.z (m.dst - 0x40) (e.guarded m.guard v) }
  else
    let v := e.guarded m.guard v
    e.modPort ((m.dst - 0x80) / 4) (fun p =>
      match (m.dst - 0x80) % 4 with
      | 0 => { p with x := v }
      | 1 => { p with y := v }
      | _ => { p with t := v })

/-- The units that an instruction starts, each once: by their t port, RNG by its x port. -/
def Engine.triggers (e : Engine) (ms : List PortMove) : List Nat :=
  (List.range 19).filter (fun u =>
    ms.any (fun m => 0x80 ≤ m.dst && (m.dst - 0x80) / 4 = u && (m.dst - 0x80) % 4 = (if u = 13 then 0 else 2) && e.holds m.guard 0))

/-- What an instruction leaves: the engine, flags of the round, underflow counts; or the reason why the engine halts. -/
abbrev Issued := Except HaltReason (Engine × Flags × Nat)

/-- The units start with the ports as the moves have left them. -/
def Engine.start (x : BucketSet) (free : Nat) (acc : Issued) (u : Nat) : Issued :=
  match acc with
  | .error h => .error h
  | .ok (e, f, uf) =>
    let p := e.port u
    match u with
    | 15 => .ok ({ e with ldrq := e.ldrq ++ [(e.rowops, p.t.get 0)], rowops := e.rowops + 1 }, f, uf)
    | 16 =>
      match strPart (p.y.get 0) p.x with
      | none => .error .bill
      | some _ => .ok ({ e with strq := e.strq ++ [(e.rowops, p.t.get 0, p.y.get 0, p.x)], rowops := e.rowops + 1 }, f, uf)
    | _ =>
      let r := e.fire x free u
      let e := { e with inflight := e.inflight ++ [r.1],
                        ucnt := r.2.2.foldl (fun m c => sset m c.1 (BitVec.ofNat 6 c.2)) e.ucnt }
      .ok (e, f ||| r.2.1, uf + r.2.2.foldl (fun a c => a + c.2) 0)

/-- An instruction word issues. One that halts the engine makes none of its moves. -/
def Engine.issue (e : Engine) (x : BucketSet) (free : Nat) (w : Word) : Issued :=
  let ms := movesOf w
  let r := e.sources x.hyper ms
  let vs := ms.zip r.2
  match e.movesFault vs with
  | some h => .error h
  | none =>
    -- every port has its value before a unit starts
    let e1 := vs.foldl (fun (a : Engine) v => a.put v.1 v.2) r.1
    let dec := ms.any (fun m => m.dst = 0x80 + 4 * 17 + 1 && e.holds m.guard 0)
    let e1 := if dec then { e1 with inflight := e1.inflight ++ [{ unit := 17, due := e1.bcy + 1, eff := .cntDec }] } else e1
    match (e.triggers ms).foldl (Engine.start x free) (.ok (e1, 0, 0)) with
    | .error h => .error h
    | .ok (e2, f, uf) =>
      .ok ({ e2 with retired := e2.retired + 1, pc := e2.pc + 1, halting := controlOf w = 1, syncing := controlOf w = 2 }, f, uf)

/-! ### The state's engines -/

def State.engineAt (s : State) (b e : Nat) : Engine := sget {} (s.basinAt b).engines e
def State.modEngine (s : State) (b e : Nat) (f : Engine → Engine) : State :=
  s.modBasin b (fun y => { y with engines := smod {} y.engines e f })

/-- Everything that the run has started has landed or performed. -/
def Engine.quiet (e : Engine) : Bool := e.inflight.isEmpty && e.strq.isEmpty

/-- The set that an engine's run works for. -/
def State.runSet (s : State) (b : Nat) (e : Engine) : Option (Nat × Nat × BucketSet) :=
  e.run.bind (fun r => (s.setAt b r.1).map (fun x => (r.1, r.2, x)))

/-- First working-copy row of a parity. -/
def BucketSet.wcRow (x : BucketSet) (parity : Nat) : Nat := x.wc.row0 + parity * (2 ^ x.wcvsh / 256)
/-- Bytes of a working-copy element. -/
def BucketSet.wcBytes (x : BucketSet) : Nat := if x.wcfmt = 0 then 2 else 1
/-- The parity that a run of the open round writes. -/
def BucketSet.newParity (x : BucketSet) : Nat := 1 - x.round % 2

/-- A row of the working-copy buffer that the run writes. -/
def BucketSet.isWcRow (x : BucketSet) (row : Nat) : Bool := let r := x.wcRow x.newParity; r ≤ row && row < r + x.wc.rows

/-- Rows that the set's runs have written in the open round. -/
def State.noteWrote (s : State) (b key : Nat) (rows : List Nat) : State :=
  s.modSet b key (fun x => { x with wrote := x.wrote ++ rows.filter (fun r => !x.wrote.contains r) })

/-- Pending STRs perform in trigger order, until one finds its line busy or its row still to be read by an LDR triggered before
it: what a run computes does not depend on when its reads and writes are made (R300). -/
def State.performStrs (s : State) (b e : Nat) : Nat → State
  | 0 => s
  | fuel + 1 =>
    let g := s.engineAt b e
    match g.strq, s.runSet b g with
    | (n, o, y, d) :: rest, some (key, _, x) =>
      let row := g.base + o
      match strPart y d with
      | none => s
      | some (off, bytes) =>
        if g.ldrq.any (fun r => r.2 = o && r.1 < n) then s
        else if s.lineBusy ((rowLoc b row).pa / 128) || s.lineBusy ((rowLoc b row).pa / 128 + 1) then s
        else
          let s := s.wrRow b row off bytes
          let s := s.modEngine b e (fun g => { g with
            strq := rest, wrote := if x.isWcRow row && !g.wrote.contains row then g.wrote ++ [row] else g.wrote })
          let s := s.noteWrote b key [row]
          s.performStrs b e fuel
    | _, _ => s

/-- Results that are due land and STRs perform. -/
def State.settle (s : State) (b e : Nat) : State := (s.modEngine b e Engine.landDue).performStrs b e 8

/-- BASIN_UNIT_RESULT_LAND. -/
def execBasinUnitResultLand (b e : Nat) (s : State) : Host.Outcome State Fault Refusal := .next (s.settle b e)

/-- LDR_ROW_LAND: the oldest requested row has been read, once its line is in the basin die's L2. -/
def execLdrRowLand (b e : Nat) (s : State) : Host.Outcome State Fault Refusal :=
  let g := s.engineAt b e
  match g.ldrq with
  | [] => .next s
  | (n, o) :: rest =>
    let l := rowLoc b (g.base + o)
    let part := (s.runSet b g).map (fun x => x.2.2.part)
    if g.strq.any (fun w => w.2.1 = o && w.1 < n) || s.lineBusy (l.pa / 128) || s.lineBusy (l.pa / 128 + 1) then .next s
    else if !s.inL2 l.pa then .next (s.askFill { line := l.pa / 256, part })
    else .next (s.modEngine b e (fun g => { g with ldrq := rest, ldr := g.ldr ++ [lanesOfRow (s.rdRow b (g.base + o))] }))

/-- The engine stops issuing with a reason. -/
def State.haltEngine (s : State) (b e : Nat) (h : HaltReason) : State := s.modEngine b e (fun g => { g with halt := some h })

/-- One basin cycle passes on an engine. -/
def State.tick (s : State) (b e : Nat) : State := s.modEngine b e (fun g => { g with bcy := g.bcy + 1 })

/-- BASIN_WORD: a basin cycle of an engine with a run, in which it issues its next word unless it ends, waits or stalls. -/
def execBasinWord (b e : Nat) (s : State) : Host.Outcome State Fault Refusal :=
  let s := s.settle b e
  let g := s.engineAt b e
  match s.runSet b g with
  | none => .next s
  | some (key, _, x) =>
    if g.halt.isSome then .next s
    else if g.halting || g.saving || (g.syncing && !g.quiet) then .next (s.tick b e)
    else
      let words := ((sget? (s.basinAt b).progs (x.part * 256 + x.prog)).map (·.words)).getD []
      let pc := g.nextpc.getD g.pc
      match words[pc]? with
      | none => .next (s.haltEngine b e .bpc)
      | some w =>
        if x.budget ≤ g.retired then .next (s.haltEngine b e .btime)
        else if !wordOk w then .next (s.haltEngine b e .bill)
        else if g.stalls (movesOf w) then .next (s.tick b e)
        else
          match ({ g with pc, nextpc := none } : Engine).issue x (Config.arb s.freeIx) w with
          | .error h => .next (s.haltEngine b e h)
          | .ok (g2, f, uf) =>
            let s := { s with freeIx := s.freeIx + 1 }
            .next (((s.modEngine b e (fun _ => g2)).modSet b key (fun x => { x with flags := x.flags ||| f, uf := x.uf + uf })).tick b e)

/-! ### Runs (16 R300) -/

/-- The first queued segment whose ROUND has issued and that passes a test. -/
def Basin.nextQueued (y : Basin) (ok : BucketSet → Bool) : Option (Nat × Nat) :=
  y.queue.find? (fun q => match sget? y.sets q.1 with | some x => x.started && ok x | none => false)

/-- The engine of a run of segment j, at its start. -/
def startEngine (s : State) (b key j : Nat) (x : BucketSet) : Engine :=
  let w := s.rowWindow x.part b
  let rows := x.segrows
  let first := x.segsize * j
  let rel (row : Nat) : Nat := (row + 2 ^ 32 - w.1) % 2 ^ 32
  let wcrow := x.wcRow x.newParity + first / perRow x.wc.layout
  let wsrow := match x.ws with | some r => rel (r.row0 + first / 32 / 256) | none => 0
  let z := [rel (x.bucket.row0 + rows * j), rel (x.m1.row0 + rows * j), rel (x.m2.row0 + rows * j), rel (x.master.row0 + rows * j),
            rel wcrow, wsrow, rows, first, x.round]
  { z := z.zipIdx.map (fun v => (v.2, broadcast v.1 false)), run := some (key, j), base := w.1, limit := w.2 }

def State.dequeue (s : State) (b : Nat) (q : Nat × Nat) : State := s.modBasin b (fun y => { y with queue := y.queue.filter (fun x => x ≠ q) })

/-- All rows of a segment's working copy at the parity that its round writes. -/
def BucketSet.segWcRows (x : BucketSet) (j : Nat) : List Nat :=
  let lo := x.segsize * j * x.wcBytes
  let n := x.segsize * x.wcBytes
  (List.range ((lo + n + 255) / 256 - lo / 256)).map (fun i => x.wcRow x.newParity + lo / 256 + i)

/-- The rows go to the other packages of the set (R301). -/
def State.sendRows (s : State) (b key : Nat) (x : BucketSet) (rows : List Nat) : State :=
  let pkgs := x.agpkg.filter (fun p => p ≠ 0xFF)
  let row (r : Nat) : GatherRow :=
    let d := s.rdRow b r
    { part := x.part, round := x.round, offset := paOf 0 b (256 * r), data := BitVec.ofNat 2048 (pnat d),
      pois := (List.range 8).foldl (fun p i => setBit p i (pany ((d.drop (32 * i)).take 32))) 0 }
  let out := rows.flatMap (fun r => pkgs.map (fun p => (p, row r)))
  (s.modBasin b (fun y => { y with agsent := y.agsent ++ out })).modSet b key (fun x => { x with agout := x.agout + out.length })

/-- The bucket unit poisons the segment's working copy; its bytes keep their values (log 15). -/
def State.poisonWc (s : State) (b key j : Nat) (x : BucketSet) : State :=
  let lo := x.segsize * j * x.wcBytes
  let n := x.segsize * x.wcBytes
  let s := (List.range (n / 32)).foldl (fun (s : State) i =>
    let o := lo + 32 * i
    let row := x.wcRow x.newParity + o / 256
    let old := ((s.rdRow b row).drop (o % 256)).take 32
    s.wrRow b row (o % 256) (old.map (fun y => (y.1, true)))) s
  (s.noteWrote b key (x.segWcRows j)).sendRows b key x (x.segWcRows j)

/-- A queued segment starts on an engine; a poisoned one gets no run. -/
def State.startRun (s : State) (b e : Nat) (q : Nat × Nat) : State :=
  match s.setAt b q.1 with
  | none => s.dequeue b q
  | some x =>
    let s := s.dequeue b q
    if (x.seg q.2).poisonf then (s.modSeg b q.1 q.2 (fun g => { g with st := .poisoned })).poisonWc b q.1 q.2 x
    else
      let g := startEngine s b q.1 q.2 x
      (s.modSeg b q.1 q.2 (fun g => { g with st := .running })).modEngine b e (fun _ => g)

/-- The oldest run in save mode goes on, with the row window that its partition has now (R299). -/
def State.restoreRun (s : State) (b e : Nat) : State :=
  match (s.basinAt b).saved with
  | [] => s
  | g :: rest =>
    let w := match s.runSet b g with | some x => s.rowWindow x.2.2.part b | none => (g.base, g.limit)
    (s.modBasin b (fun y => { y with saved := rest })).modEngine b e (fun _ => { g with saving := false, bcy := 0, base := w.1, limit := w.2 })

/-- BASIN_RUN_START on a free engine: the first queued segment that may start, or a run in save mode; between the two the
choice is free. -/
def execBasinRunStart (b e : Nat) (s : State) : Host.Outcome State Fault Refusal :=
  if (s.engineAt b e).run.isSome || 4 ≤ e then .next s
  else
    match (s.basinAt b).nextQueued (fun _ => true), (s.basinAt b).saved with
    | none, [] => .next s
    | none, _ :: _ => .next (s.restoreRun b e)
    | some q, [] => .next (s.startRun b e q)
    | some q, _ :: _ =>
      let r := s.pick 2
      if r.1 = 0 then .next (r.2.startRun b e q) else .next (r.2.restoreRun b e)

def HaltReason.code : HaltReason → Nat
  | .bill => 1 | .brow => 2 | .bpoison => 3 | .btime => 4 | .bpc => 5

/-- The record of a run that halted (21 R348). -/
def engineRecord (b e : Nat) (h : HaltReason) : ErrRec := { kind := 0x11, cause := h.code, source := 0x2000 + 4 * b + e }

/-- BASIN_RUN_HALT: the run ends once everything that it started has landed or performed: DONE at `!halt`, FAILED on a fault. -/
def execBasinRunHalt (b e : Nat) (s : State) : Host.Outcome State Fault Refusal :=
  let s := s.settle b e
  let g := s.engineAt b e
  match s.runSet b g with
  | none => .next s
  | some (key, j, x) =>
    let s1 := s.modEngine b e (fun _ => {})
    match g.halt with
    | some h =>
      if !g.strq.isEmpty then .next s
      else
        let s2 := (s1.modSeg b key j (fun y => { y with st := .failed })).poisonWc b key j x
        .next (s2.record (some x.part) (engineRecord b e h))
    | none =>
      if g.halting && g.quiet && g.ldrq.isEmpty then
        .next ((s1.modSeg b key j (fun y => { y with st := .done })).sendRows b key x g.wrote)
      else .next s

/-! ### Save mode (16 R302) -/

def State.bquant (s : State) (part : Nat) : Nat := match (s.partAt part).config with | some c => c.bquant | none => 0

/-- BASIN_SAVE_MODE: a run past its partition's engine time, with a run of another partition queued, is stopped at an
instruction boundary; once it is quiet it is saved, and the other run takes the engine. -/
def execBasinSaveMode (b e : Nat) (s : State) : Host.Outcome State Fault Refusal :=
  let s := s.settle b e
  let g := s.engineAt b e
  match s.runSet b g with
  | none => .next s
  | some (_, _, x) =>
    match (s.basinAt b).nextQueued (fun y => y.part ≠ x.part) with
    | none => .next (s.modEngine b e (fun g => { g with saving := false }))
    | some q =>
      if g.halt.isSome || g.halting || g.bcy < s.bquant x.part then .next s
      else if !g.quiet || !g.ldrq.isEmpty then .next (s.modEngine b e (fun g => { g with saving := true }))
      else
        let s := s.modBasin b (fun y => { y with saved := y.saved ++ [g] })
        .next ((s.modEngine b e (fun _ => {})).startRun b e q)

/-! ### All-gather between packages (16 R301, R304) -/

/-- A row of another package is written and counted for its ROUND. -/
def State.writeGather (s : State) (i : Nat) (r : GatherRow) : State :=
  let b := (hbmPlace r.offset).1
  let bytes := (lineBytes r.data 0 256).zipIdx.map (fun y => (y.1, r.pois.getLsbD (y.2 / 32)))
  let s := s.wrRow b ((hbmPlace r.offset).2 / 256) 0 bytes
  let row := (hbmPlace r.offset).2 / 256
  { s with rounds := s.rounds.zipIdx.map (fun x => if x.2 = i then { x.1 with rxdone := x.1.rxdone + 1, gathered := x.1.gathered ++ [(b, row)] } else x.1) }

/-- The ROUND in flight that a row is for. -/
def State.roundOf (s : State) (r : GatherRow) : Option Nat := s.rounds.findIdx? (fun x => x.part = r.part && x.n = r.round)

/-- ALLGATHER_ROW_RECEIVE: the row is written where its partition's ROUND has issued, and held otherwise. -/
def execAllgatherRowReceive (r : GatherRow) (s : State) : Host.Outcome State Fault Refusal :=
  if 12 * 2 ^ 36 ≤ r.offset || r.offset % 256 ≠ 0 then .next s
  else match s.roundOf r with
  | some i => .next (s.writeGather i r)
  | none => .next (s.modBasin ((hbmPlace r.offset).1) (fun y => { y with heldRows := y.heldRows ++ [r] }))

/-- Rows that were held for a ROUND that has issued are written. -/
def State.releaseRows (s : State) (b : Nat) : State :=
  let l := (s.basinAt b).heldRows
  let s1 := s.modBasin b (fun y => { y with heldRows := l.filter (fun r => (s.roundOf r).isNone) })
  (l.filter (fun r => (s.roundOf r).isSome)).foldl (fun s r => match s.roundOf r with | some i => s.writeGather i r | none => s) s1

/-- ALLGATHER_ACKNOWLEDGEMENT: a row that basin die b has sent is acknowledged; whose it is among the die's sets is free. -/
def execAllgatherAcknowledgement (b : Nat) (s : State) : Host.Outcome State Fault Refusal :=
  match (s.basinAt b).sets.filter (fun x => x.2.agout ≠ 0) with
  | [] => .next s
  | l =>
    let r := s.pick l.length
    match l[r.1]? with
    | none => .next s
    | some x => .next (r.2.modSet b x.1 (fun y => { y with agout := y.agout - 1 }))

/-! ### The update-round barrier (16 R304, R305) -/

/-- The sets of a ROUND as they are now. -/
def State.roundSets (s : State) (r : RoundCmd) : List (Nat × Nat × BucketSet) :=
  r.handles.filterMap (fun h => (s.setAt h.1 h.2).map (fun x => (h.1, h.2, x)))

def SState.final : SState → Bool
  | .done => true
  | .poisoned => true
  | .failed => true
  | .open_ => false
  | .queued => false
  | .running => false

/-- States of a set's segments. -/
def BucketSet.segStates (x : BucketSet) : List SState := (List.range x.segcount).map (fun j => (x.seg j).st)

/-- Every segment has ended, every row sent is acknowledged and every row awaited is written. -/
def State.roundReady (s : State) (r : RoundCmd) : Bool :=
  r.arrived && r.rxrows ≤ r.rxdone && (s.roundSets r).all (fun x => x.2.2.segStates.all SState.final && x.2.2.agout = 0)

/-- The bytes of some rows become visible through all three windows. -/
def State.aliasRows (s : State) (b row n : Nat) : State :=
  (List.range (8 * n)).foldl (fun s i => s.aliasSector (paOf 1 b (256 * row + 32 * i) / 32)) s

/-- The bucket rows of a set and the rows that its runs and poison writes have written. -/
def State.aliasSet (s : State) (b : Nat) (x : BucketSet) : State :=
  x.wrote.foldl (fun s r => s.aliasRows b r 1) (s.aliasRows b x.bucket.row0 x.bucket.rows)

/-- A flip of the partition is in progress, or has completed for a ROUND that has not taken notice of it. -/
def State.flipping (s : State) (part : Nat) : Bool := s.changes.any (fun c => c.part = part && c.flip)

/-- ROUND<0> flips, and the flip places its markers (15 R274). -/
def State.flip (s : State) (part : Nat) : State :=
  (s.modPart part (fun p => { p with round := !p.round })).startChange { part, time := 0, va := none, flip := true }

def State.setRound (s : State) (i : Nat) (r : RoundCmd) : State := { s with rounds := s.rounds.set i r }

/-- ROUND_BARRIER: everything that it waits for has come, and the flip is requested. -/
def execRoundBarrier (i : Nat) (s : State) : Host.Outcome State Fault Refusal :=
  match s.rounds[i]? with
  | none => .next s
  | some r =>
    if r.flip.isSome || !s.roundReady r || s.flipping r.part then .next s
    else
      let s := (s.roundSets r).foldl (fun s x => s.aliasSet x.1 x.2.2) s
      let s := r.gathered.foldl (fun s x => s.aliasRows x.1 x.2 1) s
      .next ((s.flip r.part).setRound i { r with flip := some s.ptime })

/-- The round record (R305). -/
def roundRecord (r : RoundCmd) (sets : List BucketSet) (tflip : Nat) : List Byte :=
  let st := sets.flatMap BucketSet.segStates
  let count (x : SState) : Nat := (st.filter (fun y => y = x)).length
  let status := if count .failed ≠ 0 then 2 else if count .poisoned ≠ 0 then 1 else 0
  let flags := sets.foldl (fun f x => f ||| x.flags) (0 : BitVec 5)
  leBytes r.n 1 ++ leBytes status 1 ++ leBytes 0 2 ++ leBytes (count .done) 4 ++ leBytes (count .poisoned) 4 ++ leBytes (count .failed) 4
    ++ leBytes (sets.foldl (fun a x => a + x.dups) 0) 4 ++ leBytes (sets.foldl (fun a x => a + x.uf) 0) 4 ++ leBytes flags.toNat 1
    ++ leBytes 0 7 ++ leBytes tflip 8 ++ leBytes 0 24

/-- ROUND_BARRIER_COMPLETE: the flip has completed; the record, the next round of each set, the group's semaphore, CSEM. -/
def execRoundBarrierComplete (i : Nat) (s : State) : Host.Outcome State Fault Refusal :=
  match s.rounds[i]? with
  | none => .next s
  | some r =>
    match r.flip, s.changes.find? (fun c => c.part = r.part && c.flip && c.complete.isSome) with
    | some _, some c =>
      if !s.canWrite r.recLocs then .next s
      else
        let t := s.wrPieces r.recLocs (clean (roundRecord r ((s.roundSets r).map (·.2.2)) (c.complete.getD 0)))
        let t := { t with changes := t.changes.filter (fun d => !(d.part = r.part && d.flip && d.complete.isSome)), rounds := t.rounds.eraseIdx i }
        let t := r.handles.foldl (fun t h => t.openRound h.1 h.2 ((r.n + 1) % 256)) t
        let t := if r.semv then t.groupSem r.k (t.baseOf r.k) r.group r.rsem 1 else t
        .next (t.signalCsem r.k r.csem)
    | _, _ => .next s

end Sys2Proof.Machine
end

