-- ==== Sys2Proof/Machine/Commands.lean ====
section
/-! DEFINITION. The command rings of the fontanier (14 R242 to R249): the checks and the issue of a word, the deliveries of its
slots, CPYP's copies, and CCTL. -/

namespace Sys2Proof.Machine

/-! ### The command word (14 R243, R244) -/

/-- A slot of a command word. -/
structure CmdSlot where
  slot : Nat
  kind : Nat
  mask : Nat
  pay : Nat
  deriving DecidableEq, Repr

def slotOf (w : List Byte) (i : Nat) : CmdSlot :=
  let h := fieldAt w 0 4
  { slot := i, kind := h / 2 ^ (8 * (i - 1)) % 16, mask := h / 2 ^ (8 * (i - 1) + 4) % 16, pay := fieldAt w (4 * i) 4 }

def slotsOf (w : List Byte) : List CmdSlot := [1, 2, 3].map (slotOf w)

def CmdSlot.used (c : CmdSlot) : Bool := c.kind ≠ 0

/-- Exactly one die. -/
def oneDie (m : Nat) : Bool := m = 1 || m = 2 || m = 4 || m = 8
def dieOfMask (m : Nat) : Nat := match m with | 1 => 0 | 2 => 1 | 4 => 2 | _ => 3

/-- WAITQ's and SIGQ's payload: CSEM and count. -/
def CmdSlot.csem (c : CmdSlot) : Nat := c.pay % 16
def CmdSlot.count (c : CmdSlot) : Nat := c.pay / 16 % 65536

/-- The form of a slot: an unused one is all zero, a used one keeps its kind's mask and payload. -/
def CmdSlot.form (c : CmdSlot) (cpsize : Nat) : Option Cause :=
  let pidx := c.pay < 2 ^ 28
  let ok := match c.kind with
    | 1 => c.mask ≠ 0 && pidx
    | 2 => c.mask = 1 && c.pay < 2 ^ 20 && c.count ≠ 0
    | 3 => c.mask = 1 && c.pay < 2 ^ 20 && c.count ≠ 0
    | 4 => c.mask ≠ 0 && pidx
    | 5 => oneDie c.mask && pidx
    | 6 => oneDie c.mask && pidx
    | 7 => oneDie c.mask && pidx
    | 8 => c.mask = 1 && pidx
    | 9 => c.mask = 1 && c.pay < 2
    | 10 => c.mask = 1 && 1 ≤ c.pay && c.pay < 2048
    | 11 => c.mask = 1 && c.pay < cpsize
    | 12 => c.mask = 1 && c.pay = 0
    | _ => false
  if c.kind = 0 then (if c.mask = 0 && c.pay = 0 then none else some .rsvd)
  else if ok then none else some .format

/-! ### Blocks of SLUICE and CPYP (14 R245) -/

def State.parseSluice (s : State) (part va : Nat) : Except Stop (Nat × Option Nat) := do
  let b ← s.block part va 64
  need (fieldAt b 8 1 < 32 && fieldAt b 9 55 = 0) .rsvd
  need (fieldAt b 0 8 % 64 = 0) .format
  return (fieldAt b 0 8, csemOf (fieldAt b 8 1))

def State.parseCpyp (s : State) (part va : Nat) : Except Stop Payload := do
  let b ← s.block part va 64
  need (fieldAt b 24 1 < 32 && fieldAt b 25 39 = 0) .rsvd
  need (fieldAt b 16 8 % 256 = 0) .format
  return .cpyp (fieldAt b 0 8) (fieldAt b 8 8) (fieldAt b 16 8) (csemOf (fieldAt b 24 1))

/-! ### A word at its issue -/

/-- What a slot does when its word issues. -/
inductive Order
  | launch (l : Launch)
  | waitq (n count : Nat)
  | sluice (va : Nat) (csem : Option Nat)
  | round (r : RoundCmd) (hyper : List (Nat × Nat × List Word32))
  | deliver (p : Payload)
  | fencep
  | jump (i : Nat)
  | stop

/-- The VA of the block that a payload names. -/
def FCtx.blockVa (f : FCtx) (pay : Nat) : Nat := f.pbase.toNat + 64 * pay

/-- A used slot is checked against the state at its issue, its parameter block included. -/
def State.orderOf (s : State) (k : Nat) (c : CmdSlot) : Except Stop Order :=
  let part := partOfKey k
  let f := s.fctxAt k
  let va := f.blockVa c.pay
  match c.kind with
  | 1 => (s.parseLaunch k va (BitVec.ofNat 4 c.mask)).map Order.launch
  | 2 => .ok (.waitq c.csem c.count)
  | 3 => .ok (.deliver (.sigq c.csem c.count))
  | 4 => (s.parseSluice part va).map (fun x => .sluice x.1 x.2)
  | 5 => (s.parseCpyp part va).map Order.deliver
  | 6 => (s.parseBkcfg part va (dieOfMask c.mask)).map Order.deliver
  | 7 => (s.parseBasin part va (dieOfMask c.mask)).map Order.deliver
  | 8 => (s.parseRound k va).map (fun x => .round x.1 x.2)
  | 9 => .ok .fencep
  | 10 => .ok (.deliver (.hostint c.pay))
  | 11 => .ok (.jump c.pay)
  | _ => .ok .stop

/-- Every slot in slot order: its form, and then its block. The first failure, with its slot. -/
def State.orders (s : State) (k : Nat) : List CmdSlot → Except (Nat × Stop) (List (CmdSlot × Order))
  | [] => .ok []
  | c :: r =>
    match c.form (s.fctxAt k).cpsize.toNat with
    | some e => .error (c.slot, .cause e)
    | none =>
      if !c.used then s.orders k r
      else
        match s.orderOf k c with
        | .error e => .error (c.slot, e)
        | .ok o => (s.orders k r).map (fun l => (c, o) :: l)

/-- Every earlier command of the context has completed. -/
def State.quietCmds (s : State) (k : Nat) : Bool :=
  let f := s.fctxAt k
  f.launch.isNone && f.sluiceCmds.isEmpty && s.deliveries.all (fun d => d.k ≠ k) && s.copyjobs.all (fun j => j.k ≠ k)
    && s.rounds.all (fun r => r.k ≠ k) && s.dev.intwait.all (fun w => w.1 ≠ k || w.2 = 0)

/-- The counts that a word's WAITQs ask of a semaphore. -/
def askedOf (l : List CmdSlot) (n : Nat) : Nat := (l.filter (fun c => c.kind = 2 && c.csem = n)).foldl (fun a c => a + c.count) 0

/-- The issue conditions of a word's slots (14 R244, R246; 16 R303). -/
def State.mayIssue (s : State) (k : Nat) (l : List CmdSlot) : Bool :=
  let f := s.fctxAt k
  l.all (fun c => match c.kind with
    | 1 => f.launch.isNone && (l.filter (fun d => d.kind = 1)).length = 1
    | 2 => askedOf l c.csem ≤ (sget 0 f.csem c.csem).toNat
    | 4 => f.launch.isSome
    | 8 => !s.roundWaits (partOfKey k) (f.blockVa c.pay)
    | 9 => s.quietCmds k
    | _ => true)

/-- The context stops with a cause at a slot of a word (14 R248). -/
def State.cmdFault (s : State) (k word slot : Nat) (c : Cause) : State :=
  (s.modFctx k (fun f => { f with
    cstate := .faulted, ccause := c.code, cword := BitVec.ofNat 24 word, cslot := BitVec.ofNat 2 slot })).msix k 0

/-- A delivery of a slot to a die at its skewed time (R247). -/
def State.schedule (s : State) (k die : Nat) (c : CmdSlot) (num word : Nat) (p : Payload) : State :=
  let due := s.ptime + (sget 0 (s.dieAt die).skew c.kind).toNat
  { s with deliveries := s.deliveries ++ [{ due, die, kind := c.kind, k, num, word, slot := c.slot, body := p }] }

/-- The dies of a mask. -/
def maskDies (m : Nat) : List Nat := (List.range 4).filter (fun d => m / 2 ^ d % 2 = 1)

/-- A slot of a word takes effect at its issue, or is scheduled. -/
def State.issueSlot (s : State) (k word : Nat) (x : CmdSlot × Order) : State :=
  let c := x.1
  let num := (s.fctxAt k).cmdno
  let s := s.modFctx k (fun f => { f with cmdno := f.cmdno + 1 })
  let toDies (s : State) (p : Payload) : State := (maskDies c.mask).foldl (fun s d => s.schedule k d c num word p) s
  match x.2 with
  | .launch l => toDies (s.modFctx k (fun f => { f with launch := some l })) .launch
  | .waitq n count => s.modFctx k (fun f => { f with csem := smod 0 f.csem n (fun v => v - BitVec.ofNat 32 count) })
  | .sluice va csem =>
    toDies (s.modFctx k (fun f => { f with
      sluiceCmds := f.sluiceCmds ++ [{ num, va, csem, waiting := BitVec.ofNat 4 c.mask }] })) (.sluice num)
  | .round r hyper =>
    let s := hyper.foldl (fun (s : State) h => s.modSet h.1 h.2.1 (fun y => { y with hyper := h.2.2, started := true })) s
    let s : State := { s with rounds := s.rounds ++ [{ r with num }] }
    toDies ((List.range 12).foldl State.releaseRows s) (.round num)
  | .deliver p => toDies s p
  | .fencep => s
  | .jump i => s.modFctx k (fun f => { f with head := BitVec.ofNat 24 i })
  | .stop => s.modFctx k (fun f => { f with cstate := .stopped })

/-- The index in the ring that HEAD names (14 R242). -/
def FCtx.at (f : FCtx) : Nat := f.head.toNat % f.cpsize.toNat

/-- The word at HEAD is pending. -/
def FCtx.wordPending (f : FCtx) : Bool := f.cstate = .running && f.at ≠ f.tail.toNat % f.cpsize.toNat

/-- The first kind of a word; none where it names no defined kind. -/
def leadKind (w : List Byte) : Option Nat :=
  match (slotsOf w).find? CmdSlot.used with
  | some c => if c.kind < 13 then some c.kind else none
  | none => none

/-- The word at HEAD issues, faults or waits. Its header is checked first, then its slots; a word whose slots' forms hold waits
for its issue conditions before its blocks are checked. -/
def State.issueWord (s : State) (k : Nat) (w : List Byte) : State :=
  let f := s.fctxAt k
  let word := f.at
  let l := slotsOf w
  let badForm := l.any (fun c => (c.form f.cpsize.toNat).isSome)
  if fieldAt w 3 1 ≠ 0 then s.cmdFault k word 0 .rsvd
  else if !badForm && !s.mayIssue k (l.filter CmdSlot.used) then s
  else
    match s.orders k l with
    | .error (slot, .cause c) => s.cmdFault k word slot c
    | .error (_, .wait w) => (s.waitFor (some (partOfKey k)) w).getD s
    | .ok os =>
      let s := s.modFctx k (fun f => { f with head := BitVec.ofNat 24 ((word + 1) % f.cpsize.toNat) })
      os.foldl (fun s x => s.issueSlot k word x) s

/-- The fontanier's handling of the word at HEAD of context k, where the word's first kind is the given one or none. -/
def State.command (s : State) (k kind : Nat) : State :=
  let f := s.fctxAt k
  if !f.wordPending then s
  else
    match s.block (partOfKey k) (f.cpbase.toNat + 16 * f.at) 16 with
    | .error (.cause c) => s.cmdFault k f.at 0 c
    | .error (.wait w) => (s.waitFor (some (partOfKey k)) w).getD s
    | .ok w => if (leadKind w).getD kind = kind then s.issueWord k w else s

def execLaunch (k : Nat) (s : State) : Host.Outcome State Fault Refusal := .next (s.command k 1)
def execWaitq (k : Nat) (s : State) : Host.Outcome State Fault Refusal := .next (s.command k 2)
def execSigq (k : Nat) (s : State) : Host.Outcome State Fault Refusal := .next (s.command k 3)
def execSluice (k : Nat) (s : State) : Host.Outcome State Fault Refusal := .next (s.command k 4)
def execCpyp (k : Nat) (s : State) : Host.Outcome State Fault Refusal := .next (s.command k 5)
def execBkcfg (k : Nat) (s : State) : Host.Outcome State Fault Refusal := .next (s.command k 6)
def execBasin (k : Nat) (s : State) : Host.Outcome State Fault Refusal := .next (s.command k 7)
def execRound (k : Nat) (s : State) : Host.Outcome State Fault Refusal := .next (s.command k 8)
def execFencep (k : Nat) (s : State) : Host.Outcome State Fault Refusal := .next (s.command k 9)
def execHostint (k : Nat) (s : State) : Host.Outcome State Fault Refusal := .next (s.command k 10)
def execJump (k : Nat) (s : State) : Host.Outcome State Fault Refusal := .next (s.command k 11)
def execStop (k : Nat) (s : State) : Host.Outcome State Fault Refusal := .next (s.command k 12)

/-! ### Deliveries (14 R247) -/

/-- A job of a die's copy engine starts with copies of the table (15 R273). -/
def State.startCopy (s : State) (d : Delivery) (src dst len : Nat) (csem : Option Nat) : State :=
  let part := partOfKey d.k
  let fps := [(src, len), (dst, len)]
  let es := (s.entriesFrom part 0).filter (fun e => e.valid && !e.reserved && e.kind ≠ 3 && fps.any (fun f => overlaps f (e.base * 256, e.size)))
  let j : CopyJob := { k := d.k, die := d.die, src, dst, len, done := 0, csem, tissue := s.ptime, copies := es.map (s.cachedOf part),
                       num := d.num, word := d.word, slot := d.slot }
  { s with copyjobs := s.copyjobs ++ [j] }

/-- A payload takes effect where it is delivered. -/
def State.deliverTo (s : State) (d : Delivery) : State :=
  match d.body with
  | .launch => s.deliverLaunch d.k d.die
  | .sigq n count => s.addCsem d.k n count
  | .sluice num => s.deliverSluice d.k d.die num
  | .cpyp src dst len csem => s.startCopy d src dst len csem
  | .bkcfg stack key x => (s.modBasin stack (fun y => { y with sets := sset y.sets key x })).openRound stack key x.round
  | .bkrelease stack key => s.modBasin stack (fun y => { y with sets := sdel y.sets key })
  | .basin stack key p =>
    -- the program is measured as it is loaded (23 R363)
    (s.modBasin stack (fun y => { y with progs := sset y.progs key p })).modPart (partOfKey d.k) (fun q => { q with
      pmr2 := extendMr q.pmr2 (p.words.flatMap (fun w => leBytes w.toNat 8)) })
  | .round num => { s with rounds := s.rounds.map (fun r => if r.k = d.k && r.num = num then { r with arrived := true } else r) }
  | .hostint v => s.msix d.k v

/-- An earlier delivery of the context to the die, of the same kind, or of an earlier slot of the word at the same time. -/
def Delivery.before (e d : Delivery) : Bool :=
  e.k = d.k && e.die = d.die && e.num < d.num && (e.kind = d.kind || (e.word = d.word && e.due = d.due))

/-- SLOT_DELIVERY: delivery i takes effect, at its scheduled time or later; a later one is counted. -/
def execSlotDelivery (i : Nat) (s : State) : Host.Outcome State Fault Refusal :=
  match s.deliveries[i]? with
  | none => .next s
  | some d =>
    if s.deliveries.any (fun e => e.before d) then .next s
    else match (match d.body with | .launch => s.waitFor none (s.launchWait d.k d.die) | _ => none) with
    | some t => .next t
    | none =>
      let s := if d.due < s.ptime then s.modFctx d.k (fun f => { f with skewlate := satInc f.skewlate }) else s
      let s : State := { s with now := max s.now (d.due * 9), deliveries := s.deliveries.eraseIdx i }
      .next (s.deliverTo d)

/-! ### CPYP (14 R245) -/

/-- 256 bytes of a copy's side, through its copies of the table. -/
def State.copyPieces (s : State) (copies : List Cached) (a : Access) (va : Nat) : Option (List (Loc × Nat)) :=
  if 13 * 2 ^ 48 < va + 256 then none
  else
    (pieces va 256 256).foldr (fun p r =>
      match copies.find? (fun c => c.entry.covers p.1) with
      | none => none
      | some c => match s.throughEntry c a false p.1 with | .error _ => none | .ok l => r.map (fun ls => (l, p.2) :: ls)) (some [])

/-- What a copy waits for at some places of a side that starts at a VA. -/
def State.agentWait (s : State) (va : Nat) (ps : List (Loc × Nat)) : Wait :=
  firstWait ((ps.zip (pieces va 256 256)).map (fun x => s.locWait x.1.1 (some x.2.1)))

/-- CPYP_COMPLETE: copy i writes its next granule, faults, or completes. -/
def execCpypComplete (i : Nat) (s : State) : Host.Outcome State Fault Refusal :=
  match s.copyjobs[i]? with
  | none => .next s
  | some j =>
    if j.len ≤ j.done then .next (({ s with copyjobs := s.copyjobs.eraseIdx i } : State).signalCsem j.k j.csem)
    else
      match s.copyPieces j.copies .load (j.src + j.done), s.copyPieces j.copies .store (j.dst + j.done) with
      | some src, some dst =>
        match s.waitFor (some (partOfKey j.k)) (firstWait [s.agentWait (j.src + j.done) src, s.agentWait (j.dst + j.done) dst]) with
        | some t => .next t
        | none =>
          let t := s.recallsMs src
          let t := t.wrPieces dst (t.rdPieces src)
          .next { t with copyjobs := t.copyjobs.set i { j with done := j.done + 256 } }
      | _, _ => .next (({ s with copyjobs := s.copyjobs.eraseIdx i } : State).cmdFault j.k j.word j.slot .copyFault)

/-! ### CCTL (14 R242, R253) -/

/-- A power of two from 4 to 2^24. -/
def ringSizeOk (n : Nat) : Bool := (List.range 23).any (fun i => n = 2 ^ (i + 2))

/-- CCTL_GO: a STOPPED or FAULTED context runs, or is FAULTED where its ring has no legal place. -/
def execCctlGo (k : Nat) (s : State) : Host.Outcome State Fault Refusal :=
  let f := s.fctxAt k
  if f.cstate = .running then .next s
  else if ringSizeOk f.cpsize.toNat && f.cpbase.toNat % 64 = 0 then
    .next (s.modFctx k (fun f => { f with cstate := .running, ccause := 0 }))
  else .next (s.modFctx k (fun f => { f with cstate := .faulted, ccause := Cause.format.code }))

/-- CCTL_HALT: a RUNNING context stops at once. -/
def execCctlHalt (k : Nat) (s : State) : Host.Outcome State Fault Refusal :=
  .next (s.modFctx k (fun f => if f.cstate = .running then { f with cstate := .stopped } else f))

/-- CCTL_KILL: the launch in flight ends. -/
def execCctlKill (k : Nat) (s : State) : Host.Outcome State Fault Refusal :=
  match (s.fctxAt k).launch with
  | some l => if l.ending.isSome then .next s else .next (s.endLaunch k 2)
  | none => .next s

end Sys2Proof.Machine
end

