-- ==== Sys2Proof/Machine/RangeEvents.lean ====
section
/-! DEFINITION. The completion of range changes (15 R272 to R274) and compaction (15 R275 to R277). -/

namespace Sys2Proof.Machine

/-! ### Completion (15 R272, R273) -/

/-- A job ahead of a marker has not ended. -/
def State.jobRuns (s : State) (x : Nat × Nat) : Bool :=
  match sget? (s.ctxAt x.1).jobs x.2 with | some j => !j.ended | none => false

/-- MARKER_DRAIN: every job ahead of the markers of change i has ended. -/
def execMarkerDrain (i : Nat) (s : State) : Host.Outcome State Fault Refusal :=
  match s.changes[i]? with
  | none => .next s
  | some c =>
    if c.ahead.any s.jobRuns || c.copies.any (fun n => s.copyjobs.any (fun j => j.num = n && partOfKey j.k = c.part)) then .next s
    else .next { s with changes := s.changes.set i { c with drained := true } }

/-- A queue entry that a change waits for has not performed. -/
def State.entryWaits (s : State) (x : Nat × Nat) : Bool :=
  let c := s.ctxAt x.1
  (c.ldq ++ c.stq).any (fun e => e.id = x.2)

/-- RANGE_CHANGE_COMPLETE: the lease has run out, the markers have drained and the old translations have performed. A RINV
performs; a flip or swap is noted for the ROUND or the compaction that waits for it. -/
def execRangeChangeComplete (i : Nat) (s : State) : Host.Outcome State Fault Refusal :=
  match s.changes[i]? with
  | none => .next s
  | some c =>
    if !c.drained || c.complete.isSome || c.entries.any s.entryWaits || s.ptime < c.time + (s.partAt c.part).leasens.toNat then .next s
    else
      let s1 : State := { s with changes := s.changes.eraseIdx i }
      let s2 : State := { s with changes := s.changes.set i { c with complete := some s.ptime } }
      if c.swap then .next s2
      else if c.flip then (if s.rounds.any (fun r => r.part = c.part && r.flip.isSome) then .next s2 else .next s1)
      else
        match c.issuer with
        | some (k, id) =>
          -- an access that has waited for the RINV walks afresh (15 R281)
          let s1 := match c.va with | some v => s1.modCoreAt (k / 8) (fun x => x.dropRange v) | none => s1
          .next (s1.modCtxAt k (fun x => x.dropEntry id))
        | none => .next s1

/-! ### Compaction (15 R276, R277) -/

/-- Every 256-byte line of an extent lies in windows 000 to 011. -/
def extentOk (a n : Nat) : Bool := a + n ≤ 2 ^ 50 && paValid a && paValid (a + n - 1) && paWin a = paWin (a + n - 1)

/-- The DRAM of a PA under window w, where w is one of the three that share it. -/
def sameDram (w pa : Nat) : Nat :=
  if w ≤ 2 && paWin pa ≤ 2 then (let p := hbmPlace pa; paOf w p.1 p.2) else pa

/-- Some line of the new extent lies in the DRAM of the old one. -/
def extentsMeet (old new n : Nat) : Bool :=
  (List.range (n / 256)).any (fun i => let a := sameDram (paWin old) (new + 256 * i); old ≤ a && a < old + n)

/-- The reason for which a GO is refused, or the entry. -/
def State.compactable (s : State) (p : Nat) : Except Nat RangeEntry :=
  let q := s.partAt p
  match s.walk p q.cmpva.toNat with
  | none => .error 1
  | some e =>
    let old := e.firstPa (e.offset * 256)
    let new := e.firstPa q.cmpoff.toNat
    if e.kind = 1 || e.host || e.remote || e.vers then .error 2
    else if e.lock then .error 3
    else if !extentOk new e.size || extentsMeet old new e.size then .error 4
    else if q.cmpoff.toNat % 256 ≠ 0 || paWin new ≠ e.win then .error 5
    else .ok e

/-- The entry of a partition that starts at a base is written. -/
def State.writeEntry (s : State) (p : Nat) (e : RangeEntry) : State :=
  match s.search p (e.base * 256) 18 0 ((s.partAt p).rtn.toNat - 1 : Int) none with
  | some i => s.setEntry p i e
  | none => s

/-- CMPCTL_GO: the engine locks the entry and copies, or refuses. -/
def execCmpctlGo (p : Nat) (s : State) : Host.Outcome State Fault Refusal :=
  let q := s.partAt p
  if q.cmpstate = .copy || q.cmpstate = .forward then .next s
  else
    match s.compactable p with
    | .error r => .next (s.modPart p (fun q => { q with cmpstate := .refused, cmpreason := BitVec.ofNat 8 r }))
    | .ok e =>
      .next ((s.writeEntry p { e with lock := true }).modPart p (fun q =>
        { q with cmpstate := .copy, cmpreason := 0, cmpnew := q.cmpoff.toNat, cmplines := 0, cmpentry := some e }))

/-- One 256-byte line is copied with its values and poison, once its directory entries have been recalled; the new line is stored
as its range says. -/
def State.copyLine (s : State) (old new : Nat) (cmpr : Bool) : State :=
  let s := [0, 128].foldl (fun s o =>
    ((s.countedRecall ((old + o) / 128)).countedRecall ((new + o) / 128)).homeWr (new + o) (s.cohRd (old + o) 128)) s
  s.modMem (fun m => match sget? m.l2 (new / 256) with
    | some x => { m with l2 := sset m.l2 (new / 256) { x with cmpr } }
    | none => m)

/-- What the engine waits for at a 256-byte line. -/
def State.lineWait (s : State) (pa : Nat) : Wait :=
  firstWait [s.locWait { space := .coh, pa }, s.locWait { space := .coh, pa := pa + 128 }]

/-- COMPACTION_SWAP: the engine copies the next line of the extent. When every line has been copied and the old extent is free,
its entries are recalled again, the entry takes its new offset, and accesses to the old extent are forwarded. -/
def execCompactionSwap (p : Nat) (s : State) : Host.Outcome State Fault Refusal :=
  let q := s.partAt p
  match q.cmpstate, q.cmpentry with
  | .copy, some e =>
    let old := e.firstPa (e.offset * 256)
    let new := e.firstPa q.cmpnew
    let n := e.size / 256
    let i := q.cmplines
    if i < n then
      match s.waitFor (some p) (firstWait [s.lineWait (old + 256 * i), s.lineWait (new + 256 * i)]) with
      | some t => .next t
      | none => .next ((s.copyLine (old + 256 * i) (new + 256 * i) e.cmpr).modPart p (fun q => { q with cmplines := i + 1 }))
    else
      let held := ((List.range (2 * n)).map (fun j => old / 128 + j)).filter (fun l => (sget? s.mem.dir l).isSome || s.lineBusy l)
      match s.waitFor (some p) (firstWait (held.map (fun l => s.locWait { space := .coh, pa := 128 * l }))) with
      | some t => .next t
      | none =>
        let s := held.foldl (fun s l => s.countedRecall l) s
        let s := s.writeEntry p { e with offset := q.cmpnew / 256, lock := true }
        let s := s.modPart p (fun q => { q with cmpstate := .forward })
        .next (s.startChange { part := p, time := 0, va := some (e.base * 256), len := e.size, swap := true })
  | _, _ => .next s

/-- COMPACTION_DONE: the change has completed; the entry is unlocked and nothing is forwarded any more. -/
def execCompactionDone (p : Nat) (s : State) : Host.Outcome State Fault Refusal :=
  let q := s.partAt p
  let mine (c : RangeChange) : Bool := c.part = p && c.swap && c.complete.isSome
  match q.cmpstate, q.cmpentry with
  | .forward, some e =>
    if !s.changes.any mine then .next s
    else
      let s := s.writeEntry p { e with offset := q.cmpnew / 256, lock := false }
      let s : State := { s with changes := s.changes.filter (fun c => !mine c) }
      .next (s.modPart p (fun q => { q with cmpstate := .done, cmpentry := none }))
  | _, _ => .next s

end Sys2Proof.Machine
end

