-- ==== Sys2Proof/Machine/Contexts.lean ====
section
/-! DEFINITION. Time slices, safe points, forced freezes and swaps of contexts (14 R257 to R260), and the weir's refills (14
R261, R262; 23 R370). -/

namespace Sys2Proof.Machine

/-! ### Runnable contexts (14 R257) -/

/-- The partition's cores, lost ones included, in ascending order. -/
def State.partCores (s : State) (p : Nat) : List Nat := (List.range 576).filter (fun c => s.ownsCluster p (c / 8))

def State.entryValid (s : State) (k : Nat) : Bool := match (s.fctxAt k).entry with | some e => e.valid | none => false

/-- A valid entry with a word to issue or to wait at, or with a launch, a sluice program or a copy in flight. -/
def State.runnable (s : State) (k : Nat) : Bool :=
  let f := s.fctxAt k
  s.entryValid k && (f.wordPending || f.launch.isSome || !f.sluiceCmds.isEmpty || s.copyjobs.any (fun j => j.k = k))

/-- The next runnable entry after entry i of a partition, wrapping; the entry itself is not considered. -/
def State.nextAfter (s : State) (p i : Nat) : Option Nat :=
  ((List.range 63).map (fun j => p * 64 + (i + 1 + j) % 64)).find? s.runnable

/-- The first runnable entry of a partition in which no context is resident. -/
def State.firstRunnable (s : State) (p : Nat) : Option Nat := ((List.range 64).map (fun j => p * 64 + j)).find? s.runnable

/-! ### The weir (14 R261, R262; 23 R370) -/

/-- Keys of the task contexts on the partition's cores. -/
def State.taskKeys (s : State) (p : Nat) : List Nat := (s.partCores p).flatMap (fun c => [0, 1, 2, 3].map (fun j => ctxKey c j))

/-- What one refill adds (23 R370). -/
def State.refillUnits (s : State) (k : Nat) : Nat := max ((s.fctxAt k).rate * s.dev.pscale.toNat / 256) 1

/-- Some refills of every budget of the resident context of a partition. -/
def State.refill (s : State) (p k : Nat) (times : Nat := 1) : State :=
  let n := times * s.refillUnits k
  let ceil := ((s.fctxAt k).entry.map (fun e => e.ceil)).getD 0
  (s.taskKeys p).foldl (fun s x => s.modCtxAt x (fun c => { c with ebudget := BitVec.ofNat 32 (min (c.ebudget.toNat + n) ceil) })) s

/-- Sum of EUNDER over the partition's task contexts. -/
def State.eunderSum (s : State) (p : Nat) : Nat := (s.taskKeys p).foldl (fun a x => a + (s.ctxAt x).eunder.toNat) 0

/-- The refills up to the n-th, for every context that is resident and not swapped in just now. -/
def State.refillTo (s : State) (n : Nat) : State :=
  let times := n - s.dev.refills
  let s : State := { s with dev := { s.dev with refills := n } }
  s.parts.foldl (fun (s : State) p =>
    match p.2.resident, p.2.swapping with
    | some k, none => s.refill p.1 k times
    | _, _ => s) s

/-- WEIR_REFILL: the refill that falls due at the next multiple of 1,000 ns. -/
def execWeirRefill (s : State) : Host.Outcome State Fault Refusal :=
  let n := s.dev.refills + 1
  .next (({ s with now := max s.now (9000 * n) } : State).refillTo n)

/-- The refills that are due have been made: those of a cycle precede its debits (07 R158). -/
def State.refilled (s : State) : State := if s.dev.refills < s.now / 9000 then s.refillTo (s.now / 9000) else s

/-- At the end of a slice, excess growth of EUNDER lowers RATE by an eighth, and telemetry is written (14 R262). -/
def State.checkUnder (s : State) (p k : Nat) : State :=
  let f := s.fctxAt k
  let limit := (f.entry.map (fun e => e.underlim)).getD 0
  if limit < s.eunderSum p - f.eunder0 then
    let r := max (f.rate - f.rate / 8) 16
    (s.modFctx k (fun f => { f with rate := r, entry := f.entry.map (fun e => { e with rate := r }) })).telemetry (partOfKey k) 2 (ctxidOf k)
  else s

/-! ### The expiry of a slice (14 R257, R258) -/

/-- Core numbers of the sluices that run a program of context k. -/
def State.sluicesOf (s : State) (k base : Nat) : List Nat :=
  [576, 577, 578, 579].filter (fun c =>
    let x := s.ctxAt (ctxKey (base + c) 0)
    x.phase ≠ .free && x.owner = k)

/-- Everything that must stop before a swap: the partition's cores, and the sluices of the context. -/
def State.stoppers (s : State) (p k : Nat) : List Nat := s.partCores p ++ s.sluicesOf k 0

/-- The core has nothing to run (09 R197). -/
def State.idleCore (s : State) (c : Nat) : Bool :=
  let k := s.coreAt c
  k.running.isNone && k.chosen.isNone && (k.inq.isEmpty || (s.dormant c).isNone) &&
    (List.range 8).all (fun j => !({ s with cur := { core := c } } : State).eligible j)

/-- SLICE_EXPIRY: the slice of the resident context ends. Where another entry is runnable, a stop is requested on every core,
and idle cores stop at once; otherwise a new slice starts. -/
def execSliceExpiry (p : Nat) (s : State) : Host.Outcome State Fault Refusal :=
  let q := s.partAt p
  match q.resident with
  | none => .next s
  | some k =>
    match (s.fctxAt k).since, (s.fctxAt k).entry with
    | some t, some e =>
      if q.expired.isSome || q.swapping.isSome then .next s
      else
        let x := t + 1000 * e.slice
        let s := ({ s with now := max s.now (9 * x) } : State).refilled.checkUnder p k
        let s := s.modFctx k (fun f => { f with since := some x, eunder0 := s.eunderSum p })
        match s.nextAfter p (entryOfKey k) with
        | none => .next s
        | some _ =>
          let s := s.modPart p (fun q => { q with expired := some (x + 1000 * e.plimit) })
          .next ((s.stoppers p k).foldl (fun (s : State) c =>
            let idle := s.idleCore c
            s.modCoreAt c (fun k => { k with stopReq := true, stopped := k.stopped || idle })) s)
    | _, _ => .next s

/-! ### Forced freezes (14 R258; 19 R326) -/

/-- The core stands where a freeze can take it: between bundles, or in a wait of a bundle that has issued. -/
def State.freezable (s : State) (core : Nat) : Bool :=
  match (s.coreAt core).running with
  | none => true
  | some j =>
    let c := s.ctxAt (ctxKey core j)
    !c.phwait.isEmpty || (c.hold = 0 && !c.bend)

/-- The core holds still: it has stopped and every fixed-latency result has landed, it is frozen, or it is lost. -/
def State.still (s : State) (core : Nat) : Bool :=
  let k := s.coreAt core
  k.frozen || s.dev.lost.contains core ||
    (k.stopped && (match k.running with | some j => (s.ctxAt (ctxKey core j)).pend.isEmpty | none => true))

/-- Results in flight of the running context become shadow latches. -/
def State.latchCore (s : State) (core : Nat) : State :=
  match (s.coreAt core).running with
  | none => s
  | some j => s.modCtxAt (ctxKey core j) (fun c => { c with latches := c.latch, pend := [] })

/-- And come back relative to the cycle in which the core goes on (19 R327). -/
def State.unlatchCore (s : State) (core : Nat) : State :=
  match (s.coreAt core).running with
  | none => s
  | some j =>
    s.modCtxAt (ctxKey core j) (fun c => { c with
      pend := c.pend ++ c.latches.map (fun x => { x with due := x.due + c.adv }), latches := [] })

/-- FORCED_FREEZE: at the pre-emption limit every core that has not stopped freezes at its next bundle boundary, and is
counted. -/
def execForcedFreeze (p : Nat) (s : State) : Host.Outcome State Fault Refusal :=
  let q := s.partAt p
  match q.expired, q.resident with
  | some t, some k =>
    let s : State := { s with now := max s.now (9 * t) }
    .next ((s.stoppers p k).foldl (fun (s : State) c =>
      if (s.coreAt c).stopped || (s.coreAt c).frozen || s.dev.lost.contains c || !s.freezable c then s
      else
        let s := (s.latchCore c).modCoreAt c (fun k => { k with frozen := true })
        if c < 576 then s.modPart p (fun q => { q with forcedfrz := satInc q.forcedfrz }) else s) s)
  | _, _ => .next s

/-! ### What moves with a context (14 R259) -/

/-- The map with its keys renamed. -/
def rekey {α : Type} (f : Nat → Nat) (m : SMap α) : SMap α := m.foldl (fun a e => sset a (f e.1) e.2) []

/-- A location in a scratchpad moves with its core. -/
def Loc.shift (l : Loc) (f : Nat → Nat) : Loc :=
  if l.space = .spad then { l with pa := f (l.pa / 2 ^ 21) * 2 ^ 21 + l.pa % 2 ^ 21 } else l

/-- The phasers and scratchpad places that a queue entry names. -/
def QOp.shift (o : QOp) (f ph : Nat → Nat) : QOp :=
  match o with
  | .phsig k => .phsig (ph k)
  | .phsw k => .phsw (ph k)
  | .jetmsg va m => .jetmsg va (m.shift f)
  | .rocall d obj m a => .rocall d obj m (a.shift f)
  | o => o

def QEntry.shift (e : QEntry) (f ph : Nat → Nat) : QEntry :=
  { e with op := e.op.shift f ph, locs := e.locs.map (fun l => (l.1.shift f, l.2)) }

/-- Job of a context; scratchpad lines are numbered from the first core's. -/
def Job.shift (j : Job) (f ph : Nat → Nat) : Job :=
  { j with phaser := j.phaser.map ph, lines := j.lines.map (fun l => (f (l.1 / 2 ^ 14) * 2 ^ 14 + l.1 % 2 ^ 14, l.2)) }

/-- A context whose core numbers change by f and whose phasers by ph. -/
def Ctx.shift (c : Ctx) (f ph : Nat → Nat) : Ctx :=
  { c with
    phwait := c.phwait.map (fun w => (ph w.1, w.2.1, w.2.2)),
    ldq := c.ldq.map (fun e => e.shift f ph), stq := c.stq.map (fun e => e.shift f ph),
    jobs := c.jobs.map (fun j => (j.1, j.2.shift f ph)) }

/-- Key of a context under a change of core numbers. -/
def keyShift (f : Nat → Nat) (k : Nat) : Nat := if k < 2 ^ 40 then f (k / 8) * 8 + k % 8 else k

/-- A phaser's members under it. -/
def Phaser.shift (p : Phaser) (g : Nat → Nat) : Phaser :=
  let m (x : Member) : Member := { x with ctx := g x.ctx }
  { p with members := p.members.map m, joining := p.joining.map m, leaving := p.leaving.map g }

/-- Whatever is on its way to a context knows it by its new key. -/
def State.renameCtxs (s : State) (g : Nat → Nat) : State :=
  let item (i : JetItem) : JetItem := match i with
    | .read p o m t a c d sl => .read p o m t a (g c) d sl
    | i => i
  let chg (c : RangeChange) : RangeChange :=
    { c with ahead := c.ahead.map (fun x => (g x.1, x.2)), entries := c.entries.map (fun x => (g x.1, x.2)),
             issuer := c.issuer.map (fun x => (g x.1, x.2)) }
  { s with
    changes := s.changes.map chg,
    mem := { s.mem with homeops := s.mem.homeops.map (fun o => { o with ctx := g o.ctx }) },
    calls := s.calls.map (fun c => { c with ctx := g c.ctx }),
    basins := s.basins.map (fun e => (e.1, { e.2 with inbound := e.2.inbound.map (fun c => { c with ctx := g c.ctx }) })),
    slices := s.slices.map (fun e =>
      (e.1, { e.2 with fifo := e.2.fifo.map (fun i => (i.1, item i.2)), run := e.2.run.map (fun r => { r with item := item r.item }),
                       msgs := e.2.msgs.map (fun m => (g m.1, m.2)) })) }

/-- The scratchpad of a core, with its line bits and poison, moves to another core number. -/
def Mem.moveSpad (m : Mem) (src dst : Nat) : Mem :=
  let a := spadAddr src 0
  let b := spadAddr dst 0
  let keep {α : Type} (x : SMap α) (sh : Nat) : SMap α := dropRangeOf (dropRangeOf x (a / sh) (2 ^ 21 / sh)) (b / sh) (2 ^ 21 / sh)
  let part {α : Type} (x : SMap α) (sh : Nat) : SMap α := x.filter (fun e => a / sh ≤ e.1 && e.1 < (a + 2 ^ 21) / sh)
  let full := m.full.filter (fun e => e.1 / 2 ^ 14 = src)
  { m with
    bytes := (part m.bytes 1).foldl (fun x e => mset x (b + (e.1 - a)) e.2) (keep m.bytes 1),
    pois := (part m.pois 32).foldl (fun x e => setFlag x (b / 32 + (e.1 - a / 32)) e.2) (keep m.pois 32),
    full := full.foldl (fun x e => setFlag x (dst * 2 ^ 14 + e.1 % 2 ^ 14) e.2)
              (m.full.filter (fun e => e.1 / 2 ^ 14 ≠ src && e.1 / 2 ^ 14 ≠ dst)) }

/-- What of a core is saved: the state of R259's core row, on the record of the core that it goes to. -/
def Core.receive (dst k : Core) : Core :=
  { dst with
    q := k.q, qstat := k.qstat, rrp := k.rrp, hrun := k.hrun, inq := k.inq, active := k.active, running := k.running,
    matq := k.matq, mat := {}, div0 := k.div0, div1 := k.div1, l1gran := k.l1gran, gated := k.gated, chosen := k.chosen,
    resident := none, h0 := {}, h1 := {}, ended := none, walk := none, missVa := none, mwalk := none, mmiss := none,
    stopReq := false, stopped := false, frozen := false }

/-- A core number leaves all its saved state to another one. -/
def State.moveCore (s : State) (src dst : Nat) : State :=
  let k := s.coreAt src
  let s := s.setCoreAt dst ((s.coreAt dst).receive k)
  let s := s.modCoreAt src (fun x => x.receive {})
  let s := s.modDie (dieOf src) (fun d => { d with walks := d.walks.filter (fun w => w.core ≠ src) })
  s.modMem (fun m => m.moveSpad src dst)

/-- Context k's state moves from the core numbers at base a to those at base b. -/
def State.moveContext (s : State) (k a b : Nat) : State :=
  let cores := s.partCores (partOfKey k) ++ s.sluicesOf k a
  let mine (c : Nat) : Bool := coreBase c = a && cores.contains (coreNo c)
  let f (c : Nat) : Nat := if mine c then b + coreNo c else c
  let ph (x : Nat) : Nat := x - a * 4 + b * 4
  let g := keyShift f
  let s := cores.foldl (fun s c => s.moveCore (a + c) (b + c)) s
  let phasers := match (s.fctxAt k).launch with | some l => l.phaserKeys a | none => []
  let ctxs := s.ctxs.map (fun e => if mine (e.1 / 8) then (e.1, e.2.shift f ph) else e)
  let s : State := { s with
    ctxs := rekey g ctxs,
    phasers := rekey (fun x => if phasers.contains x then ph x else x)
      (s.phasers.map (fun e => if phasers.contains e.1 then (e.1, e.2.shift g) else e)) }
  s.renameCtxs g

/-! ### Islands (23 R369) -/

/-- An island: those of control always run. -/
def Dev.island (d : Dev) (i : Nat) : Island := sget { gated := i < 700 } d.islands i

def Dev.setIslands (d : Dev) (l : List Nat) (f : Island → Island) : Dev :=
  { d with islands := l.foldl (fun m i => sset m i (f (d.island i))) d.islands }

/-- The core islands that run. -/
def Dev.coreIslands (d : Dev) : List Nat := (List.range 648).filter (fun i => !(d.island i).gated)

/-- The island of a logical core is that of the physical one which it stands for. -/
def State.islandOf (s : State) (core : Nat) : Nat := core / 8 * 9 + sget (core % 8) s.dev.coremap core

def State.gate (s : State) (l : List Nat) (gated : Bool) : State :=
  { s with dev := s.dev.setIslands l (fun x => { x with gated }) }

/-- The cores' islands are gated, or run. -/
def State.gateCores (s : State) (cores : List Nat) (gated : Bool) : State := s.gate (cores.map s.islandOf) gated

/-- What one island ran at, another goes on at. -/
def State.moveIsland (s : State) (a b : Nat) : State :=
  let x := s.dev.island a
  ({ s with dev := s.dev.setIslands [b] (fun _ => x) } : State).gate [a] true

/-! ### CONTEXT_SWAP (14 R259, R260) -/

/-- A footprint of the job lies in a scratchpad. -/
def Job.inSpad (j : Job) : Bool :=
  (cardFootprints j.kind j.card true ++ cardFootprints j.kind j.card false).any (fun f => 14 ≤ f.1 / 2 ^ 48) || j.kind = .slx ||
    (j.kind = .put && j.multicast)

/-- A job with a scratchpad footprint is paused at a granule boundary, and goes on when its context is back. -/
def Job.pause (j : Job) : Job := if j.st = .active && j.inSpad then { j with st := .paused } else j
def Job.unpause (j : Job) : Job := if j.st = .paused then { j with st := .active } else j

def State.modJobs (s : State) (core : Nat) (f : Job → Job) : State :=
  (List.range 8).foldl (fun s j =>
    if (s.ctxAt (ctxKey core j)).jobs.isEmpty then s
    else s.modCtxAt (ctxKey core j) (fun c => { c with jobs := c.jobs.map (fun e => (e.1, f e.2)) })) s

/-- The resident context leaves its cores. -/
def State.swapOut (s : State) (p k : Nat) : State :=
  let s := (s.stoppers p k).foldl (fun s c => ((s.stopMma c).emptyL1 c).modJobs c Job.pause) s
  (s.moveContext k 0 (imageBase k)).modFctx k (fun f => { f with since := none })

/-- Bytes of a context's image on a die: the scratchpad and the rest of the state of each of the partition's cores there (14
R259). -/
def State.imageBytes (s : State) (p die : Nat) : Nat :=
  ((s.partCores p).filter (fun c => c / 144 = die)).length * (2 ^ 21 + Config.coreImage)

/-- What each die's cistern has of the image: as much as has been staged, and no more than the partition's quota (14 R254, R260). -/
def State.stageImage (s : State) (p k : Nat) : State :=
  let quota := ((s.partAt p).config.map (fun c => c.quota)).getD 0
  ({ s with freeIx := s.freeIx + 1 } : State).modFctx k (fun f => { f with
    cistern := [0, 1, 2, 3].map (fun d => (d, min quota (Config.staged d s.freeIx))) })

/-- Every die's cistern has all of its part of the image. -/
def State.wholly (s : State) (p k : Nat) : Bool :=
  [0, 1, 2, 3].all (fun d => s.imageBytes p d ≤ sget 0 (s.fctxAt k).cistern d)

/-- A context takes the partition's cores; HMAX comes from its entry (14 R256). -/
def State.swapIn (s : State) (p k : Nat) : State :=
  let s := ((s.stageImage p k).gateCores (s.partCores p) false).moveContext k (imageBase k) 0
  let hmax := ((s.fctxAt k).entry.map (fun e => e.hmax)).getD 8
  let s := (s.stoppers p k).foldl (fun s c =>
    (s.unlatchCore c).modJobs c Job.unpause |>.modCoreAt c (fun x => { x with hmax := BitVec.ofNat 4 hmax, resident := some k })) s
  s.modPart p (fun q => { q with resident := some k, swapping := some k, expired := none, swapAt := s.ptime })

/-- CONTEXT_SWAP: once every core holds still, each core's state is exchanged with the image of the next runnable context; a
partition without a resident context takes its first runnable one. -/
def execContextSwap (p : Nat) (s : State) : Host.Outcome State Fault Refusal :=
  let s := s.refilled
  let q := s.partAt p
  if q.swapping.isSome then .next s
  else
    match q.resident with
    | none => (match s.firstRunnable p with | some k => .next (s.swapIn p k) | none => .next s)
    | some r =>
      if q.expired.isNone || !(s.stoppers p r).all s.still then .next s
      else
        match s.nextAfter p (entryOfKey r) with
        | some k =>
          (match s.waitFor none (firstWait ((s.stoppers p r).map s.emptyWait)) with
           | some t => .next t
           | none => .next ((s.swapOut p r).swapIn p k))
        | none =>
          -- every other context has ended meanwhile: the resident one goes on
          let s := (s.stoppers p r).foldl (fun s c =>
            (s.unlatchCore c).modCoreAt c (fun x => { x with stopReq := false, stopped := false, frozen := false })) s
          .next (s.modPart p (fun q => { q with expired := none }))

/-! ### SWAP_IN_COMPLETE (14 R259 to R261) -/

/-- The segments that a core expands again after a swap-in, with the context slot of each: the running one, and the target of its
prefetch engine. -/
def State.again (s : State) (core : Nat) : List (Nat × Nat) :=
  let t : State := { s with cur := { core } }
  let run := match t.core.running with | some j => [(j, (t.atSlot j).ctx.hdr.va)] | none => []
  run ++ (match t.prefetch with | some x => if run.any (fun y => y.2 = x.2) then [] else [x] | none => [])

/-- The expansions wait for a line, with the state that has asked for it. -/
def State.againWait (s : State) (core : Nat) : Option State :=
  (s.again core).findSome? (fun x =>
    let t : State := { s with cur := { core, slot := x.1 } }
    (t.codeFill (t.expandWait x.2)).map (fun u => { u with cur := s.cur }))

/-- The halves of a core after a swap-in. A start goes on with the body that it has begun, which is never mixed (03 R59). -/
def State.refillHalves (s : State) (core : Nat) : State :=
  let l := s.again core
  let at_ (i : Nat) : State := { s with cur := { core, slot := (l.getD i (0, 0)).1 } }
  let half (i : Nat) : Half := match l[i]? with | some x => (at_ i).expand x.2 | none => {}
  let t := l.zipIdx.foldl (fun (s : State) x =>
    { (((at_ x.2).recallCode x.1.2 (pieces x.1.2 64 64)).recallCode x.1.2 ((at_ x.2).bodyPieces x.1.2)) with cur := s.cur }) s
  if l.isEmpty then s
  else t.modCoreAt core (fun k => { k with h0 := half 0, h1 := half 1, ended := if k.running.isSome then some false else none })

/-- SWAP_IN_COMPLETE: the expansions are complete, the slice starts and the budgets are refilled once. An image that was not
wholly staged within the quota comes later than 12 µs and is counted. -/
def execSwapInComplete (p : Nat) (s : State) : Host.Outcome State Fault Refusal :=
  let q := s.partAt p
  match q.swapping with
  | none => .next s
  | some k =>
    match (s.stoppers p k).findSome? s.againWait with
    | some t => .next t
    | none =>
    let late := !s.wholly p k || q.swapAt + 12000 < s.ptime
    let s : State := { s with now := if late then max s.now (9 * (q.swapAt + 12001)) else s.now }
    let s := s.refilled.modFctx k (fun f => { f with cistern := [] })
    let s := if late then s.modPart p (fun q => { q with swaplate := satInc q.swaplate }) else s
    let s := (s.stoppers p k).foldl State.refillHalves s
    let s := s.modPart p (fun q => { q with swapping := none })
    let s := s.modFctx k (fun f => { f with since := some s.ptime, eunder0 := s.eunderSum p })
    .next (s.refill p k)

/-! ### SCRATCHPAD_BANK_WAKE (10 R218) -/

/-- SCRATCHPAD_BANK_WAKE: a gated 256 KiB bank is cleared, its lines empty, and is gated no longer. -/
def execScratchpadBankWake (core bank : Nat) (s : State) : Host.Outcome State Fault Refusal :=
  if !(s.coreAt core).gated.getLsbD bank then .next s
  else .next (s.wakeBank core bank)

end Sys2Proof.Machine
end

