-- ==== Sys2Proof/Machine/Riscv.lean ====
section
/-! DEFINITION. The RV64IMAC, Zba and Zbb instructions of a jet core (17 R306): decoding, the expansion of 16-bit forms, and
what an instruction asks for. -/

namespace Sys2Proof.Machine

/-! ### Fields -/

/-- Bits hi down to lo of a number. -/
def bits (w hi lo : Nat) : Nat := w / 2 ^ lo % 2 ^ (hi + 1 - lo)
/-- Bit i of a number, moved to place k. -/
def bitTo (w i k : Nat) : Nat := w / 2 ^ i % 2 * 2 ^ k
/-- A number of n bits as a signed one. -/
def sgn (n v : Nat) : Int := if v < 2 ^ (n - 1) then v else (v : Int) - 2 ^ n

def immI (w : Nat) : Int := sgn 12 (bits w 31 20)
def immS (w : Nat) : Int := sgn 12 (bits w 31 25 * 32 + bits w 11 7)
def immB (w : Nat) : Int := sgn 13 (bitTo w 31 12 + bitTo w 7 11 + bits w 30 25 * 32 + bits w 11 8 * 2)
def immU (w : Nat) : Int := sgn 32 (bits w 31 12 * 4096)
def immJ (w : Nat) : Int := sgn 21 (bitTo w 31 20 + bits w 19 12 * 4096 + bitTo w 20 11 + bits w 30 21 * 2)

/-- A 32-bit result, sign-extended. -/
def sext32 (v : BitVec 32) : Word := v.signExtend 64
def low32 (v : Word) : BitVec 32 := v.setWidth 32

/-! ### 16-bit forms -/

def encI (imm : Nat) (rs f rd op : Nat) : Nat := imm % 4096 * 2 ^ 20 + rs * 2 ^ 15 + f * 2 ^ 12 + rd * 2 ^ 7 + op
def encR (f7 rs2 rs1 f rd op : Nat) : Nat := f7 * 2 ^ 25 + rs2 * 2 ^ 20 + rs1 * 2 ^ 15 + f * 2 ^ 12 + rd * 2 ^ 7 + op
def encS (imm rs2 rs1 f op : Nat) : Nat := bits imm 11 5 * 2 ^ 25 + rs2 * 2 ^ 20 + rs1 * 2 ^ 15 + f * 2 ^ 12 + bits imm 4 0 * 2 ^ 7 + op
def encB (imm rs2 rs1 f : Nat) : Nat :=
  bitTo imm 12 31 + bits imm 10 5 * 2 ^ 25 + rs2 * 2 ^ 20 + rs1 * 2 ^ 15 + f * 2 ^ 12 + bits imm 4 1 * 2 ^ 8 + bitTo imm 11 7 + 0x63
def encJ (imm rd : Nat) : Nat :=
  bitTo imm 20 31 + bits imm 10 1 * 2 ^ 21 + bitTo imm 11 20 + bits imm 19 12 * 2 ^ 12 + rd * 2 ^ 7 + 0x6F

/-- An n-bit number sign-extended to m bits. -/
def widen (n m v : Nat) : Nat := if v < 2 ^ (n - 1) then v else v + 2 ^ m - 2 ^ n

/-- Quadrant 0. -/
def expand0 (h : Nat) : Option Nat :=
  let rd := 8 + bits h 4 2
  let rs := 8 + bits h 9 7
  let uw := bits h 12 10 * 8 + bitTo h 6 2 + bitTo h 5 6
  let ud := bits h 12 10 * 8 + bits h 6 5 * 64
  match bits h 15 13 with
  | 0 =>
    let imm := bits h 12 11 * 16 + bits h 10 7 * 64 + bitTo h 6 2 + bitTo h 5 3
    if imm = 0 then none else some (encI imm 2 0 rd 0x13)
  | 2 => some (encI uw rs 2 rd 0x03)
  | 3 => some (encI ud rs 3 rd 0x03)
  | 6 => some (encS uw rd rs 2 0x23)
  | 7 => some (encS ud rd rs 3 0x23)
  | _ => none

/-- The register operations of quadrant 1. -/
def expandAlu (h : Nat) : Option Nat :=
  let rd := 8 + bits h 9 7
  let rs := 8 + bits h 4 2
  let sh := bitTo h 12 5 + bits h 6 2
  match bits h 11 10 with
  | 0 => some (encI sh rd 5 rd 0x13)
  | 1 => some (encI (sh + 0x400) rd 5 rd 0x13)
  | 2 => some (encI (widen 6 12 sh) rd 7 rd 0x13)
  | _ =>
    match bits h 12 12 * 4 + bits h 6 5 with
    | 0 => some (encR 0x20 rs rd 0 rd 0x33)
    | 1 => some (encR 0 rs rd 4 rd 0x33)
    | 2 => some (encR 0 rs rd 6 rd 0x33)
    | 3 => some (encR 0 rs rd 7 rd 0x33)
    | 4 => some (encR 0x20 rs rd 0 rd 0x3B)
    | 5 => some (encR 0 rs rd 0 rd 0x3B)
    | _ => none

/-- Quadrant 1. -/
def expand1 (h : Nat) : Option Nat :=
  let rd := bits h 11 7
  let imm := widen 6 12 (bitTo h 12 5 + bits h 6 2)
  let j := bitTo h 12 11 + bitTo h 11 4 + bits h 10 9 * 256 + bitTo h 8 10 + bitTo h 7 6 + bitTo h 6 7 + bits h 5 3 * 2 + bitTo h 2 5
  let b := bitTo h 12 8 + bits h 11 10 * 8 + bits h 6 5 * 64 + bits h 4 3 * 2 + bitTo h 2 5
  let rs := 8 + bits h 9 7
  match bits h 15 13 with
  | 0 => some (encI imm rd 0 rd 0x13)
  | 1 => if rd = 0 then none else some (encI imm rd 0 rd 0x1B)
  | 2 => some (encI imm 0 0 rd 0x13)
  | 3 =>
    if rd = 2 then
      let k := bitTo h 12 9 + bitTo h 6 4 + bitTo h 5 6 + bits h 4 3 * 128 + bitTo h 2 5
      if k = 0 then none else some (encI (widen 10 12 k) 2 0 2 0x13)
    else
      let k := bitTo h 12 5 + bits h 6 2
      if k = 0 then none else some (widen 6 20 k * 4096 + rd * 128 + 0x37)
  | 4 => expandAlu h
  | 5 => some (encJ (widen 12 21 j) 0)
  | 6 => some (encB (widen 9 13 b) 0 rs 0)
  | _ => some (encB (widen 9 13 b) 0 rs 1)

/-- Quadrant 2. -/
def expand2 (h : Nat) : Option Nat :=
  let rd := bits h 11 7
  let rs := bits h 6 2
  match bits h 15 13 with
  | 0 => some (encI (bitTo h 12 5 + rs) rd 1 rd 0x13)
  | 2 => if rd = 0 then none else some (encI (bitTo h 12 5 + bits h 6 4 * 4 + bits h 3 2 * 64) 2 2 rd 0x03)
  | 3 => if rd = 0 then none else some (encI (bitTo h 12 5 + bits h 6 5 * 8 + bits h 4 2 * 64) 2 3 rd 0x03)
  | 4 =>
    if bits h 12 12 = 0 then
      if rs = 0 then (if rd = 0 then none else some (encI 0 rd 0 0 0x67)) else some (encR 0 rs 0 0 rd 0x33)
    else if rs = 0 then (if rd = 0 then some 0x00100073 else some (encI 0 rd 0 1 0x67))
    else some (encR 0 rs rd 0 rd 0x33)
  | 6 => some (encS (bits h 12 9 * 4 + bits h 8 7 * 64) rs 2 2 0x23)
  | 7 => some (encS (bits h 12 10 * 8 + bits h 9 7 * 64) rs 2 3 0x23)
  | _ => none

/-- The 32-bit instruction that a 16-bit one stands for. -/
def expandC (h : Nat) : Option Nat :=
  match h % 4 with
  | 0 => expand0 h
  | 1 => expand1 h
  | 2 => expand2 h
  | _ => none

/-! ### Register operations -/

/-- Quotient and remainder of M, with their corner results of a zero divisor and of overflow. -/
def rvDiv (n : Nat) (a b : Int) : Int := if b = 0 then -1 else if a = -(2 ^ (n - 1)) && b = -1 then a else Int.tdiv a b
def rvRem (n : Nat) (a b : Int) : Int := if b = 0 then a else if a = -(2 ^ (n - 1)) && b = -1 then 0 else Int.tmod a b
def rvDivu (n a b : Nat) : Nat := if b = 0 then 2 ^ n - 1 else a / b
def rvRemu (a b : Nat) : Nat := if b = 0 then a else a % b

/-- Leading zeros of an n-bit number, trailing zeros, ones. -/
def clzN (n v : Nat) : Nat := ((List.range n).takeWhile (fun i => v / 2 ^ (n - 1 - i) % 2 = 0)).length
def ctzN (n v : Nat) : Nat := ((List.range n).takeWhile (fun i => v / 2 ^ i % 2 = 0)).length
def popN (n v : Nat) : Nat := ((List.range n).filter (fun i => v / 2 ^ i % 2 = 1)).length

/-- ORC.B and REV8. -/
def orcB (v : Word) : Word :=
  BitVec.ofNat 64 ((List.range 8).foldl (fun a i => a + (if v.toNat / 2 ^ (8 * i) % 256 = 0 then 0 else 255 * 2 ^ (8 * i))) 0)
def rev8 (v : Word) : Word := BitVec.ofNat 64 ((List.range 8).foldl (fun a i => a + v.toNat / 2 ^ (8 * i) % 256 * 2 ^ (56 - 8 * i)) 0)

/-- OP (major opcode 0x33). -/
def rvOp (f7 f : Nat) (a b : Word) : Option Word :=
  let sh := b.toNat % 64
  match f7, f with
  | 0, 0 => some (a + b)
  | 0, 1 => some (a <<< sh)
  | 0, 2 => some (if a.slt b then 1 else 0)
  | 0, 3 => some (if a.ult b then 1 else 0)
  | 0, 4 => some (a ^^^ b)
  | 0, 5 => some (a >>> sh)
  | 0, 6 => some (a ||| b)
  | 0, 7 => some (a &&& b)
  | 0x20, 0 => some (a - b)
  | 0x20, 5 => some (a.sshiftRight sh)
  | 0x20, 4 => some (~~~(a ^^^ b))
  | 0x20, 6 => some (a ||| ~~~b)
  | 0x20, 7 => some (a &&& ~~~b)
  | 1, 0 => some (a * b)
  | 1, 1 => some (BitVec.ofInt 64 (a.toInt * b.toInt / 2 ^ 64))
  | 1, 2 => some (BitVec.ofInt 64 (a.toInt * (b.toNat : Int) / 2 ^ 64))
  | 1, 3 => some (BitVec.ofNat 64 (a.toNat * b.toNat / 2 ^ 64))
  | 1, 4 => some (BitVec.ofInt 64 (rvDiv 64 a.toInt b.toInt))
  | 1, 5 => some (BitVec.ofNat 64 (rvDivu 64 a.toNat b.toNat))
  | 1, 6 => some (BitVec.ofInt 64 (rvRem 64 a.toInt b.toInt))
  | 1, 7 => some (BitVec.ofNat 64 (rvRemu a.toNat b.toNat))
  | 0x10, 2 => some ((a <<< 1) + b)
  | 0x10, 4 => some ((a <<< 2) + b)
  | 0x10, 6 => some ((a <<< 3) + b)
  | 5, 4 => some (if a.slt b then a else b)
  | 5, 5 => some (if a.ult b then a else b)
  | 5, 6 => some (if a.slt b then b else a)
  | 5, 7 => some (if a.ult b then b else a)
  | 0x30, 1 => some (a.rotateLeft sh)
  | 0x30, 5 => some (a.rotateRight sh)
  | _, _ => none

/-- OP-32 (0x3B). -/
def rvOp32 (f7 f rs2 : Nat) (a b : Word) : Option Word :=
  let x := low32 a
  let y := low32 b
  let sh := b.toNat % 32
  match f7, f with
  | 0, 0 => some (sext32 (x + y))
  | 0x20, 0 => some (sext32 (x - y))
  | 0, 1 => some (sext32 (x <<< sh))
  | 0, 5 => some (sext32 (x >>> sh))
  | 0x20, 5 => some (sext32 (x.sshiftRight sh))
  | 1, 0 => some (sext32 (x * y))
  | 1, 4 => some (sext32 (BitVec.ofInt 32 (rvDiv 32 x.toInt y.toInt)))
  | 1, 5 => some (sext32 (BitVec.ofNat 32 (rvDivu 32 x.toNat y.toNat)))
  | 1, 6 => some (sext32 (BitVec.ofInt 32 (rvRem 32 x.toInt y.toInt)))
  | 1, 7 => some (sext32 (BitVec.ofNat 32 (rvRemu x.toNat y.toNat)))
  | 4, 0 => some (x.setWidth 64 + b)
  | 4, 4 => if rs2 = 0 then some ((a.setWidth 16).setWidth 64) else none
  | 0x10, 2 => some ((x.setWidth 64 <<< 1) + b)
  | 0x10, 4 => some ((x.setWidth 64 <<< 2) + b)
  | 0x10, 6 => some ((x.setWidth 64 <<< 3) + b)
  | 0x30, 1 => some (sext32 (x.rotateLeft sh))
  | 0x30, 5 => some (sext32 (x.rotateRight sh))
  | _, _ => none

/-- OP-IMM (0x13). -/
def rvImm (w f : Nat) (a : Word) : Option Word :=
  let imm := BitVec.ofInt 64 (immI w)
  let sh := bits w 25 20
  let f6 := bits w 31 26
  let i12 := bits w 31 20
  match f with
  | 0 => some (a + imm)
  | 2 => some (if a.slt imm then 1 else 0)
  | 3 => some (if a.ult imm then 1 else 0)
  | 4 => some (a ^^^ imm)
  | 6 => some (a ||| imm)
  | 7 => some (a &&& imm)
  | 1 =>
    if f6 = 0 then some (a <<< sh)
    else match i12 with
      | 0x600 => some (BitVec.ofNat 64 (clzN 64 a.toNat))
      | 0x601 => some (BitVec.ofNat 64 (ctzN 64 a.toNat))
      | 0x602 => some (BitVec.ofNat 64 (popN 64 a.toNat))
      | 0x604 => some ((a.setWidth 8).signExtend 64)
      | 0x605 => some ((a.setWidth 16).signExtend 64)
      | _ => none
  | _ =>
    if f6 = 0 then some (a >>> sh)
    else if f6 = 0x10 then some (a.sshiftRight sh)
    else if f6 = 0x18 then some (a.rotateRight sh)
    else if i12 = 0x287 then some (orcB a)
    else if i12 = 0x6B8 then some (rev8 a)
    else none

/-- OP-IMM-32 (0x1B). -/
def rvImm32 (w f : Nat) (a : Word) : Option Word :=
  let x := low32 a
  let sh := bits w 24 20
  let f7 := bits w 31 25
  match f with
  | 0 => some (sext32 (x + BitVec.ofInt 32 (immI w)))
  | 1 =>
    if f7 = 0 then some (sext32 (x <<< sh))
    else if f7 / 2 = 2 then some (x.setWidth 64 <<< bits w 25 20)
    else match bits w 31 20 with
      | 0x600 => some (BitVec.ofNat 64 (clzN 32 x.toNat))
      | 0x601 => some (BitVec.ofNat 64 (ctzN 32 x.toNat))
      | 0x602 => some (BitVec.ofNat 64 (popN 32 x.toNat))
      | _ => none
  | 5 =>
    match f7 with
    | 0 => some (sext32 (x >>> sh))
    | 0x20 => some (sext32 (x.sshiftRight sh))
    | 0x30 => some (sext32 (x.rotateRight sh))
    | _ => none
  | _ => none

/-- The new value of an AMO of n bytes, from the old one as an n-byte number. -/
def amoNew (f5 n : Nat) (old x : Nat) : Option Nat :=
  let m := 2 ^ (8 * n)
  let s (v : Nat) : Int := sgn (8 * n) (v % m)
  match f5 with
  | 0 => some ((old + x) % m)
  | 1 => some (x % m)
  | 4 => some ((old ^^^ x) % m)
  | 8 => some ((old ||| x) % m)
  | 0xC => some ((old &&& x) % m)
  | 0x10 => some (if s old ≤ s x then old else x % m)
  | 0x14 => some (if s old ≤ s x then x % m else old)
  | 0x18 => some (min old (x % m))
  | 0x1C => some (max old (x % m))
  | _ => none

/-- A branch is taken. -/
def rvTaken (f : Nat) (a b : Word) : Option Bool :=
  match f with
  | 0 => some (a = b)
  | 1 => some (a ≠ b)
  | 4 => some (a.slt b)
  | 5 => some (!a.slt b)
  | 6 => some (a.ult b)
  | 7 => some (!a.ult b)
  | _ => none

/-! ### What an instruction asks for -/

/-- The effect of an instruction, up to its access to memory. -/
inductive RvOp
  /-- A register takes a value. -/
  | put (rd : Nat) (v : Word)
  | nop
  /-- The pc takes a value, and a register the address after the instruction. -/
  | jump (rd : Nat) (target : Word)
  | load (rd n : Nat) (signed : Bool) (a : Word)
  | store (n : Nat) (a v : Word)
  | lr (rd n : Nat) (a : Word)
  | sc (rd n : Nat) (a v : Word)
  | amo (f5 rd n : Nat) (a v : Word)
  /-- ECALL and EBREAK. -/
  | call
  | illegal
  deriving DecidableEq, Repr

def putOr (rd : Nat) : Option Word → RvOp
  | some v => .put rd v
  | none => .illegal

/-- The instruction w of 32 bits at address pc, with registers x, in U mode. -/
def rvDecode (w : Nat) (x : Nat → Word) (pc : Word) : RvOp :=
  let rd := bits w 11 7
  let f := bits w 14 12
  let f7 := bits w 31 25
  let a := x (bits w 19 15)
  let b := x (bits w 24 20)
  match bits w 6 0 with
  | 0x37 => .put rd (BitVec.ofInt 64 (immU w))
  | 0x17 => .put rd (pc + BitVec.ofInt 64 (immU w))
  | 0x6F => .jump rd (pc + BitVec.ofInt 64 (immJ w))
  | 0x67 => if f = 0 then .jump rd ((a + BitVec.ofInt 64 (immI w)) &&& ~~~1) else .illegal
  | 0x63 =>
    match rvTaken f a b with
    | none => .illegal
    | some true => .jump 0 (pc + BitVec.ofInt 64 (immB w))
    | some false => .nop
  | 0x03 => if f = 7 then .illegal else .load rd (2 ^ (f % 4)) (f < 4) (a + BitVec.ofInt 64 (immI w))
  | 0x23 => if 4 ≤ f then .illegal else .store (2 ^ f) (a + BitVec.ofInt 64 (immS w)) b
  | 0x13 => putOr rd (rvImm w f a)
  | 0x1B => putOr rd (rvImm32 w f a)
  | 0x33 => putOr rd (rvOp f7 f a b)
  | 0x3B => putOr rd (rvOp32 f7 f (bits w 24 20) a b)
  | 0x0F => if f ≤ 1 then .nop else .illegal
  | 0x2F =>
    let n := 2 ^ f
    let f5 := bits w 31 27
    if f ≠ 2 && f ≠ 3 then .illegal
    else if f5 = 2 then (if bits w 24 20 = 0 then .lr rd n a else .illegal)
    else if f5 = 3 then .sc rd n a b
    else if (amoNew f5 n 0 0).isSome then .amo f5 rd n a b else .illegal
  | 0x73 => if w = 0x73 || w = 0x00100073 then .call else .illegal
  | _ => .illegal

end Sys2Proof.Machine
end

