-- ==== Sys2Proof/Machine/Jet.lean ====
section
/-! DEFINITION. Jet cores (17 R306 to R313) and the replay of objects (17 R316 to R319): events, runs, instructions, kills. -/

namespace Sys2Proof.Machine

/-! ### What a run is about -/

/-- Partition of a FIFO entry. -/
def JetItem.part : JetItem → Nat
  | .event _ p _ _ _ _ _ _ _ => p
  | .replay p _ => p
  | .read p _ _ _ _ _ _ _ => p

/-- The handler table entry of an index. -/
def State.jetHandler (s : State) (part jet : Nat) : Option JetHandler :=
  ((s.partAt part).config.bind (fun c => c.handlers.find? (fun h => h.1 = jet))).map (·.2)

/-- Object, method and arguments of a method run, and the position in a1: the next log record that the replica of the die has
not applied, or a read-only call's tail. -/
structure MethodRun where
  obj : Nat
  method : Nat
  pos : Nat
  args : Nat
  deriving DecidableEq, Repr

/-- Die of a replay engine's replica (17 R314). -/
def replicaDie (sl : Nat) : Nat := sl / 12

def State.methodOf (s : State) (sl : Nat) (i : JetItem) : Option MethodRun :=
  match i with
  | .event _ _ _ _ _ _ _ _ _ => none
  | .replay p obj =>
    let o := s.objAt p obj
    let pos := o.appliedAt (replicaDie sl)
    let r := (sget 0 o.records (pos % 4096)).toNat
    if o.tail ≤ pos then none else some { obj, method := r / 2 ^ 48 % 256, pos, args := r / 2 ^ 128 }
  | .read _ obj m tail args _ _ _ => some { obj, method := m, pos := tail, args := args.toNat % 2 ^ 384 }

/-- Base of an instruction's offset in a jet core's SRAM, and the bytes that may be fetched from it: a handler's window, or a
method's code (17 R306). -/
def State.codePlace (s : State) (i : JetItem) : Option (Nat × Nat) :=
  match i with
  | .event _ p jet _ _ _ _ _ _ => (s.jetHandler p jet).map (fun h => (h.winbase, h.winsize))
  | .replay p obj => ((s.partAt p).code.find? (fun c => c.1 = obj)).map (fun c => (c.2.1, c.2.2))
  | .read p obj _ _ _ _ _ _ => ((s.partAt p).code.find? (fun c => c.1 = obj)).map (fun c => (c.2.1, c.2.2))

/-- n bytes of a jet core's SRAM. -/
def State.sram (s : State) (sl off n : Nat) : Nat := leNat (mgets s.mem.bytes (jetAddr sl off) n)

/-- BUDGET or MBUDGET of a run (17 R307, R314). -/
def State.budgetOf (s : State) (i : JetItem) : Nat :=
  let b := match i with
    | .event _ p jet _ _ _ _ _ _ => ((s.jetHandler p jet).map (·.budget)).getD 0
    | .replay p obj => ((s.desc p obj).map (·.mbudget)).getD 0
    | .read p obj _ _ _ _ _ _ => ((s.desc p obj).map (·.mbudget)).getD 0
  if b = 0 then 2000 else b

/-- Code offset of a method: from the descriptor, or from the first 32 bytes of the code image (17 R314). -/
def State.methodEntry (s : State) (sl part : Nat) (m : MethodRun) (base : Nat) : Nat :=
  if m.method < 16 then (((s.desc part m.obj).map (·.entry)).getD []).getD m.method 0
  else s.sram sl (base + 2 * (m.method - 16)) 2

def JetRun.reg (r : JetRun) (i : Nat) : Word := if i = 0 then 0 else sget 0 r.x i
def JetRun.set (r : JetRun) (i : Nat) (v : Word) : JetRun := if i = 0 then r else { r with x := sset r.x i v }

def setRegs (l : List (Nat × Word)) (r : JetRun) : JetRun := l.foldl (fun r e => r.set e.1 e.2) r

def eventNo : JetEvent → Nat
  | .miss => 0
  | .fill => 1
  | .evict => 2
  | .msg => 3

/-! ### JET_EVENT (17 R308, R309) -/

/-- The raised event that the arguments name. -/
def Slice.raisedAt (x : Slice) (ev : JetEvent) (pa requester : Nat) : Option Nat :=
  x.raised.findIdx? (fun i => match i.2 with
    | .event e _ _ _ r _ _ _ a => e = ev && r = requester && a / 256 = pa / 256
    | _ => false)

/-- Another raised event enters first: it was raised before, or in the same basin cycle for a lower core. -/
def Slice.raisedFirst (x : Slice) (n : Nat) (i : Nat × JetItem) : Bool :=
  x.raised.zipIdx.any (fun d => d.2 ≠ n &&
    (d.1.1 < i.1 || (d.1.1 = i.1 && (d.1.2.rank < i.2.rank || (d.1.2.rank = i.2.rank && d.2 < n)))))

/-- JET_EVENT: a raised event enters the FIFO, or finds it full and is dropped and counted. -/
def execJetEvent (sl : Nat) (ev : JetEvent) (pa requester : Nat) (s : State) : Host.Outcome State Fault Refusal :=
  match (s.sliceAt sl).raisedAt ev pa requester with
  | none => .next s
  | some n =>
    match (s.sliceAt sl).raised[n]? with
    | none => .next s
    | some i =>
      if (s.sliceAt sl).raisedFirst n i then .next s
      else
        -- the basin cycle in which it was raised is over: no other event of that cycle is still to come
        let s : State := { s with now := max s.now (6 * (i.1 + 1)) }
        .next (s.modSlice sl (fun x =>
          let x := { x with raised := x.raised.eraseIdx n }
          if x.hasRoom then x.push i.1 i.2 else { x with jevdrop := satInc x.jevdrop }))

/-! ### JET_RUN_START (17 R308, R309, R318) -/

/-- The message's copy in the handler's window, at a place that the spec leaves open. -/
def State.copyMessage (s : State) (sl : Nat) (h : JetHandler) (msg : BitVec 512) : Nat × State :=
  let r := s.pick (h.winsize / 64)
  (64 * r.1, r.2.modMem (fun m => { m with bytes := msets m.bytes (jetAddr sl (h.winbase + 64 * r.1)) (leBytes msg.toNat 64) }))

/-- Address of offset 0 of a handler's window. -/
def jetWindow : Nat := 15 * 2 ^ 48

/-- The run of an entry, where its handler or its object is still there. -/
def State.jetRunOf (s : State) (sl : Nat) (i : JetItem) : Option (JetRun × State) :=
  match i with
  | .event ev p jet va req _ _ msg _ =>
    match s.jetHandler p jet with
    | none => none
    | some h =>
      let pc := match ev with | .miss => h.misspc | .fill => h.fillpc | .evict => h.evictpc | .msg => h.msgpc
      let c := if ev = .msg then s.copyMessage sl h msg else (0, s)
      let a3 := if ev = .msg then jetWindow + c.1 else 0
      some (setRegs [(10, BitVec.ofNat 64 (eventNo ev)), (11, BitVec.ofNat 64 va), (12, BitVec.ofNat 64 req), (13, BitVec.ofNat 64 a3),
                     (14, BitVec.ofNat 64 jet)] { item := i, pc }, c.2)
  | i =>
    match s.methodOf sl i, s.codePlace i with
    | some m, some c =>
      let args := (List.range 6).map (fun j => (12 + j, BitVec.ofNat 64 (m.args / 2 ^ (64 * j))))
      some (setRegs ([(10, BitVec.ofNat 64 m.obj), (11, BitVec.ofNat 64 m.pos)] ++ args)
        { item := i, pc := s.methodEntry sl i.part m c.1 }, s)
    | _, _ => none

/-- JET_RUN_START: the monitor starts the entry at the head of the FIFO. -/
def State.beginRun (s : State) (sl : Nat) : State :=
  let x := s.sliceAt sl
  match x.run, x.fifo with
  | none, (_, i) :: rest =>
    if x.mhalt then s
    else
      let s := s.modSlice sl (fun x => { x with fifo := rest })
      match s.jetRunOf sl i with
      | none => s
      | some (r, t) => t.modSlice sl (fun x => { x with run := some r, mode := false })
  | _, _ => s

def execJetRunStart (sl : Nat) (s : State) : Host.Outcome State Fault Refusal := .next (s.beginRun sl)

/-! ### The end of a run (17 R311, R316, R319) -/

def Slice.endRun (x : Slice) : Slice := { x with run := none, mode := true }

/-- The kill code of a method for a reason of R311. -/
def methodCode (reason : Nat) : Nat :=
  match reason with
  | 0 => 0xFFFF
  | 2 => 0xFFFE
  | 3 => 0xFFFB
  | _ => 0xFFFC

/-- The undo entries are applied, newest first (17 R319). -/
def State.applyUndo (s : State) (part obj die : Nat) (l : List (Nat × Word)) : State :=
  l.foldl (fun s u => s.modMem (fun m => { m with bytes := msets m.bytes (replicaAddr part obj die u.1) (leBytes u.2.toNat 8) })) s

/-- A replica applies the position of its run: the result ring, the applied count, and the ROWAITs of the die. -/
def State.applied (s : State) (part obj die : Nat) (w : Word) : State :=
  let pos := (s.objAt part obj).appliedAt die
  let s := s.modObj part obj (fun o =>
    { o with results := sset o.results (ringKey die pos) w, applied := sset o.applied die (pos + 1) })
  s.landRowaits part die

/-- A method run ends with a status and the low part of its result word. -/
def State.endMethod (s : State) (sl : Nat) (r : JetRun) (status low : Nat) : State :=
  let s := s.modSlice sl Slice.endRun
  match r.item with
  | .event _ _ _ _ _ _ _ _ _ => s
  | .replay p obj =>
    let die := replicaDie sl
    let s := if status = 0 then s else s.applyUndo p obj die r.undo
    s.applied p obj die (callWord status obj low)
  | .read _ obj _ _ _ k d slot =>
    if k = deadKey then s else s.modCtxAt k (fun c => c.arriveS slot d (callWord status obj low) false)

/-- The event record of a killed handler run (17 R311). -/
def killRecord (sl : Nat) (r : JetRun) (reason addr : Nat) : List Byte :=
  match r.item with
  | .event ev _ jet va _ _ _ _ _ =>
    leBytes 0x10 1 ++ leBytes (eventNo ev) 1 ++ leBytes jet 1 ++ leBytes reason 1 ++ leBytes sl 2 ++ leBytes r.pc 2 ++ leBytes r.count 4
      ++ leBytes 0 4 ++ leBytes va 8 ++ leBytes addr 8 ++ leBytes 0 16
  | _ => []

/-- A run is killed for a reason of R311: a handler's with an event record, a method's as a trap of its own. -/
def State.killRun (s : State) (sl : Nat) (r : JetRun) (reason addr : Nat) : State :=
  match r.item with
  | .event _ p _ _ _ _ _ _ _ =>
    let s := s.modSlice sl (fun x => { x.endRun with jkill := satInc x.jkill })
    s.recordRaw (some p) (killRecord sl r reason addr) [0xFF, 0xFF, 0xFF]
  | _ => s.endMethod sl r 2 (methodCode reason)

/-! ### Memory of a run (17 R306, R310, R318) -/

/-- Where a data address of a run leads. -/
inductive JetPlace
  | sram (off : Nat)
  | state (part obj die off : Nat)
  | global (l : Loc) (va : Nat)
  | fault
  deriving DecidableEq, Repr

/-- What an address names for an access of a run. -/
def State.jetPlace (s : State) (sl : Nat) (r : JetRun) (k : Access) (a : Nat) : JetPlace :=
  match r.item with
  | .event _ p jet _ _ _ _ _ _ =>
    if a / 2 ^ 48 = 15 then
      match s.jetHandler p jet with
      | some h => if a % 2 ^ 48 < h.winsize then .sram (h.winbase + a % 2 ^ 48) else .fault
      | none => .fault
    else if a / 2 ^ 48 ≤ 12 then
      match s.walk p a with
      | none => .fault
      | some e =>
        match s.throughEntry (s.cachedOf p e) k false a with
        | .ok l => .global l a
        | .error _ => .fault
    else .fault
  | .replay p obj => if a < ((s.desc p obj).map (·.size)).getD 0 then .state p obj (replicaDie sl) a else .fault
  | .read p obj _ _ _ _ _ _ => if a < ((s.desc p obj).map (·.size)).getD 0 then .state p obj (replicaDie sl) a else .fault

/-- The line that a MSG run holds busy. -/
def JetRun.ownLine (r : JetRun) : Option Nat :=
  match r.item with
  | .event .msg _ _ _ _ _ _ _ pa => some (pa / 256)
  | _ => none

/-- A line that a run must wait for: it is busy, otherwise than by this run. -/
def State.jetBusy (s : State) (r : JetRun) (line : Nat) : Bool :=
  if r.ownLine = some (line / 2) then (match sget? s.mem.dir line with | some e => e.busy.isSome | none => false) else s.lineBusy line

/-- A home operation on a location: it waits for a busy line and for the line's fill, and recalls the directory entry. -/
def State.jetReady (s : State) (r : JetRun) (l : Loc) (va : Nat) : Bool × State :=
  let l := s.redirect l
  match l.space with
  | .host => (s.dev.pcieUp, s)
  | .remote => (true, s)
  | .spad => (true, s)
  | _ =>
    if s.jetBusy r (l.pa / 128) then (false, s)
    else if s.inL2 l.pa then (true, s.countedRecall (l.pa / 128))
    else (false, s.askFill (s.fillAt (some r.item.part) (l.pa / 256) (some va)))

/-- Outcome of an instruction of a run, before it retires. -/
inductive JetRes
  /-- It retires with this run state. -/
  | go (s : State) (r : JetRun)
  /-- It ends the run: JDONE with a result. -/
  | done (s : State) (low : Nat)
  /-- JUNDO. -/
  | undo (code : Nat)
  | kill (reason addr : Nat)
  /-- The undo area is full. -/
  | full
  /-- It waits for a line. -/
  | wait (s : State)

/-- The kind of run: the event of a handler, or a method that is mutating or not. -/
inductive RunKind
  | handler (ev : JetEvent)
  | method (mutating : Bool)
  deriving DecidableEq, Repr

def JetRun.kind (r : JetRun) : RunKind :=
  match r.item with
  | .event ev _ _ _ _ _ _ _ _ => .handler ev
  | .replay _ _ => .method true
  | .read _ _ _ _ _ _ _ _ => .method false

/-- Global stores, and all stores of a method, as the kind of run allows them (17 R310, R318). -/
def RunKind.mayStore : RunKind → Bool
  | .handler ev => ev = .msg
  | .method m => m

/-- n bytes at a place are read; the state is the one in which they have been. -/
def State.jetRead (s : State) (sl : Nat) (r : JetRun) (p : JetPlace) (n : Nat) : Option (Nat × State) :=
  match p with
  | .sram off => some (s.sram sl off n, s)
  | .state part obj die off => some (leNat (mgets s.mem.bytes (replicaAddr part obj die off) n), s)
  | .global l va =>
    match s.jetReady r l va with
    | (false, _) => none
    | (true, t) => some (pnat (t.rdLoc l n), t)
  | .fault => none

/-- n bytes at a place are written; a method first notes the old doubleword (17 R319). -/
def State.jetWrite (s : State) (sl : Nat) (r : JetRun) (p : JetPlace) (n v : Nat) : State × JetRun :=
  match p with
  | .sram off => (s.modMem (fun m => { m with bytes := msets m.bytes (jetAddr sl off) (leBytes v n) }), r)
  | .state part obj die off =>
    let w := off / 8 * 8
    let old := BitVec.ofNat 64 (leNat (mgets s.mem.bytes (replicaAddr part obj die w) 8))
    (s.modMem (fun m => { m with bytes := msets m.bytes (replicaAddr part obj die off) (leBytes v n) }), { r with undo := (w, old) :: r.undo })
  | .global l _ => (s.wrLoc l (clean (leBytes v n)), r)
  | .fault => (s, r)

/-- An access of n bytes at an address: its place, or why it ends the run. -/
def State.jetAccess (s : State) (sl : Nat) (r : JetRun) (k : Access) (a n : Nat) (f : JetPlace → JetRes) : JetRes :=
  let store : Bool := k ≠ .load
  let p := s.jetPlace sl r k a
  let bad := a % n ≠ 0
  if bad && (Config.jetMisalignedFirst || p ≠ .fault) then .kill 3 a
  else if p = .fault then .kill 2 a
  else
    match p with
    | .sram _ => f p
    | .state _ _ _ _ => if store && !r.kind.mayStore then .kill 4 a else if store && 512 ≤ r.undo.length then .full else f p
    | .global _ _ => if store && !r.kind.mayStore then .kill 4 a else f p
    | .fault => .kill 2 a

/-- The state of a run that waits for a place's line. -/
def State.jetStall (s : State) (r : JetRun) (p : JetPlace) : State :=
  match p with
  | .global l va => (s.jetReady r l va).2
  | _ => s

/-- LR notes its line, whose next store by any agent ends the reservation; SC succeeds on the address of a reservation that
holds (17 R306). A place that only the run can store to has no such agent. -/
def State.reserve (s : State) (sl : Nat) (p : JetPlace) : State :=
  match p with
  | .global l _ => s.modMem (fun m => { m with resv := sset m.resv sl ((s.redirect l).pa / 128) })
  | _ => s

def State.reserved (s : State) (sl : Nat) (r : JetRun) (p : JetPlace) (a : Nat) : Bool :=
  (r.resv.map (·.1)) = some a &&
    match p with | .global l _ => sget? s.mem.resv sl = some ((s.redirect l).pa / 128) | _ => true

/-- A value of n bytes as a register takes it. -/
def loaded (n : Nat) (signed : Bool) (v : Nat) : Word := if signed then BitVec.ofInt 64 (sgn (8 * n) v) else BitVec.ofNat 64 v

/-- The effect of an ordinary instruction of `len` bytes (17 R306). -/
def State.rvStep (s : State) (sl : Nat) (r : JetRun) (len : Nat) (op : RvOp) : JetRes :=
  let next (r : JetRun) : JetRun := { r with pc := r.pc + len }
  let link : Word := BitVec.ofNat 64 (r.pc + len) + Config.jetPcBase
  match op with
  | .put rd v => .go s (next (r.set rd v))
  | .nop => .go s (next r)
  | .jump rd t => .go s { r.set rd link with pc := (t - Config.jetPcBase).toNat }
  | .load rd n signed a =>
    s.jetAccess sl r .load a.toNat n (fun p =>
      match s.jetRead sl r p n with
      | some (v, t) => .go t (next (r.set rd (loaded n signed v)))
      | none => .wait (s.jetStall r p))
  | .store n a v =>
    s.jetAccess sl r .store a.toNat n (fun p =>
      match s.jetRead sl r p n with
      | some (_, t) => let w := t.jetWrite sl r p n v.toNat; .go w.1 (next w.2)
      | none => .wait (s.jetStall r p))
  | .lr rd n a =>
    s.jetAccess sl r .load a.toNat n (fun p =>
      match s.jetRead sl r p n with
      | some (v, t) => .go (t.reserve sl p) { next (r.set rd (loaded n true v)) with resv := some (a.toNat, BitVec.ofNat 64 v) }
      | none => .wait (s.jetStall r p))
  | .sc rd n a v =>
    s.jetAccess sl r .store a.toNat n (fun p =>
      match s.jetRead sl r p n with
      | some (_, t) =>
        if t.reserved sl r p a.toNat then
          let w := t.jetWrite sl r p n v.toNat
          .go w.1 { next (w.2.set rd 0) with resv := none }
        else .go t { next (r.set rd 1) with resv := none }
      | none => .wait (s.jetStall r p))
  | .amo f5 rd n a v =>
    s.jetAccess sl r .atomic a.toNat n (fun p =>
      match s.jetRead sl r p n with
      | some (old, t) =>
        let w := t.jetWrite sl r p n ((amoNew f5 n old (v.toNat % 2 ^ (8 * n))).getD old)
        .go w.1 (next (w.2.set rd (loaded n true old)))
      | none => .wait (s.jetStall r p))
  | .call => .kill Config.jetCallReason 0
  | .illegal => .kill 1 0

/-! ### Retiring -/

/-- An instruction's outcome takes effect: it retires within the budget, or the run ends (17 R311). -/
def State.jetRetire (s : State) (sl : Nat) (r : JetRun) (x : JetRes) : State :=
  let spent := s.budgetOf r.item ≤ r.count
  match x with
  | .go t q => if spent then s.killRun sl r 0 0 else t.modSlice sl (fun y => { y with run := some { q with count := r.count + 1 } })
  | .done t low =>
    if spent then s.killRun sl r 0 0
    else
      match r.kind with
      | .handler _ => t.modSlice sl Slice.endRun
      | .method _ => t.endMethod sl r 0 low
  | .undo code => if spent then s.killRun sl r 0 0 else s.endMethod sl r 2 code
  | .kill reason addr => s.killRun sl r reason addr
  | .full => s.endMethod sl r 2 0xFFFD
  | .wait t => t

/-! ### Xjet (17 R313) -/

/-- The event line's 8 bytes at an offset, with their sector's poison. -/
def State.eventBytes (s : State) (i : JetItem) (off : Nat) : Nat × Bool :=
  match i with
  | .event .msg _ _ _ _ _ _ _ pa =>
    let b := s.mem.homeRd (pa / 256 * 256 + off) 8
    (pnat b, pany b)
  | .event _ _ _ _ _ line pois _ _ => (line.toNat / 2 ^ (8 * off) % 2 ^ 64, pois.getLsbD (off / 32))
  | _ => (0, false)

/-- The offset rules of JL2RD and JL2WR. -/
def lineOffOk (v : Word) : Bool := v.toNat < 256 && v.toNat % 8 = 0

def State.jl2rd (s : State) (r : JetRun) (x : XJ) : JetRes :=
  let a := r.reg x.s.toNat
  match r.kind with
  | .method _ => .kill 4 0
  | .handler .miss => .kill 4 0
  | .handler _ =>
    if !lineOffOk a then .kill 3 a.toNat
    else
      let v := s.eventBytes r.item a.toNat
      if v.2 then .kill 2 a.toNat else .go s { r.set x.d.toNat (BitVec.ofNat 64 v.1) with pc := r.pc + 4 }

def State.jl2wr (s : State) (r : JetRun) (x : XJ) : JetRes :=
  let a := r.reg x.s.toNat
  match r.item with
  | .event .msg _ _ _ _ _ _ _ pa =>
    if !lineOffOk a then .kill 3 a.toNat
    else
      let base := pa / 256 * 256 + a.toNat / 32 * 32
      let old := pvals (s.mem.homeRd base 32)
      let o := a.toNat % 32
      let new := old.take o ++ leBytes (r.reg x.t.toNat).toNat 8 ++ old.drop (o + 8)
      .go (s.homeWr base (clean new)) { r with pc := r.pc + 4 }
  | _ => .kill 4 0

/-- The line of a VA that a prefetch or a forward names, where it translates. -/
def State.jetLine (s : State) (p : Nat) (a : Nat) : Option (RangeEntry × Loc) :=
  if 13 * 2 ^ 48 ≤ a then none
  else
    match s.walk p a with
    | none => none
    | some e => match s.throughEntry (s.cachedOf p e) .probe false a with | .ok l => some (e, l) | .error _ => none

def State.jpf (s : State) (r : JetRun) (x : XJ) : JetRes :=
  let a := (r.reg x.s.toNat).toNat
  let p := r.item.part
  match r.kind with
  | .method _ => .kill 4 0
  | .handler _ =>
    let t := match s.jetLine p a with
      | some (e, l) =>
        if l.space = .host || l.space = .remote then s
        else s.askFill { s.fillAt (some p) (l.pa / 256) (some a) with jet := e.jet, cmpr := e.cmpr }
      | none => s
    .go t { r with pc := r.pc + 4 }

/-- The core runs a launch of the partition (17 R313). -/
def State.runsLaunch (s : State) (p core : Nat) : Bool :=
  match (s.partAt p).resident with
  | some k => (((s.fctxAt k).launch).map (fun l => l.cores.contains core)).getD false
  | none => false

def State.jfwd (s : State) (sl : Nat) (r : JetRun) (x : XJ) : JetRes :=
  let a := (r.reg x.s.toNat).toNat
  let core := (r.reg x.t.toNat).toNat
  let p := r.item.part
  let ok := match r.kind with | .handler .fill => true | .handler .msg => true | _ => false
  if !ok || 1024 ≤ core then .kill 4 0
  else
    let r' := { r with pc := r.pc + 4 }
    let dropped : JetRes := .go (s.modSlice sl (fun x => { x with jfwddrop := satInc x.jfwddrop })) r'
    match s.jetLine p a with
    | some (e, l) =>
      let line := l.pa / 128
      if l.space ≠ .coh || !s.runsLaunch p core || (s.coreAt core).l1gran = 0 || (s.copyOf line core).isSome then dropped
      else .go (s.send .gets line core none { line := l.pa / 256, part := some p, va := some a, jet := e.jet, cmpr := e.cmpr }) r'
    | none => dropped

def State.jmsg (s : State) (r : JetRun) (x : XJ) : JetRes :=
  let v := (r.reg x.s.toNat).toNat
  match r.kind with
  | .method _ => .kill 4 0
  | .handler _ =>
    if 2 ^ 14 ≤ v || !s.runsLaunch r.item.part (v % 1024) then .kill 4 0
    else .go (s.addSem (v % 1024) (v / 1024) 1) { r with pc := r.pc + 4 }

def State.jdone (s : State) (r : JetRun) (x : XJ) : JetRes := .done s ((r.reg x.s.toNat).toNat % 2 ^ 48)

def State.jbudget (s : State) (r : JetRun) (x : XJ) : JetRes :=
  .go s { r.set x.d.toNat (BitVec.ofNat 64 (s.budgetOf r.item - (r.count + 1))) with pc := r.pc + 4 }

def State.jundo (_s : State) (r : JetRun) (x : XJ) : JetRes :=
  let v := (r.reg x.s.toNat).toNat % 65536
  match r.kind with
  | .handler _ => .kill 4 0
  | .method _ => if 0xFFEF < v then .kill 4 0 else .undo v

/-- An Xjet instruction of the run of the current jet core; outside a run the monitor has no event line, budget or result. -/
def runXjet (f : State → JetRun → JetRes) (s : State) : Host.Outcome State Fault Refusal :=
  match (s.sliceAt s.cur.jet).run with
  | some r => .next (s.jetRetire s.cur.jet r (f s r))
  | none => .next s

def execJl2rd (r : XJ) (s : State) : Host.Outcome State Fault Refusal := runXjet (fun s q => s.jl2rd q r) s
def execJl2wr (r : XJ) (s : State) : Host.Outcome State Fault Refusal := runXjet (fun s q => s.jl2wr q r) s
def execJpf (r : XJ) (s : State) : Host.Outcome State Fault Refusal := runXjet (fun s q => s.jpf q r) s
def execJfwd (r : XJ) (s : State) : Host.Outcome State Fault Refusal := runXjet (fun s q => s.jfwd s.cur.jet q r) s
def execJmsg (r : XJ) (s : State) : Host.Outcome State Fault Refusal := runXjet (fun s q => s.jmsg q r) s
def execJdone (r : XJ) (s : State) : Host.Outcome State Fault Refusal := runXjet (fun s q => s.jdone q r) s
def execJbudget (r : XJ) (s : State) : Host.Outcome State Fault Refusal := runXjet (fun s q => s.jbudget q r) s
def execJundo (r : XJ) (s : State) : Host.Outcome State Fault Refusal := runXjet (fun s q => s.jundo q r) s

/-! ### The monitor's instructions (17 R313) -/

/-- A register of the monitor. -/
def Slice.mreg (x : Slice) (i : Nat) : Word := if i = 0 then 0 else sget 0 x.mx i
def Slice.setMreg (x : Slice) (i : Nat) (v : Word) : Slice := if i = 0 then x else { x with mx := sset x.mx i v }

/-- The partition whose objects the monitor of a jet core names: that of the work at the head of its FIFO. -/
def State.monitorPart (s : State) (sl : Nat) : Nat := match (s.sliceAt sl).fifo with | (_, i) :: _ => i.part | [] => 0

/-- An instruction that the monitor of jet core sl executes in M mode, between runs: its program is firmware, which the spec does not
give, so the agenda says when. -/
def monitorTurn (exec : Instr → State → Host.Outcome State Fault Refusal) (sl : Nat) (i : Instr) (s : State) : Host.Outcome State Fault Refusal :=
  let x := s.sliceAt sl
  match i with
  | .jlognext _ => if x.run.isSome || x.mhalt then .next s else exec i { s with cur := { jet := sl } }
  | .jlogadv _ => if x.run.isSome || x.mhalt then .next s else exec i { s with cur := { jet := sl } }
  | _ => .next s

/-- JLOGNEXT: in M mode the position that the replica has not applied, with its record; in U mode illegal. -/
def execJlognext (r : XJ) (s : State) : Host.Outcome State Fault Refusal :=
  let sl := s.cur.jet
  match (s.sliceAt sl).run with
  | some q => .next (s.jetRetire sl q (.kill 1 0))
  | none =>
    let x := s.sliceAt sl
    let obj := (x.mreg r.s.toNat).toNat % 256
    let o := s.objAt (s.monitorPart sl) obj
    let pos := o.appliedAt (replicaDie sl)
    if pos = o.tail then .next (s.modSlice sl (fun x => x.setMreg r.d.toNat (BitVec.allOnes 64)))
    else
      let s := s.modMem (fun m => { m with
        bytes := msets m.bytes (jetAddr sl ((x.mreg r.t.toNat).toNat % 65536)) (leBytes (sget 0 o.records (pos % 4096)).toNat 64) })
      .next (s.modSlice sl (fun x => x.setMreg r.d.toNat (BitVec.ofNat 64 pos)))

/-- JLOGADV: in M mode the next position is marked as applied, any other halts the monitor; in U mode illegal. -/
def execJlogadv (r : XJ) (s : State) : Host.Outcome State Fault Refusal :=
  let sl := s.cur.jet
  match (s.sliceAt sl).run with
  | some q => .next (s.jetRetire sl q (.kill 1 0))
  | none =>
    let x := s.sliceAt sl
    let part := s.monitorPart sl
    let obj := (x.mreg r.s.toNat).toNat % 256
    let die := replicaDie sl
    let pos := (s.objAt part obj).appliedAt die
    if (x.mreg r.t.toNat).toNat ≠ pos then .next (s.modSlice sl (fun x => { x with mhalt := true }))
    else .next ((s.modObj part obj (fun o => { o with applied := sset o.applied die (pos + 1) })).landRowaits part die)

/-! ### JET_CORE_INSTRUCTION, JET_RUN_KILL, REPLAY_APPLY -/

/-- The instruction at a run's pc: its length and word; none outside the bytes that may be fetched. -/
def State.jetFetch (s : State) (sl : Nat) (r : JetRun) : Option (Nat × Nat) :=
  match s.codePlace r.item with
  | none => none
  | some (base, size) =>
    if size < r.pc + 2 then none
    else
      let h := s.sram sl (base + r.pc) 2
      if h % 4 ≠ 3 then some (2, h)
      else if size < r.pc + 4 then none
      else some (4, s.sram sl (base + r.pc) 4)

/-- The outcome of an Xjet instruction in a run. -/
def State.xjetRes (s : State) (sl : Nat) (r : JetRun) (i : Instr) : JetRes :=
  match i with
  | .jl2rd x => s.jl2rd r x
  | .jl2wr x => s.jl2wr r x
  | .jpf x => s.jpf r x
  | .jfwd x => s.jfwd sl r x
  | .jmsg x => s.jmsg r x
  | .jdone x => s.jdone r x
  | .jbudget x => s.jbudget r x
  | .jundo x => s.jundo r x
  | _ => .kill 1 0

/-- The outcome of the instruction at a run's pc. -/
def State.jetNext (s : State) (sl : Nat) (r : JetRun) : JetRes :=
  match s.jetFetch sl r with
  | none => .kill 2 0
  | some (len, w) =>
    if len = 4 && w % 128 = 11 then
      match decodeXjet (BitVec.ofNat 32 w) with
      | some i => s.xjetRes sl r i
      | none => .kill 1 0
    else
      match (if len = 2 then expandC w else some w) with
      | none => .kill 1 0
      | some w => s.rvStep sl r len (rvDecode w r.reg (BitVec.ofNat 64 r.pc + Config.jetPcBase))

/-- JET_CORE_INSTRUCTION: the instruction at the run's pc. -/
def State.jetStep (s : State) (sl : Nat) : State :=
  match (s.sliceAt sl).run with
  | some r => s.jetRetire sl r (s.jetNext sl r)
  | none => s

def execJetCoreInstruction (sl : Nat) (s : State) : Host.Outcome State Fault Refusal := .next (s.jetStep sl)

/-- The reason for which the instruction at a run's pc ends it. -/
def State.jetReason (s : State) (sl : Nat) (r : JetRun) : Option Nat :=
  let spent := s.budgetOf r.item ≤ r.count
  match s.jetNext sl r with
  | .kill n _ => some n
  | .go _ _ => if spent then some 0 else none
  | .done _ _ => if spent then some 0 else none
  | .undo _ => if spent then some 0 else none
  | .full => none
  | .wait _ => none

/-- JET_RUN_KILL: the run's next instruction kills it for this reason. -/
def execJetRunKill (sl reason : Nat) (s : State) : Host.Outcome State Fault Refusal :=
  match (s.sliceAt sl).run with
  | some r => if s.jetReason sl r = some reason then .next (s.jetStep sl) else .next s
  | none => .next s

/-- A method run to its end, in at most n instructions. -/
def State.runMethod (s : State) (sl : Nat) : Nat → State
  | 0 => s
  | n + 1 => if (s.sliceAt sl).run.isNone then s else (s.jetStep sl).runMethod sl n

/-- REPLAY_APPLY: the next record, or a read-only call, at a replay engine as one method run. -/
def execReplayApply (sl : Nat) (s : State) : Host.Outcome State Fault Refusal :=
  let s := if (s.sliceAt sl).run.isNone then
      (match (s.sliceAt sl).fifo with
       | (_, .event _ _ _ _ _ _ _ _ _) :: _ => s
       | _ => s.beginRun sl)
    else s
  match (s.sliceAt sl).run with
  | some r => (match r.kind with | .method _ => .next (s.runMethod sl (s.budgetOf r.item + 1)) | .handler _ => .next s)
  | none => .next s

end Sys2Proof.Machine
end

