-- ==== Sys2Proof/Machine/Ras.lean ====
section
/-! DEFINITION. Integrity of links, interfaces and memory over time: retries, patrol scrubbing, row care (21 R344 to R355), core
repair, link loss and die resets (19 R336 to R339; 11 R232), power windows and the registers of basic and expert control (23
R368 to R370). -/

namespace Sys2Proof.Machine

/-! ### Units -/

/-- Controllers 0 to 11 are the stacks' basin dies with 64 pseudo-channels; 12 + d is compute die d's second-tier controller
with 20 channels (21 R355). -/
def unitOk (u pc : Nat) : Bool := if u < 12 then pc < 64 else u < 16 && pc < 20

/-- Number of a channel, as `chanOf` numbers them. -/
def chanNo (u pc : Nat) : Nat := if u < 12 then u * 64 + pc else 768 + (u - 12) * 20 + pc

def onUnit (ok : Bool) (s : State) : Host.Outcome State Fault Refusal := if ok then .next s else .fault .noSuchUnit

/-- The first request for a fill that waits on a channel (21 R347). -/
def State.askedOn (s : State) (ch : Nat) : Option FillReq := s.mem.fills.find? (fun f => chanOf (f.line * 256) = ch)

/-- The fill's line lies in a bank of a controller. -/
def inBank (u key : Nat) (f : FillReq) : Bool := unitOf (f.line * 256) = u && bankOf (f.line * 256) = key

/-- The first request for a fill that waits on a row of a bank. -/
def State.askedRow (s : State) (u key row : Nat) : Option FillReq :=
  s.mem.fills.find? (fun f => inBank u key f && rowOf (f.line * 256) % 2 ^ 17 = row)

/-- CLASS, SOURCE and PCH of a record about a channel (21 R349, R355). -/
def chanRec (ch kind cls : Nat) : ErrRec :=
  if ch < 768 then { kind, cls, source := 0x1000 + ch / 64 * 4 + ch % 64 / 16, pch := ch }
  else { kind, cls := 5, source := 0x4000 + (ch - 768), pch := ch - 768 }

/-- The same with what the request says that has met the error, if it was one (21 R347). -/
def State.chanRecord (s : State) (f : Option FillReq) (r : ErrRec) : State :=
  match f with
  | none => s.record none r
  | some f =>
    s.record f.part { r with
      flags := r.flags + 8 + (if f.va.isSome then 4 else 0), ctxid := f.ctxid, pa := f.line * 256, va := f.va.getD 0, taskid := f.taskid,
      phys := match f.core with | some c => s.phys c | none => [0xFF, 0xFF, 0xFF] }

def State.chanAt (s : State) (ch : Nat) : Chan :=
  if ch < 768 then sget {} (s.basinAt (ch / 64)).chans (ch % 64) else sget {} (s.dieAt ((ch - 768) / 20)).chans (ch - 768)

/-! ### TSVIF_RETRY (21 R344) -/

/-- Whose transfer it is that fails for good: where requests wait on the channel, the first one's or the scrubber's, which is a
free choice; the scrubber's otherwise. -/
def State.transferOf (s : State) (ch : Nat) : Option FillReq × State :=
  match s.askedOn ch with
  | none => (none, s)
  | some f => let r := s.pick 2; (if r.1 = 0 then some f else none, r.2)

/-- TSVIF_RETRY: a retry of the transfer in progress succeeds, or is the eighth to fail, and the channel becomes FAILED. -/
def execTsvifRetry (stack pc : Nat) (good : Bool) (s : State) : Host.Outcome State Fault Refusal :=
  let ch := chanNo stack pc
  onUnit (unitOk stack pc)
    (if good then s.modChan ch (fun c => { c with tsvifCe := satInc c.tsvifCe, retries := 0 })
     else if (s.chanAt ch).retries + 1 < 8 then s.modChan ch (fun c => { c with retries := c.retries + 1 })
     else
       let s := s.modChan ch (fun c => { c with retries := 0 })
       let s := s.modMem (fun m => { m with failed := sset m.failed ch true })
       let f := s.transferOf ch
       f.2.chanRecord f.1 (chanRec ch 0x05 2))

/-! ### Row care (21 R352, R353) -/

def actKey (pc bank row : Nat) : Nat := (pc * 1024 + bank) * 2 ^ 15 + row
def bankKey (pc bank : Nat) : Nat := pc * 1024 + bank
def bankOk (u pc bank row : Nat) : Bool := unitOk u pc && bank < (if u < 12 then 16 else 1024) && row < 2 ^ 15

/-- The threshold in force: the register under expert row care, a preset otherwise (23 R368). -/
def State.mthOf (s : State) (u : Nat) : Nat :=
  if s.dev.funcmode.getLsbD 7 then (s.basinAt u).mth.toNat
  else match s.dev.funcmode.toNat / 16 % 8 with | 0 => 2048 | 1 => 1024 | 2 => 512 | _ => 256

/-- A bank is blocked for tRFM. -/
def State.blockedBank (s : State) (u pc bank : Nat) : Bool := (sget? (s.basinAt u).blocked (bankKey pc bank)).isSome

/-- An ALERT is to come in a bank: no other row of it is activated before. -/
def State.alerted (s : State) (u pc bank : Nat) : Bool := (sget? (s.basinAt u).alertDue (bankKey pc bank)).isSome

/-- An ACT of a row counts; with the one that brings its counter to the threshold an ALERT falls due. -/
def State.actRow (s : State) (u pc bank row : Nat) (first : Option FillReq) : State :=
  let n := sget 0 (s.basinAt u).acts (actKey pc bank row) + 1
  let due := s.mthOf u ≤ n
  s.modBasin u (fun b => { b with
    acts := sset b.acts (actKey pc bank row) n,
    alertDue := if due then sset b.alertDue (bankKey pc bank) (row, first) else b.alertDue })

/-- The requests that wait on a blocked bank, each of which is counted once. -/
def State.backOff (s : State) (u pc bank : Nat) : State :=
  let new (f : FillReq) : Bool := inBank u (bankKey pc bank) f && !f.waited
  let n := (s.mem.fills.filter new).length
  (s.modChan (chanNo u pc) (fun c => { c with bankBackoff := satAdd c.bankBackoff n })).modMem (fun m => { m with
    fills := m.fills.map (fun f => if new f then { f with waited := true } else f) })

/-- DRAM_ACT: a bank that is blocked makes its requests wait, and one that is to be precharged for an ALERT opens no row. -/
def execDramAct (stack pc bank row : Nat) (s : State) : Host.Outcome State Fault Refusal :=
  onUnit (bankOk stack pc bank row)
    (if s.blockedBank stack pc bank then s.backOff stack pc bank
     else if s.alerted stack pc bank then s
     else s.actRow stack pc bank row (s.askedRow stack (bankKey pc bank) row))

/-- The rows that refresh management names for row r, with r itself. -/
def nearRows (r : Nat) : List Nat := ([2, 1].filter (fun d => d ≤ r)).map (fun d => r - d) ++ [r] ++ ([1, 2].map (fun d => r + d)).filter (fun x => x < 2 ^ 15)

/-- ROW_ALERT: an ACT has brought the row to the threshold, and the requests that it opened have had their data. It is counted
and, once per bank and 1,000,000 ns, recorded; the row's and its neighbours' counters are reset, and the bank is blocked for
tRFM. -/
def execRowAlert (stack pc bank row : Nat) (s : State) : Host.Outcome State Fault Refusal :=
  let b := s.basinAt stack
  let ch := chanNo stack pc
  let key := bankKey pc bank
  onUnit (bankOk stack pc bank row)
    (match sget? b.alertDue key with
     | none => s
     | some (r, first) =>
     if r ≠ row || (first.isSome && (s.askedRow stack key row).isSome) then s
     else
       let s := s.modChan ch (fun c => { c with alerts := satInc c.alerts })
       let recent : Bool := match sget? b.alertAt key with | some t => s.ptime < t + 1000000 | none => false
       let s := if recent then s
         else (s.modBasin stack (fun b => { b with alertAt := sset b.alertAt key s.ptime })).chanRecord first
           { chanRec ch 0x07 0 with row := bank % 16 * 2 ^ 17 + row }
       s.modBasin stack (fun b => { b with
         acts := (nearRows row).foldl (fun m r => sdel m (actKey pc bank r)) b.acts,
         alertDue := sdel b.alertDue key,
         blocked := sset b.blocked key (s.ptime + Config.trfm ch) }))

/-- TRFM_EXPIRY: the block of a bank ends. -/
def execTrfmExpiry (stack pc bank : Nat) (s : State) : Host.Outcome State Fault Refusal :=
  onUnit (bankOk stack pc bank 0)
    (match sget? (s.basinAt stack).blocked (bankKey pc bank) with
     | none => s
     | some t =>
       ({ s with now := max s.now (9 * t) } : State).modBasin stack (fun b => { b with blocked := sdel b.blocked (bankKey pc bank) }))

/-- REGULAR_REFRESH: the row's counter returns to 0. -/
def execRegularRefresh (stack pc bank row : Nat) (s : State) : Host.Outcome State Fault Refusal :=
  onUnit (bankOk stack pc bank row) (s.modBasin stack (fun b => { b with acts := sdel b.acts (actKey pc bank row) }))

/-! ### Patrol scrubbing (21 R344, R350, R351, R355) -/

/-- Rows of 2 KiB of a channel, with their bank: 2^19 of a pseudo-channel, 24 GiB of a second-tier channel. -/
def rowsOf (u : Nat) : Nat := if u < 12 then 2 ^ 19 else 24 * 2 ^ 19
def chansOf (u : Nat) : Nat := if u < 12 then 64 else 20

/-- The PAs of 256-byte line i of a row, in every window that names it; the first one is the record's. -/
def rowLine (u pc bank row i : Nat) : List Nat :=
  if u < 12 then
    let off := bank * 2 ^ 26 + row * 2 ^ 11 + i * 256
    let so := off / 256 * 16384 + pc * 256
    [paOf 2 u so, paOf 0 u so, paOf 1 u so]
  else
    let o := (bank * 2 ^ 15 + row) * 2048 + i * 256
    [3 * 2 ^ 48 + o / 4096 * 327680 + ((u - 12) * 20 + pc) * 4096 + o % 4096]

/-- One line as the scrubber finds it: nothing where L2 holds it; corrections are written back, and what cannot be corrected is
poisoned. -/
def State.scrubLine (s : State) (ch : Nat) (pas : List Nat) (ecc : List EccResult) : State :=
  if pas.any s.inL2 then s
  else
    match pas with
    | [] => s
    | pa :: _ =>
      let key := paKey pa
      let sec := s.mem.eccRead key ecc
      let ces := (sec.filter (fun e => e.2.1)).length
      let bad := failedMask sec
      let ues := (sec.filter (fun e => e.2.2.isSome)).length
      let s := s.modMem (fun m => sec.zipIdx.foldl (fun (m : Mem) e =>
        if e.1.2.2.isSome then { m with pois := setFlag m.pois (key / 32 + e.2) true }
        else if e.1.2.1 then m.wr (key + 32 * e.2) e.1.1 else m) m)
      let s := s.modChan ch (fun c => { c with scrubCe := satAdd c.scrubCe ces, scrubUe := satAdd c.scrubUe ues })
      if bad = 0 then s
      else
        s.record none { memRec (pa + 32 * firstSector bad) 0x04 4 with
          flags := 32 + 8, sectors := bad, symbol := (sec.findSome? (fun e => e.2.2)).getD 2 }

/-- The scrub period in force in minutes (21 R350; 23 R368). -/
def State.scrubPeriod (s : State) (die : Nat) (second : Bool) : Nat :=
  if s.dev.funcmode.getLsbD 3 then (if second then (s.dieAt die).scrubper.toNat else (s.basinAt die).scrubper.toNat)
  else match s.dev.funcmode.toNat % 8 with | 0 => 1440 | 1 => 720 | 2 => 240 | _ => 60

/-- The period of a controller's scrubber, in ninths of a ns. -/
def State.scrubSpan (s : State) (u : Nat) : Nat :=
  (if u < 12 then s.scrubPeriod u false else s.scrubPeriod (u - 12) true) * 60 * 10 ^ 9 * 9

/-- Rows of all the channels of a controller. -/
def rowsIn (u : Nat) : Nat := rowsOf u * chansOf u

/-- When the scrubber of a controller reads its next row (21 R350). -/
def State.scrubAt (s : State) (u : Nat) : Nat := (s.basinAt u).scrubdue / rowsIn u

/-- PATROL_SCRUB_ROW: the scrubber of a controller reads its next row at the time that spreads a pass evenly over its period, and
skips a FAILED channel. A row with a busy line waits, and one in a bank that is blocked or has an ALERT to come. -/
def execPatrolScrubRow (stack : Nat) (ecc : List EccResult) (s : State) : Host.Outcome State Fault Refusal :=
  let n := (s.basinAt stack).scrubnext
  let pc := n / rowsOf stack
  let bank := n % rowsOf stack / 2 ^ 15
  let row := n % 2 ^ 15
  let ch := chanNo stack pc
  let goto (s : State) (m : Nat) : State := s.modBasin stack (fun b => { b with scrubnext := m % rowsIn stack })
  let lines := (List.range 8).map (rowLine stack pc bank row)
  onUnit (unitOk stack 0)
    (if sget false s.mem.failed ch then goto s ((pc + 1) * rowsOf stack)
     else if lines.any (fun l => l.any (fun pa => s.lineBusy (pa / 128) || s.lineBusy (pa / 128 + 1))) || s.alerted stack pc bank then s
     else if s.blockedBank stack pc bank then
       (if (s.basinAt stack).scrubWaited then s
        else (s.modChan ch (fun c => { c with bankBackoff := satInc c.bankBackoff })).modBasin stack (fun b => { b with scrubWaited := true }))
     else
       let s : State := { s with now := max s.now (s.scrubAt stack) }
       let s := s.actRow stack pc bank row none
       let s := lines.zipIdx.foldl (fun (s : State) l => s.scrubLine ch l.1 ((ecc.drop (8 * l.2)).take 8)) s
       (goto s (n + 1)).modBasin stack (fun b => { b with scrubdue := b.scrubdue + s.scrubSpan stack, scrubWaited := false }))

/-! ### Registers of row care and scrubbing (21 R350, R352) -/

/-- A SCRUBPER write: of a basin die, or of a compute die for its second tier. -/
def State.setScrubper (s : State) (die : Nat) (second : Bool) (v : Word) : State :=
  let x := BitVec.ofNat 16 (max 60 (v.toNat % 65536))
  if second then s.modDie die (fun d => { d with scrubper := x }) else s.modBasin die (fun b => { b with scrubper := x })

def execScrubperWrite (die : Nat) (second : Bool) (v : Word) (s : State) : Host.Outcome State Fault Refusal :=
  onUnit (if second then die < 4 else die < 12) (s.setScrubper die second v)

def State.setMth (s : State) (b : Nat) (v : Word) : State :=
  s.modBasin b (fun x => { x with mth := BitVec.ofNat 16 (max 64 (v.toNat % 65536)) })

def execMthWrite (b : Nat) (v : Word) (s : State) : Host.Outcome State Fault Refusal := onUnit (b < 12) (s.setMth b v)

/-! ### FUNCMODE (23 R368) -/

/-- FUNCMODE with reserved preset codes stored as 0. -/
def funcmodeOf (v : Word) : BitVec 12 :=
  let n := v.toNat
  let pre (x lim : Nat) : Nat := if x < lim then x else 0
  BitVec.ofNat 12 (n / 2 ^ 11 % 2 * 2 ^ 11 + pre (n / 2 ^ 8 % 8) 3 * 2 ^ 8 + n / 2 ^ 7 % 2 * 2 ^ 7 + pre (n / 2 ^ 4 % 8) 4 * 2 ^ 4
    + n / 2 ^ 3 % 2 * 2 ^ 3 + pre (n % 8) 4)

/-- Only the physical function writes FUNCMODE. -/
def State.setFuncmode (s : State) (who : Requester) (v : Word) : State :=
  if who = .function 0 then { s with dev := { s.dev with funcmode := funcmodeOf v } } else s

def execFuncmodeWrite (who : Requester) (v : Word) (s : State) : Host.Outcome State Fault Refusal := .next (s.setFuncmode who v)

/-! ### The power cap (23 R370) -/

/-- A PCAP write, clamped, waits for the next window; of two in one ns the side-band port's stands. -/
def State.setPcap (s : State) (who : Requester) (v : Word) : State :=
  let x := BitVec.ofNat 16 (min 3600 (max 1200 (v.toNat % 65536)))
  let put : State := { s with dev := { s.dev with pcapNext := some (x, s.ptime, who = .sideband) } }
  match who, s.dev.pcapNext with
  | .sideband, _ => put
  | .function 0, some (_, t, true) => if t = s.ptime then s else put
  | .function 0, _ => put
  | .function _, _ => s

def execPcapWrite (who : Requester) (v : Word) (s : State) : Host.Outcome State Fault Refusal := .next (s.setPcap who v)

/-- The step of the core islands that run goes down by one, or up. -/
def Dev.slower (d : Dev) : Dev := d.setIslands d.coreIslands (fun x => { x with step := BitVec.ofNat 4 (x.step.toNat - 1) })
def Dev.faster (d : Dev) : Dev := d.setIslands d.coreIslands (fun x => { x with step := BitVec.ofNat 4 (min (x.step.toNat + 1) 15) })

/-- What expert control has written: PSCALE and the islands' steps (23 R368). -/
def Dev.expert (d : Dev) : Dev :=
  let d := { d with pscale := match d.pscaleRaw with | some x => BitVec.ofNat 9 (min 256 (max 32 x.toNat)) | none => d.pscale }
  d.islandRaw.foldl (fun d e => d.setIslands [e.1] (fun x => { x with step := e.2 })) d

/-- The new PSCALE and island steps of a window. Over the cap, with POWERPRE 2 the core islands are slowed before PSCALE is lowered,
and with 0 or 1 after it stands at its least. -/
def Dev.window (d : Dev) (pwr : BitVec 16) : Dev :=
  let p := pwr.toNat
  let cap := d.pcap.toNat
  let d := if cap < p then { d with capevt := satInc d.capevt } else d
  let slowable := d.coreIslands.any (fun i => (d.island i).step ≠ 0)
  let d :=
    if d.funcmode.getLsbD 11 then d.expert
    else if cap < p then
      if slowable && (d.funcmode.toNat / 256 % 8 = 2 || d.pscale.toNat ≤ 32) then d.slower
      else { d with pscale := BitVec.ofNat 9 (max (d.pscale.toNat - 32) 32) }
    else if p < cap - cap / 16 then
      if d.pscale.toNat = 256 then d.faster else { d with pscale := BitVec.ofNat 9 (min (d.pscale.toNat + 16) 256) }
    else d
  { d with pwr, pcap := match d.pcapNext with | some x => x.1 | none => d.pcap, pcapNext := none, windows := d.windows + 1 }

/-- POWER_WINDOW: a window of 100 µs ends with its measured power; a written PCAP holds for the windows after it. -/
def execPowerWindow (pwr : BitVec 16) (s : State) : Host.Outcome State Fault Refusal :=
  let s := ({ s with now := max s.now (900000 * (s.dev.windows + 1)) } : State).refilled
  .next { s with dev := s.dev.window pwr }

/-! ### Links (21 R344; 19 R338) -/

/-- Links 0 to 15 join dies, links 16 to 27 lead to other packages. -/
def linkOk (l : Nat) : Bool := l < 28

def State.link (s : State) (l : Nat) : Link := sget {} s.dev.links l
def State.modLink (s : State) (l : Nat) (f : Link → Link) : State := { s with dev := { s.dev with links := smod {} s.dev.links l f } }

/-- The dies at which a link ends, basin die k as 4 + k (21 R346; log 43): 0 to 3 join the ring, 4 + k joins a compute die with
the basin die of stack k, and the package links 16 to 27 lead out of the compute dies. -/
def linkEnds (l : Nat) : List Nat := if l < 4 then [l, (l + 1) % 4] else if l < 16 then [l, stackDie (l - 4)] else [(l - 16) / 3]

/-- LINK_CE of the end of a link at a die. -/
def Link.ce (x : Link) (die : Nat) : Word32 := sget 0 x.ces die

/-- A flit is replayed on one end of the link, which is a free choice. -/
def State.countReplay (s : State) (l : Nat) : State :=
  match linkEnds l with
  | [a, b] => let r := s.pick 2; r.2.modLink l (fun x => { x with ces := smod 0 x.ces (if r.1 = 0 then a else b) satInc })
  | e => s.modLink l (fun x => { x with ces := smod 0 x.ces (e.headD 0) satInc })

/-- CLASS and SOURCE of a record about a link. -/
def linkRec (kind l : Nat) : ErrRec := { kind, cls := 1, source := 0x3000 + l }

/-- LINK_REPLAY: a flit is replayed; the sixteenth failure in a row begins a retrain, which is recorded. -/
def execLinkReplay (link : Nat) (good : Bool) (s : State) : Host.Outcome State Fault Refusal :=
  onUnit (linkOk link)
    (if (s.link link).st ≠ .up then s
     else
       let n := (s.link link).replays + 1
       let s := (s.countReplay link).modLink link (fun x => { x with replays := if good then 0 else n })
       if good || n < 16 then s
       else (s.modLink link (fun x => { x with replays := 0, st := .retraining s.ptime })).record none (linkRec 0x06 link))

/-- LINK_RETRAINED: the retrain succeeds. -/
def execLinkRetrained (link : Nat) (s : State) : Host.Outcome State Fault Refusal :=
  onUnit (linkOk link)
    (match (s.link link).st with
     | .retraining _ => s.modLink link (fun x => { x with st := .up })
     | _ => s)

/-- Keys of the contexts with a launch in flight that some property of it concerns. -/
def State.launchesWith (s : State) (f : Nat → Launch → Bool) : List Nat :=
  s.fctxs.filterMap (fun e => match e.2.launch with | some l => if l.ending.isNone && f e.1 l then some e.1 else none | none => none)

/-- Launches end with LINK_LOST, with a record for each partition affected. -/
def State.loseLaunches (s : State) (ks : List Nat) (r : ErrRec) : State :=
  if ks.isEmpty then s.record none r
  else
    let s := ks.foldl (fun s k => s.endLaunch k 1) s
    ((ks.map partOfKey).eraseDups).foldl (fun s p => s.record (some p) r) s

/-- LINK_RETRAIN_TIMEOUT: the link has not retrained for 50 µs and is lost with every launch that uses it. -/
def execLinkRetrainTimeout (link : Nat) (s : State) : Host.Outcome State Fault Refusal :=
  onUnit (linkOk link)
    (match (s.link link).st with
     | .retraining t =>
       let s : State := { s with now := max s.now (9 * (t + 50000)) }
       let s := s.modLink link (fun x => { x with st := .failed })
       s.loseLaunches (s.launchesWith (fun _ l => l.links.contains link)) { linkRec 0x09 link with cause := Cause.linkLost.code.toNat }
     | _ => s)

/-! ### Die resets (11 R232; 19 R339) -/

/-- The record of dirty data lost to a reset. -/
def lostRecord (line : Nat) : ErrRec :=
  { memRec (line * 128) 0x08 0 with flags := 32 + 8, sectors := if line % 2 = 0 then 0x0F else 0xF0 }

/-- The four sectors of a line are poisoned at its home, with a record. -/
def State.poisonLine (s : State) (line : Nat) : State :=
  let b := (s.mem.homeRd (line * 128) 128).map (fun x => (x.1, true))
  (s.homeWr (line * 128) b).record none (lostRecord line)

/-- The core whose request a busy entry serves, and whether it asks for M. -/
def Txn.wants : Txn → Option (Nat × Bool)
  | .fill r m => some (r, m)
  | .getm r _ _ => some (r, true)
  | .fwdGets r => some (r, false)
  | .fwdGetm r => some (r, true)
  | .recall _ _ => none

/-- An entry without the cores of die d: what is left of it, and whether it was owned there. -/
def DirEntry.purge (e : DirEntry) (d : Nat) : Option DirEntry × Bool :=
  let on (c : Nat) : Bool := dieOf c = d
  match e.st with
  | .s => let l := e.sharers.filter (fun c => !on c); (if l.isEmpty then none else some { e with sharers := l }, false)
  | .sw =>
    let m := (List.range 72).foldl (fun (m : BitVec 72) c => if c / 18 = d then setBit m c false else m) e.mask
    (if m = 0 then none else some { e with mask := m }, false)
  | .e => if on e.owner then (none, true) else (some e, false)
  | .m => if on e.owner then (none, true) else (some e, false)

/-- The home of a line purges the cores of die d. A request in progress starts again, unless it was one of theirs. -/
def State.purgeLine (s : State) (d line : Nat) (e : DirEntry) : State :=
  let r := e.purge d
  let touched := r.2 || r.1 ≠ some e
  let again (s : State) : State :=
    match e.busy with
    | some (.recall _ x) =>
      (match sget? s.mem.dir line with
       | some y => if y.holders.isEmpty then s.recalled line x else s.recallBy line y x
       | none => s.recalled line x)
    | some (.getm c _ r) => if dieOf c = d then s else s.send .getm line c none r
    | t =>
      match t.bind Txn.wants with
      | some (c, m) => if dieOf c = d then s else s.send (if m then .getm else .gets) line c none
      | none => s
  let mine := match e.busy.bind Txn.wants with | some (c, _) => dieOf c = d | none => false
  if e.busy.isSome && (touched || mine) then
    -- the messages of the broken transaction are void, and what they had asked for stands as the entry says
    let s := s.modMem (fun m => { m with msgs := m.msgs.filter (fun x =>
      !(x.line = line && (x.kind = .inv || x.kind = .fwdGets || x.kind = .fwdGetm || x.kind = .fwdRecall || x.kind = .ack))) })
    let s := match r.1 with | some x => s.setDir line { x with busy := none } | none => s.freeDir line
    let s := if r.2 then s.poisonLine line else s
    again s
  else if touched then
    let s := match r.1 with | some x => s.setDir line x | none => s.freeDir line
    if r.2 then s.poisonLine line else s
  else s

/-- Compute die d is reset: its cores lose their caches, and every home purges them. -/
def State.resetCompute (s : State) (d : Nat) : State :=
  let s := ((List.range 144).map (fun i => 144 * d + i) ++ [576 + d]).foldl (fun (s : State) c =>
    s.modCoreAt c (fun k => { k with
      l1 := [], wb := [], h0 := {}, h1 := {}, ended := none, rtlb := [], mrt := [], walk := none, mwalk := none, missVa := none, mmiss := none })) s
  let s := s.modDie d (fun x => { x with walks := [] })
  s.mem.dir.foldl (fun s e => s.purgeLine d e.1 e.2) s

/-- The basin die of a stack is reset: the other dies invalidate every COH line homed there; dirty ones are lost. -/
def State.resetBasin (s : State) (stack : Nat) : State :=
  let here (line : Nat) : Bool := homeSlice (line * 128) / 4 = stack
  let s := s.cores.foldl (fun (s : State) c =>
    c.2.l1.foldl (fun (s : State) x =>
      if x.1 % 2 = 1 || !here (x.1 / 2) then s
      else
        let s := s.dropL1 (x.1 / 2) c.1 false
        if x.2.st = .modified then s.poisonLine (x.1 / 2) else s) s) s
  -- so is the dirty data of a write-back in flight, which the home will not take
  let s := s.cores.foldl (fun (s : State) c =>
    c.2.wb.foldl (fun (s : State) x =>
      if !here x.1 then s
      else
        let s := s.modCoreAt c.1 (fun k => { k with wb := sdel k.wb x.1 })
        if x.2.st = .modified then s.poisonLine x.1 else s) s) s
  s.modMem (fun m => { m with dir := m.dir.filter (fun e => !here e.1) })

/-- Cores with a request that a home on basin die `stack` has not answered. -/
def State.waitingOn (s : State) (stack : Nat) : List Nat :=
  let here (line : Nat) : Bool := homeSlice (line * 128) / 4 = stack
  let asked := (s.mem.msgs.filter (fun m => (m.kind = .gets || m.kind = .getm) && here m.line)).map (fun m => m.core)
  let busy := s.mem.dir.filterMap (fun e => if here e.1 then (e.2.busy.bind Txn.wants).map (·.1) else none)
  let home := s.mem.homeops.filterMap (fun o =>
    match (s.ctxAt o.ctx).ldq.find? (fun q => q.id = o.id) |>.or ((s.ctxAt o.ctx).stq.find? (fun q => q.id = o.id)) with
    | some q => if q.locs.any (fun l => here (l.1.pa / 128)) then some (o.ctx / 8) else none
    | none => none)
  asked ++ busy ++ home

/-- Die reset: dies 0 to 3 are the compute dies, 4 + k the basin die of stack k. Within 100 µs of the last one it is ignored. -/
def State.resetDie (s : State) (die : Nat) : State :=
  let x := s.dieAt die
  let soon : Bool := match x.lastReset with | some t => s.ptime < t + 100000 | none => false
  if soon then s
  else
    let s := s.modDie die (fun x => { x with incarnation := x.incarnation + 1, lastReset := some s.ptime })
    let r : ErrRec := { kind := 0x09, cls := 0, source := 0x5000, cause := Cause.linkLost.code.toNat }
    if die < 4 then
      let ks := s.launchesWith (fun k l => l.dies.getLsbD die && s.baseOf k = 0)
      let s := if ks.isEmpty then s else s.loseLaunches ks r
      s.resetCompute die
    else
      let w := s.waitingOn (die - 4)
      let ks := s.launchesWith (fun k l => s.baseOf k = 0 && w.any (fun c => l.cores.contains c))
      let s := s.resetBasin (die - 4)
      if ks.isEmpty then s else s.loseLaunches ks r

def execDieReset (die : Nat) (s : State) : Host.Outcome State Fault Refusal := onUnit (die < 16) (s.resetDie die)

/-! ### Core repair (19 R336, R337) -/

/-- What could not be read is moved poisoned. -/
def State.poisonUnreadable (s : State) (core : Nat) (u : Unreadable) : State :=
  let on (slot : Nat) (f : Ctx → Ctx) : State := s.modCtxAt (ctxKey core (slot % 8)) f
  match u with
  | .sector n => s.modMem (fun m => { m with pois := setFlag m.pois (spadAddr core 0 / 32 + n % 65536) true })
  | .s k n => on k (fun c => c.setSreg (BitVec.ofNat 6 n) { c.sreg (BitVec.ofNat 6 n) with pois := true })
  | .p k n => on k (fun c => c.setPreg (BitVec.ofNat 3 n) { c.preg (BitVec.ofNat 3 n) with pois := true })
  | .v k n => on k (fun c => c.setVreg (BitVec.ofNat 6 n) { c.vreg (BitVec.ofNat 6 n) with pois := BitVec.allOnes 32 })
  | .m k n => on k (fun c => c.setMreg (BitVec.ofNat 3 n) { c.mreg (BitVec.ofNat 3 n) with pois := BitVec.allOnes 32 })
  | .k k n => on k (fun c => c.setKreg (BitVec.ofNat 4 n) { c.kreg (BitVec.ofNat 4 n) with pois := BitVec.allOnes 4 })
  | .w k n => on k (fun c => c.setWreg (BitVec.ofNat 3 n) { c.wreg (BitVec.ofNat 3 n) with pois := true })
  | .n k i => on k (fun c => c.setNreg (i % 6) { c.nreg (i % 6) with pois := true })
  | .acc k n => on k (fun c => { c with accPois := c.accPois ||| BitVec.ofNat 4096 ((2 ^ 1024 - 1) * 2 ^ (1024 * (n % 4))) })

/-- A frozen core's partitions. -/
def State.partsOn (s : State) (core : Nat) : List Nat := (s.parts.map (·.1)).filter (fun p => s.ownsCluster p (core / 8))

/-- A record for each partition whose context the core holds. -/
def State.coreRecord (s : State) (core : Nat) (r : ErrRec) : State :=
  match s.partsOn core with
  | [] => s.record none r
  | l => l.foldl (fun s p => s.record (some p) r) s

/-- CORE_REPAIR: at a bundle boundary, a core with an error in its own logic moves to its cluster's spare; where there is none or
the control state cannot be read, its contexts stay frozen and the core is lost. -/
def execCoreRepair (core : Nat) (readable : Bool) (bad : List Unreadable) (s : State) : Host.Outcome State Fault Refusal :=
  onUnit (core < 576)
    (if !s.freezable core || s.dev.lost.contains core then s
     else
       let old := s.phys core
       if readable && !s.dev.spareUsed.getLsbD (core / 8) then
         match s.waitFor none (s.emptyWait core) with
         | some t => t
         | none =>
         let s := (s.stopMma core).emptyL1 core
         let s : State := { s with dev := { s.dev with
           coremap := sset s.dev.coremap core 8, spareUsed := setBit s.dev.spareUsed (core / 8) true } }
         let s := s.moveIsland (core / 8 * 9 + core % 8) (core / 8 * 9 + 8)
         let s := bad.foldl (fun s u => s.poisonUnreadable core u) s
         s.coreRecord core { kind := 0x0A, cause := Cause.coreFrozen.code.toNat, source := core, phys := old }
       else
         let s := (s.latchCore core).modCoreAt core (fun k => { k with frozen := true })
         let s : State := { s with dev := { s.dev with lost := s.dev.lost ++ [core] } }
         s.coreRecord core { kind := 0x0B, cause := Cause.coreUe.code.toNat, source := core, phys := old })

end Sys2Proof.Machine
end

