-- ==== Sys2Proof/Machine/Boot.lean ====
section
/-! DEFINITION. Power, device reset, the boot ROM and its verification of the firmware (23 R361 to R363, R367), the PCIe link and
inbound requests (23 R360; 19 R333; 10 R214). -/

namespace Sys2Proof.Machine

/-! ### Power and device reset (00 R5, R8; 23 R361, R363) -/

/-- Memory keys of the host and of other packages, which a reset of this package does not touch. -/
def outsideKey (a : Nat) : Bool := 2 ^ 50 ≤ a && a < 2 ^ 60

/-- Every device-lived state ends and takes its reset value; what stands around the package stays. -/
def State.deviceReset (s : State) : State :=
  { State.reset with
    agenda := s.agenda, freeIx := s.freeIx,
    mem := { bytes := s.mem.bytes.filter (fun e => outsideKey e.1), pois := s.mem.pois.filter (fun e => outsideKey (e.1 * 32)) },
    dev := { pcieUp := s.dev.pcieUp, answers := s.dev.answers } }

/-- The boot ROM starts and measures itself. -/
def State.startRom (s : State) : State :=
  { s with dev := { s.dev with powered := true, mr0 := extendMr s.dev.mr0 Config.bootRom } }

/-- POWER_UP: the control islands run, and the boot window is open. -/
def execPowerUp (s : State) : Host.Outcome State Fault Refusal := if s.dev.powered then .next s else .next s.deviceReset.startRom

/-- POWER_OFF. -/
def execPowerOff (s : State) : Host.Outcome State Fault Refusal := .next s.deviceReset

/-- SIDEBAND_DEVICE_RESET. -/
def execSidebandDeviceReset (s : State) : Host.Outcome State Fault Refusal := .next s.deviceReset.startRom

/-! ### The boot window and verification (23 R361, R362) -/

/-- Bytes of the boot window. -/
def bootWindow : Nat := 2 ^ 26

/-- The firmware runs. -/
def State.booted (s : State) : Bool := s.dev.bootstat = 0x80

/-- BOOTGO: verification of the window's image starts; it is ignored while one is going on and once the firmware runs. -/
def State.bootGo (s : State) : State :=
  if s.booted || s.dev.verifying then s else { s with dev := { s.dev with verifying := true, bootstat := 0x40 } }

def execBootgo (s : State) : Host.Outcome State Fault Refusal := .next s.bootGo

/-- n bytes of the window. -/
def State.window (s : State) (off n : Nat) : List Byte := mgets s.mem.bytes (bootAddr off) n

/-- The body of the image. -/
def State.bootBody (s : State) : List Byte := s.window 256 (leNat (s.window 8 4))

/-- The code of the first check that fails. -/
def State.bootCheck (s : State) : Option Byte :=
  let h := s.window 0 256
  let len := fieldAt h 8 4
  let pub := (h.drop 12).take 57
  if fieldAt h 0 4 ≠ 0x5A465731 || len = 0 || bootWindow - 256 < len || fieldAt h 183 73 ≠ 0 then some 0x01
  else if shake256 pub 32 ≠ leBytes Config.keyDigest.toNat 32 then some 0x02
  else if fieldAt h 4 4 < Config.minSvn then some 0x03
  else if !edVerify Config.ed448Cofactored pub (h.take 69 ++ s.bootBody) ((h.drop 69).take 114) then some 0x04
  else none

/-- BOOT_VERIFY_COMPLETE: a refusal code, or MR1 is extended with the body, the firmware runs, and so do the die fabrics. -/
def execBootVerifyComplete (s : State) : Host.Outcome State Fault Refusal :=
  if !s.dev.verifying then .next s
  else
    match s.bootCheck with
    | some c => .next { s with dev := { s.dev with verifying := false, bootstat := c } }
    | none => .next (({ s with dev := { s.dev with
        verifying := false, bootstat := 0x80, mr1 := extendMr s.dev.mr1 s.bootBody, fwsvn := BitVec.ofNat 8 (leNat (s.window 4 4)) } } : State).gate [648, 649, 650, 651] false)

/-! ### Answers to the outside -/

def State.answer (s : State) (who : Requester) (data : List Byte) : State :=
  { s with dev := { s.dev with answers := { who, data } :: s.dev.answers } }

/-- A requester that can reach the device now: the side-band port always, a function while the PCIe link is up (23 R360, R367). -/
def State.reachable (s : State) (who : Requester) : Bool :=
  match who with
  | .sideband => true
  | .function f => s.dev.pcieUp && f ≤ 256

/-! ### The PCIe link and inbound requests -/

/-- PCIE_LINK_CHANGE: when the link is up again, the records and then the interrupts that waited for it are posted in order. -/
def execPcieLinkChange (up : Bool) (s : State) : Host.Outcome State Fault Refusal :=
  if up && !s.dev.pcieUp then
    let t : State := { s with dev := { s.dev with pcieUp := true, intwait := [] } }
    .next (s.dev.intwait.foldl (fun t x => t.msix x.1 x.2) t.flushLogs)
  else .next { s with dev := { s.dev with pcieUp := up } }

/-- A write of the host through a partition's ranges, where all of it translates; it waits for its lines. -/
def State.hostWrite (s : State) (part va : Nat) (b : List PByte) : State :=
  let ps := pieces va b.length b.length
  match s.waitFor (some part) (s.vaWait part .store ps) with
  | some t => t
  | none =>
    match s.locsVa part .store ps with
    | .error _ => s
    | .ok l => s.wrPieces l b

/-- A read of the host likewise; one that does not translate returns zeros. -/
def State.hostRead (s : State) (part va n : Nat) : State :=
  let ps := pieces va n n
  match s.waitFor (some part) (s.vaWait part .load ps) with
  | some t => t
  | none =>
    match s.locsVa part .load ps with
    | .error _ => s.answer (.function 0) (List.replicate n 0)
    | .ok l => s.answer (.function 0) (pvals (s.rdPieces l))

/-- A write to the boot window, whose sectors keep their poison (19 R333). -/
def State.bootWrite (s : State) (off : Nat) (b : List PByte) : State :=
  if s.booted || bootWindow < off + b.length then s else s.modMem (fun m => m.wr (bootAddr off) b)

/-! ### Requests of other packages (10 R214; 16 R289) -/

/-- The places of n bytes from an offset of window 000. -/
def windowPlaces (off n : Nat) : List (Loc × Nat) := (pieces off n n).map (fun p => ({ space := .ms, pa := p.1 }, p.2))

/-- A contribution that another package forwards arrives where its set is, if the checks hold there. -/
def State.remoteContribution (s : State) (c : RemoteContribution) : State :=
  match s.findSet c.part c.handle with
  | none => s
  | some (b, x) =>
    let g := x.segsize
    if x.fwd || x.segcount ≤ c.seg || x.expect ≤ c.id || g < c.data.length || (c.data.length < g && c.seg * g + c.data.length < x.elems) then s
    else
      s.modBasin b (fun y => { y with inbound := y.inbound ++ [{
        part := c.part, handle := c.handle, round := c.round, id := c.id, seg := c.seg, data := c.data, ctx := deadKey, job := 0, bcy := s.now / 6 }] })

/-- REMOTE_PACKAGE_REQUEST: a store of data, a load where there is none, or a forwarded contribution. -/
def execRemotePackageRequest (off len : Nat) (data : List Byte) (pois : Bool) (con : Option RemoteContribution) (s : State) :
    Host.Outcome State Fault Refusal :=
  match con with
  | some c => .next (s.remoteContribution c)
  | none =>
    let n := if data.isEmpty then len else data.length
    if 12 * 2 ^ 36 < off + n then .next s
    else
      let l := windowPlaces off n
      -- an access that acts for no partition of this package (21 R347)
      match s.waitFor none (firstWait (l.map (fun p => s.locWait p.1))) with
      | some t => .next t
      | none =>
        if data.isEmpty then .next (s.answer (.function 0) (pvals (s.rdPieces l)))
        else .next (s.wrPieces l (data.map (fun b => (b, pois))))

/-! ### The identity and SPDM (23 R364 to R366) -/

/-- The identity key's seed. -/
def identitySeed (svn : Byte) : List Byte :=
  shake256 ([0x47, 0x4F, 0x4C, 0x47, 0x49, 0x4C, 0x2D, 0x5A, 0x4F, 0x46, 0x45, 0x4E, 0x2D, 0x49, 0x44] ++ leBytes Config.uds.toNat 64 ++ [svn]) 57

/-- The firmware answers a request with octets that SPDM lays down, and with what the spec puts into them. -/
def State.spdm (s : State) (who : Requester) (kind : Nat) (tail : List Byte → List Byte) : Host.Outcome State Fault Refusal :=
  if !s.booted || !s.reachable who then .next s
  else
    let o := Config.spdmOctets kind s.freeIx
    .next (({ s with freeIx := s.freeIx + 1 } : State).answer who (o ++ tail o))

def execGetVersion (who : Requester) (param : Nat) (s : State) : Host.Outcome State Fault Refusal := s.spdm who (0x84 + 256 * param) (fun _ => [])
def execGetCapabilities (who : Requester) (param : Nat) (s : State) : Host.Outcome State Fault Refusal := s.spdm who (0xE1 + 256 * param) (fun _ => [])

/-- The algorithms, as SPDM 1.3 numbers them: BaseAsymAlgo EdDSA Ed448, BaseHashAlgo SHA3-512, MeasurementHashAlgo raw bit stream. -/
def spdmAlgorithms : List Byte := leBytes 0x800 4 ++ leBytes 0x20 4 ++ leBytes 1 4

/-- NEGOTIATE_ALGORITHMS: the response selects the three. -/
def execNegotiateAlgorithms (who : Requester) (param : Nat) (s : State) : Host.Outcome State Fault Refusal :=
  s.spdm who (0xE3 + 256 * param) (fun _ => spdmAlgorithms)

/-- The certificate chain, which carries the identity's public key. -/
def State.certChain (s : State) : List Byte := Config.certificate ++ edPublic (identitySeed s.dev.fwsvn)

/-- GET_DIGESTS: the digest of the chain under the hash algorithm. -/
def execGetDigests (who : Requester) (param : Nat) (s : State) : Host.Outcome State Fault Refusal :=
  s.spdm who (0x81 + 256 * param) (fun _ => sha3512 s.certChain)

def execGetCertificate (who : Requester) (param : Nat) (s : State) : Host.Outcome State Fault Refusal :=
  s.spdm who (0x82 + 256 * param) (fun _ => s.certChain)

/-- CHALLENGE: the response is signed with the identity key. -/
def execChallenge (who : Requester) (param : Nat) (s : State) : Host.Outcome State Fault Refusal :=
  s.spdm who (0x83 + 256 * param) (fun o => edSign (identitySeed s.dev.fwsvn) o)

/-- The partition of the context that a function is bound to (14 R255). -/
def State.boundTo (s : State) (f : Nat) : Option Nat :=
  (s.fctxs.find? (fun e => match e.2.entry with | some x => x.valid && x.func = f | none => false)).map (fun e => partOfKey e.1)

/-- The partition whose registers a request sees, and the index that it asks for: of the physical function both stand in param2. -/
def State.measured (s : State) (who : Requester) (param2 : Nat) : Option Nat × Nat :=
  match who with
  | .sideband => (none, param2)
  | .function 0 => (some (param2 / 8 % 32), if param2 % 8 = 7 then 0xFF else param2 % 8)
  | .function f => (s.boundTo f, param2)

/-- The measurement blocks that a requester sees, by index. -/
def State.blocks (s : State) (part : Option Nat) : List (Nat × BitVec 512) :=
  [(1, s.dev.mr0), (2, s.dev.mr1)] ++
    (match part with
     | some p => let q := s.partAt p; [(3, q.pmr0), (4, q.pmr1), (5, q.pmr2)]
     | none => [])

/-- GET_MEASUREMENTS: the blocks asked for, each register whole, at one instant (23 R366). -/
def execGetMeasurements (who : Requester) (param1 param2 : Nat) (s : State) : Host.Outcome State Fault Refusal :=
  let m := s.measured who param2
  let l := (s.blocks m.1).filter (fun b => m.2 = 0xFF || b.1 = m.2)
  s.spdm who (0xE0 + 256 * param1) (fun _ => l.flatMap (fun b => leBytes b.1 1 ++ leBytes b.2.toNat 64))

end Sys2Proof.Machine
end

