-- ==== Sys2Proof/Machine/Registers.lean ====
section
/-! DEFINITION. Register accesses from outside the cores: by PCIe functions, and by the side-band port (00 R7; 14 R242, R247, R255; 15
R263, R275; 19 R335, R339; 21 R346, R347; 23 R360, R367). -/

namespace Sys2Proof.Machine

/-! ### Reads -/

def CmdState.code : CmdState → Nat
  | .stopped => 0
  | .running => 1
  | .faulted => 2

def CmpState.code : CmpState → Nat
  | .idle => 0
  | .copy => 1
  | .forward => 2
  | .done => 3
  | .refused => 4

/-- Whether a function is bound to context k (14 R255). -/
def State.bound (s : State) (f k : Nat) : Bool :=
  match (s.fctxAt k).entry with
  | some e => e.valid && e.func = f
  | none => false

/-- Who may reach a register at all: a context's, the function that it is bound to; any other, the physical function, and the
side-band port where it offers it. -/
def State.mayAccess (s : State) (who : Requester) (a : RegAddr) : Bool :=
  s.reachable who &&
    match who, a with
    | .function f, .ctx k _ => s.bound f k
    | .function f, .part _ _ => f = 0
    | .function f, .dev _ => f = 0
    | .function f, .basin _ _ => f = 0
    | .function f, .die _ _ => f = 0
    | .function f, .slice _ _ => f = 0
    | .sideband, .ctx _ _ => false
    -- telemetry alone shows it
    | .function _, .overruns _ => false
    | .sideband, _ => true

def FCtx.reg (f : FCtx) : CtxReg → Nat
  | .cpbase => f.cpbase.toNat
  | .cpsize => f.cpsize.toNat
  | .head => f.head.toNat
  | .tail => f.tail.toNat
  | .pbase => f.pbase.toNat
  | .cstat => f.cslot.toNat * 2 ^ 40 + f.cword.toNat * 2 ^ 16 + f.ccause.toNat * 2 ^ 8 + f.cstate.code
  | .cctl => 0
  | .csem n => (sget 0 f.csem n).toNat
  | .skewlate => f.skewlate.toNat

def ErrLog.reg (l : ErrLog) : LogReg → Nat
  | .elbase => l.base.toNat
  | .elsize => l.size.toNat
  | .elhead => l.head.toNat
  | .eltail => l.tail.toNat
  | .eldrop => l.drop.toNat

/-- The read of ELDROP clears it. -/
def ErrLog.cleared (l : ErrLog) (r : LogReg) : ErrLog := if r = .eldrop then { l with drop := 0 } else l

def Part.reg (p : Part) : PartReg → Nat
  | .rtbase => p.rtbase.toNat
  | .rtcap => p.rtcap.toNat
  | .rtn => p.rtn.toNat
  | .leasens => p.leasens.toNat
  | .round => p.round.toNat
  | .cmpva => p.cmpva.toNat
  | .cmpoff => p.cmpoff.toNat
  | .cmpctl => 0
  | .cmpstat => min p.cmplines (2 ^ 32 - 1) * 2 ^ 16 + p.cmpreason.toNat * 2 ^ 8 + p.cmpstate.code
  | .wbase n => (sget 0 p.wbase n).toNat
  | .wctl n => (sget 0 p.wctl n).toNat
  | .log r => p.log.reg r
  | .forcedfrz => p.forcedfrz.toNat
  | .swaplate => p.swaplate.toNat

def Chan.reg (c : Chan) : ChanReg → Nat
  | .linkCe => 0
  | .tsvifCe => c.tsvifCe.toNat
  | .arrayCe => c.arrayCe.toNat
  | .arrayUe => c.arrayUe.toNat
  | .scrubCe => c.scrubCe.toNat
  | .scrubUe => c.scrubUe.toNat
  | .alerts => c.alerts.toNat
  | .bankBackoff => c.bankBackoff.toNat
  | .pcfailed => 0

def Chan.cleared (c : Chan) : ChanReg → Chan
  | .linkCe => c
  | .tsvifCe => { c with tsvifCe := 0 }
  | .arrayCe => { c with arrayCe := 0 }
  | .arrayUe => { c with arrayUe := 0 }
  | .scrubCe => { c with scrubCe := 0 }
  | .scrubUe => { c with scrubUe := 0 }
  | .alerts => { c with alerts := 0 }
  | .bankBackoff => { c with bankBackoff := 0 }
  | .pcfailed => c

/-- A counter of a channel; LINK_CE is that of the end at a die of the link given, PCFAILED says whether the channel is FAILED. -/
def State.chanReg (s : State) (ch link die : Nat) (r : ChanReg) : State × Nat :=
  match r with
  | .linkCe => (s.modLink link (fun l => { l with ces := sset l.ces die 0 }), ((s.link link).ce die).toNat)
  | .pcfailed => (s, (sget false s.mem.failed ch).toNat)
  | r => (s.modChan ch (fun c => c.cleared r), (s.chanAt ch).reg r)

def State.devReg (s : State) : DevReg → Nat
  | .skew d k => (sget 0 (s.dieAt d).skew k).toNat
  | .log r => s.dev.log.reg r
  | .island i => (s.dev.island i).step.toNat
  | .bootgo => 0
  | .bootstat => s.dev.bootstat.toNat
  | .fwsvn => s.dev.fwsvn.toNat
  | .funcmode => s.dev.funcmode.toNat
  | .pcap => s.dev.pcap.toNat
  | .pscale => s.dev.pscale.toNat
  | .pwr => s.dev.pwr.toNat
  | .capevt => s.dev.capevt.toNat

def Basin.reg (b : Basin) : BasinReg → Nat
  | .duprej => b.duprej.toNat
  | .bkheld => b.bkheld.toNat
  | .bkstale => b.bkstale.toNat
  | .staleRsp => b.staleRsp.toNat
  | .scrubper => b.scrubper.toNat
  | .mth => b.mth.toNat
  | .chan _ _ => 0

def Basin.cleared (b : Basin) : BasinReg → Basin
  | .duprej => { b with duprej := 0 }
  | .bkheld => { b with bkheld := 0 }
  | .bkstale => { b with bkstale := 0 }
  | .staleRsp => { b with staleRsp := 0 }
  | .scrubper => b
  | .mth => b
  | .chan _ _ => b

def Slice.reg (x : Slice) : SliceReg → Nat
  | .sfovf => x.sfovf.toNat
  | .recalls => x.recalls.toNat
  | .jevdrop => x.jevdrop.toNat
  | .jkill => x.jkill.toNat
  | .jfwddrop => x.jfwddrop.toNat

def Slice.cleared (x : Slice) : SliceReg → Slice
  | .sfovf => { x with sfovf := 0 }
  | .recalls => { x with recalls := 0 }
  | .jevdrop => { x with jevdrop := 0 }
  | .jkill => { x with jkill := 0 }
  | .jfwddrop => { x with jfwddrop := 0 }

/-- A read: the register's value, and the state in which it has been cleared where its code is RC (00 R7). -/
def State.readReg (s : State) (a : RegAddr) : State × Nat :=
  match a with
  | .ctx k r => (if r = .skewlate then s.modFctx k (fun f => { f with skewlate := 0 }) else s, (s.fctxAt k).reg r)
  | .part p (.log r) => (s.modPart p (fun q => { q with log := q.log.cleared r }), (s.partAt p).reg (.log r))
  | .part p r => (s, (s.partAt p).reg r)
  | .dev (.log r) => ({ s with dev := { s.dev with log := s.dev.log.cleared r } }, s.devReg (.log r))
  | .dev .capevt => ({ s with dev := { s.dev with capevt := 0 } }, s.devReg .capevt)
  | .dev r => (s, s.devReg r)
  | .basin b (.chan pc r) => s.chanReg (chanNo b pc) (4 + b) (4 + b) r
  | .basin b r => (s.modBasin b (fun y => y.cleared r), (s.basinAt b).reg r)
  | .die d (.chan c r) => s.chanReg (768 + 20 * d + c % 20) c d r
  | .die d .staleRsp => (s.modDie d (fun x => { x with staleRsp := 0 }), (s.dieAt d).staleRsp.toNat)
  | .die d .scrubper => (s, (s.dieAt d).scrubper.toNat)
  | .die _ .reset => (s, 0)
  | .slice x r => (s.modSlice x (fun y => y.cleared r), (s.sliceAt x).reg r)
  | .overruns c => (s, (s.coreAt c).overruns)

/-- The register exists in the package. -/
def regExists : RegAddr → Bool
  | .ctx k (.csem n) => k < 2048 && n < 16
  | .ctx k _ => k < 2048
  | .part p (.wbase n) => p < 32 && n < 4
  | .part p (.wctl n) => p < 32 && n < 4
  | .part p _ => p < 32
  | .dev (.skew d k) => d < 4 && k < 16
  | .dev (.island i) => i < 704
  | .dev _ => true
  | .basin b (.chan pc _) => b < 12 && pc < 64
  | .basin b _ => b < 12
  | .die d (.chan c .linkCe) => d < 4 && c < 28 && (linkEnds c).contains d
  | .die d (.chan c _) => d < 4 && c < 20
  -- the basin die of stack k is reset as die 4 + k (19 R339)
  | .die d .reset => d < 16
  | .die d _ => d < 4
  | .slice x _ => x < 48
  | .overruns c => c < 576

/-- A read by a requester; what it cannot reach reads as zero (14 R255). -/
def State.readBy (s : State) (who : Requester) (a : RegAddr) : State :=
  if !s.reachable who then s
  else if regExists a && s.mayAccess who a then let r := s.readReg a; r.1.answer who (leBytes r.2 8)
  else s.answer who (leBytes 0 8)

/-- REGISTER_READ_CLEAR. -/
def execRegisterReadClear (who : Requester) (a : RegAddr) (s : State) : Host.Outcome State Fault Refusal := .next (s.readBy who a)

/-! ### Writes -/

/-- The state that an outcome leads to. -/
def reached (s : State) : Host.Outcome State Fault Refusal → State
  | .next t => t
  | .fault _ => s
  | .refused _ => s

/-- CCTL: GO, HALT and KILL in this order (14 R242). -/
def State.cctl (s : State) (k : Nat) (v : Word) : State :=
  let s := if v.getLsbD 0 then reached s (execCctlGo k s) else s
  let s := if v.getLsbD 1 then reached s (execCctlHalt k s) else s
  if v.getLsbD 2 then reached s (execCctlKill k s) else s

def State.writeCtx (s : State) (k : Nat) (r : CtxReg) (v : Word) : State :=
  match r with
  | .cpbase => s.modFctx k (fun f => if f.cstate = .stopped then { f with cpbase := v.setWidth 52 } else f)
  | .cpsize => s.modFctx k (fun f => if f.cstate = .stopped then { f with cpsize := v.setWidth 25 } else f)
  | .head => s
  | .tail => s.modFctx k (fun f => { f with tail := v.setWidth 24 })
  | .pbase => s.modFctx k (fun f => { f with pbase := v.setWidth 52 })
  | .cstat => s
  | .cctl => s.cctl k v
  | .csem n => s.modFctx k (fun f => f.storeCsem s.ptime n (v.setWidth 32))
  | .skewlate => s

def ErrLog.write (l : ErrLog) (r : LogReg) (v : Word) : ErrLog :=
  match r with
  | .elbase => { l with base := v.setWidth 52 }
  | .elsize => { l with size := v.setWidth 16 }
  | .elhead => { l with head := v.setWidth 16 }
  | .eltail => l
  | .eldrop => l

/-- The registers of the range table change only while none of the partition's contexts is resident (15 R263). -/
def Part.idle (p : Part) : Bool := p.resident.isNone && p.swapping.isNone

def State.writePartReg (s : State) (p : Nat) (r : PartReg) (v : Word) : State :=
  let table (f : Part → Part) : State := s.modPart p (fun q => if q.idle then f q else q)
  match r with
  | .rtbase => table (fun q => { q with rtbase := v.setWidth 51 })
  | .rtcap => table (fun q => { q with rtcap := v.setWidth 17 })
  | .leasens => table (fun q => { q with leasens := v.setWidth 16 })
  | .rtn => s
  | .round => s
  | .cmpva => s.modPart p (fun q => { q with cmpva := v.setWidth 52 })
  | .cmpoff => s.modPart p (fun q => { q with cmpoff := v })
  | .cmpctl => if v.getLsbD 0 then reached s (execCmpctlGo p s) else s
  | .cmpstat => s
  | .wbase n => s.modPart p (fun q => { q with wbase := sset q.wbase n (v.setWidth 52) })
  | .wctl n => s.modPart p (fun q => { q with wctl := sset q.wctl n (v &&& 0xC00FFFFFFFFFFFFF) })
  | .log r => s.modPart p (fun q => { q with log := q.log.write r v })
  | .forcedfrz => s
  | .swaplate => s

def State.writeDev (s : State) (who : Requester) (r : DevReg) (v : Word) : State :=
  match r with
  | .skew d k => s.modDie d (fun x => { x with skew := sset x.skew k (v.setWidth 16) })
  | .log r => { s with dev := { s.dev with log := s.dev.log.write r v } }
  -- the step of expert control (23 R368)
  | .island i => { s with dev := { s.dev with islandRaw := sset s.dev.islandRaw i (v.setWidth 4) } }
  | .bootgo => if v.getLsbD 0 then s.bootGo else s
  | .bootstat => s
  | .fwsvn => s
  | .funcmode => s.setFuncmode who v
  | .pcap => s.setPcap who v
  -- the raw value of expert control (23 R368)
  | .pscale => { s with dev := { s.dev with pscaleRaw := some (v.setWidth 9) } }
  | .pwr => s
  | .capevt => s

def State.writeReg (s : State) (who : Requester) (a : RegAddr) (v : Word) : State :=
  match a with
  | .ctx k r => s.writeCtx k r v
  | .part p r => s.writePartReg p r v
  | .dev r => s.writeDev who r v
  | .basin b .scrubper => s.setScrubper b false v
  | .basin b .mth => s.setMth b v
  | .basin _ _ => s
  | .die d .scrubper => s.setScrubper d true v
  | .die d .reset => if v.getLsbD 0 then s.resetDie d else s
  | .die _ _ => s
  | .slice _ _ => s
  | .overruns _ => s

/-- Whether the side-band port may write a register: PCAP alone (23 R367). -/
def sidebandWrites (a : RegAddr) : Bool := match a with | .dev .pcap => true | _ => false

/-- REGISTER_WRITE: a register that the writer cannot reach ignores it. -/
def execRegisterWrite (who : Requester) (a : RegAddr) (v : Word) (s : State) : Host.Outcome State Fault Refusal :=
  if regExists a && s.mayAccess who a && (who ≠ .sideband || sidebandWrites a) then .next (s.writeReg who a v) else .next s

/-! ### The side-band port (23 R367) -/

/-- SIDEBAND_TELEMETRY_READ. -/
def execSidebandTelemetryRead (a : RegAddr) (s : State) : Host.Outcome State Fault Refusal := .next (s.readBy .sideband a)

/-- SIDEBAND_ERRLOG_READ: entry i of the device error log; one that cannot be read answers nothing. -/
def execSidebandErrlogRead (i : Nat) (s : State) : Host.Outcome State Fault Refusal :=
  let l := s.dev.log
  let ps := pieces (l.base.toNat + 64 * i) 64 64
  if l.size.toNat ≤ i then .next (s.answer .sideband [])
  else match s.waitFor (some 0) (s.vaWait 0 .load ps) with
  | some t => .next t
  | none =>
    match s.readVa 0 .load ps with
    | .ok b => .next (s.answer .sideband (pvals b))
    | .error _ => .next (s.answer .sideband [])

/-- SIDEBAND_PCAP_ACCESS: a read, or a write. -/
def execSidebandPcapAccess (w : Option Word) (s : State) : Host.Outcome State Fault Refusal :=
  match w with
  | none => .next (s.answer .sideband (leBytes s.dev.pcap.toNat 2))
  | some v => .next (s.setPcap .sideband v)

/-- SIDEBAND_BOOT_READ: BOOTSTAT and FWSVN. -/
def execSidebandBootRead (s : State) : Host.Outcome State Fault Refusal :=
  .next (s.answer .sideband [s.dev.bootstat, s.dev.fwsvn])

/-! ### Inbound requests over PCIe (23 R360, R361; 19 R333) -/

/-- Offset of a context's register in its block (14 R242). -/
def ctxRegAt (off : Nat) : Option CtxReg :=
  match off with
  | 0x00 => some .cpbase
  | 0x08 => some .cpsize
  | 0x10 => some .head
  | 0x18 => some .tail
  | 0x20 => some .pbase
  | 0x28 => some .cstat
  | 0x30 => some .cctl
  | 0x80 => some .skewlate
  | _ => if 0x40 ≤ off && off < 0x80 && off % 4 = 0 then some (.csem ((off - 0x40) / 4)) else none

/-- Of a log's registers in a partition's or the device's block (21 R347). -/
def logRegAt (off : Nat) : Option LogReg :=
  match off with
  | 0x180 => some .elbase
  | 0x188 => some .elsize
  | 0x190 => some .elhead
  | 0x198 => some .eltail
  | 0x1A0 => some .eldrop
  | _ => none

/-- Of a partition's registers in its block (15 R263, R275; 19 R335). -/
def partRegAt (off : Nat) : Option PartReg :=
  match off with
  | 0x00 => some .rtbase
  | 0x08 => some .rtcap
  | 0x10 => some .rtn
  | 0x18 => some .leasens
  | 0x20 => some .round
  | 0x40 => some .cmpva
  | 0x48 => some .cmpoff
  | 0x50 => some .cmpctl
  | 0x58 => some .cmpstat
  | _ =>
    if 0x100 ≤ off && off < 0x140 then
      if off % 16 = 0 then some (.wbase ((off - 0x100) / 16)) else if off % 16 = 8 then some (.wctl ((off - 0x100) / 16)) else none
    else (logRegAt off).map .log

/-- Of the device's registers in the physical function's block (21 R347; 23 R362, R368, R370). -/
def devRegAt (off : Nat) : Option DevReg :=
  match off with
  | 0x300 => some .bootgo
  | 0x308 => some .bootstat
  | 0x310 => some .fwsvn
  | 0x320 => some .funcmode
  | 0x340 => some .pcap
  | 0x348 => some .pscale
  | 0x350 => some .pwr
  | 0x358 => some .capevt
  | _ => (logRegAt off).map .log

/-- The register at an offset of a function's BAR: of BAR0, one of the context that the function is bound to; of the physical
function's BAR2, one of the device or of a partition's block, wherever that lies. -/
def State.barReg (s : State) (f bar off : Nat) : Option RegAddr :=
  match bar with
  | 0 =>
    match (s.fctxs.map (·.1)).find? (s.bound f) with
    | some k => (ctxRegAt off).map (RegAddr.ctx k)
    | none => none
  | 2 =>
    if f ≠ 0 then none
    else match (devRegAt off).map RegAddr.dev with
    | some a => some a
    | none => (List.range 32).findSome? (fun p =>
        if Config.partBlock p ≤ off then (partRegAt (off - Config.partBlock p)).map (RegAddr.part p) else none)
  | _ => none

/-- Where the boot window stands in the physical function's BAR2. -/
def bootBar : Nat := 0x10000000

/-- An access to a BAR of a function: a write of data, or a read of len bytes. What is no register reads as zero and ignores
writes (14 R255). -/
def State.barAccess (s : State) (f bar off len : Nat) (data : List PByte) : State :=
  if f = 0 && bar = 2 && bootBar ≤ off && off < bootBar + bootWindow then
    if data.isEmpty then
      s.answer (.function f) (if s.booted || bootBar + bootWindow < off + len then List.replicate len 0 else s.window (off - bootBar) len)
    else s.bootWrite (off - bootBar) data
  else
    match s.barReg f bar off with
    | none => if data.isEmpty then s.answer (.function f) (List.replicate len 0) else s
    | some a =>
      if data.isEmpty then
        (if s.mayAccess (.function f) a then let r := s.readReg a; r.1.answer (.function f) (leBytes r.2 len)
         else s.answer (.function f) (List.replicate len 0))
      else if regExists a && s.mayAccess (.function f) a then s.writeReg (.function f) a (BitVec.ofNat 64 (leNat (pvals data))) else s

/-- Where a request goes: to memory through the ranges of a partition, or from number 32 on, to BAR b of function f, which is
32 + 8 f + b. -/
def State.inbound (s : State) (va part len : Nat) (data : List PByte) : State :=
  if 32 ≤ part then s.barAccess ((part - 32) / 8) ((part - 32) % 8) va len data
  else if data.isEmpty then s.hostRead part va len
  else s.hostWrite part va data

/-- INBOUND_MEMORY_TLP: a write of data, or a read of len bytes where there is none. -/
def execInboundMemoryTlp (va part len : Nat) (data : List Byte) (s : State) : Host.Outcome State Fault Refusal :=
  .next (if s.dev.pcieUp then s.inbound va part len (clean data) else s)

/-- INBOUND_POISONED_TLP: the sectors that it writes are poisoned. -/
def execInboundPoisonedTlp (va part : Nat) (data : List Byte) (s : State) : Host.Outcome State Fault Refusal :=
  .next (if s.dev.pcieUp then s.inbound va part 0 (data.map (fun b => (b, true))) else s)

end Sys2Proof.Machine
end

