-- ==== Sys2Proof/Machine/Partitions.lean ====
section
/-! DEFINITION. The configuration of a partition by the physical function (14 R254 to R256; 15 R263, R265; 17 R307, R314; 23
R363). -/

namespace Sys2Proof.Machine

/-! ### Checks -/

def distinctOn {α : Type} (l : List α) (f : α → Nat) : Bool := distinct (l.map f)

/-- A valid entry of the context list (14 R256). -/
def entryLegal (e : ContextEntry) : Bool :=
  e.func ≤ 256 && 1 ≤ e.hmax && e.hmax ≤ 15 && 1 ≤ e.slice && e.slice ≤ 1000000 && e.plimit ≤ e.slice && 16 ≤ e.rate && e.rate ≤ 65535
    && e.rate ≤ e.ceil && e.ceil ≤ 2 ^ 31 && e.underlim < 65536

/-- Functions of the valid entries other than the physical function. -/
def boundFunctions (l : List (Nat × ContextEntry)) : List Nat :=
  (l.filter (fun e => e.2.valid && e.2.func ≠ 0)).map (fun e => e.2.func)

/-- The other partitions that are configured. -/
def State.otherConfigs (s : State) (p : Nat) : List (Nat × Part × PartConfig) :=
  s.parts.filterMap (fun e => if e.1 = p then none else e.2.config.map (fun c => (e.1, e.2, c)))

def State.contextsLegal (s : State) (p : Nat) (c : PartConfig) : Bool :=
  let bound := boundFunctions c.contexts ++ (s.otherConfigs p).flatMap (fun o => boundFunctions o.2.2.contexts)
  c.contexts.all (fun e => e.1 < 64 && (!e.2.valid || entryLegal e.2)) && distinctOn c.contexts (·.1) && distinct bound

def tableLegal (c : PartConfig) : Bool :=
  c.rtbase < 3 * 2 ^ 48 && c.rtbase % 32 = 0 && 1 ≤ c.rtcap && c.rtcap ≤ 65536 && c.table.length ≤ c.rtcap
    && paValid c.rtbase && paValid (c.rtbase + 32 * c.rtcap - 1) && 1 ≤ c.leasens && c.leasens ≤ 65535

def handlerWindow (h : JetHandler) : Nat × Nat := (h.winbase, h.winsize)

/-- No two of the intervals meet. -/
def apart : List (Nat × Nat) → Bool
  | [] => true
  | x :: r => !r.any (overlaps x) && apart r

def handlerLegal (h : JetHandler) : Bool :=
  h.misspc < 65536 && h.fillpc < 65536 && h.evictpc < 65536 && h.msgpc < 65536 && h.budget ≤ 65535
    && h.winbase % 1024 = 0 && 0x4000 ≤ h.winbase && 1024 ≤ h.winsize && h.winsize ≤ 0xC000 && h.winsize % 1024 = 0
    && h.winbase + h.winsize ≤ 0x10000 && h.reserved = 0

/-- Code placed for the other partitions. -/
def State.otherCode (s : State) (p : Nat) : List (Nat × Nat) :=
  (s.otherConfigs p).flatMap (fun o => o.2.1.code.map (fun x => (x.2.1, (x.2.2 + 1023) / 1024 * 1024)))

def State.otherWindows (s : State) (p : Nat) : List (Nat × Nat) :=
  (s.otherConfigs p).flatMap (fun o => o.2.2.handlers.map (fun h => handlerWindow h.2))

/-- The handler table keeps its layout, its windows meet no other window and no code (17 R307, R314). -/
def State.handlersLegal (s : State) (p : Nat) (c : PartConfig) : Bool :=
  let w := c.handlers.map (fun h => handlerWindow h.2)
  c.handlers.all (fun h => 1 ≤ h.1 && h.1 ≤ 63 && handlerLegal h.2) && distinctOn c.handlers (·.1)
    && apart w && w.all (fun x => !(s.otherWindows p ++ s.otherCode p).any (overlaps x))

def objectLegal (d : ObjectDesc) : Bool :=
  d.obj < 256 && 1 ≤ d.nmeth && d.nmeth ≤ 32 && d.home < 48 && d.reserved = 0 && d.size % 8 = 0 && d.size ≤ 65536 && d.mbits < 2 ^ 32
    && d.mbudget < 65536 && d.codesize ≤ 0x8000 && d.entry.length = 16 && d.entry.all (fun e => e < 65536)

/-- The lowest multiple of 1,024 from 0x4000 up at which n bytes are free. -/
def freePlace (used : List (Nat × Nat)) (n : Nat) : Option Nat :=
  ((List.range 48).map (fun i => 0x4000 + 1024 * i)).find? (fun o => o + n ≤ 0x10000 && !used.any (overlaps (o, n)))

/-- The places of the objects' code, in ascending object order: object, offset and CODESIZE (17 R314). -/
def placeCode : List (Nat × Nat) → List ObjectDesc → Option (List (Nat × Nat × Nat))
  | _, [] => some []
  | used, d :: r =>
    let n := (d.codesize + 1023) / 1024 * 1024
    match freePlace used n with
    | none => none
    | some o => (placeCode ((o, n) :: used) r).map (fun l => (d.obj, o, d.codesize) :: l)

def inOrder (l : List ObjectDesc) : List ObjectDesc := (List.range 256).filterMap (fun i => l.find? (fun d => d.obj = i))

/-- The clusters are no other partition's. -/
def State.clustersApart (s : State) (p : Nat) (c : PartConfig) : Bool :=
  (s.otherConfigs p).all (fun o => o.2.2.clusters &&& c.clusters = 0)

/-! ### Effects -/

/-- The table is loaded at RTBASE and RTN counts its entries. -/
def State.loadTable (s : State) (p : Nat) (c : PartConfig) : State :=
  let s := s.modPart p (fun q => { q with
    config := some c, rtbase := BitVec.ofNat 51 c.rtbase, rtcap := BitVec.ofNat 17 c.rtcap, rtn := BitVec.ofNat 17 c.table.length,
    leasens := BitVec.ofNat 16 c.leasens })
  c.table.zipIdx.foldl (fun s e => s.cohWr (c.rtbase + 32 * e.2) (clean (leBytes e.1.toNat 32))) s

def State.tableBusy (s : State) (c : PartConfig) : Bool :=
  (List.range (c.table.length / 4 + 2)).any (fun i => s.lineBusy (c.rtbase / 128 + i))

/-- n bytes of an image, through the partition's ranges. -/
def State.image (s : State) (p va n : Nat) : Option (List Byte) :=
  match s.readVa p .load (pieces va n n) with
  | .ok b => some (pvals b)
  | .error _ => none

def State.sramWrite (s : State) (sl off : Nat) (b : List Byte) : State :=
  s.modMem (fun m => { m with bytes := msets m.bytes (jetAddr sl off) b })

/-- What belongs to the image of a context of partition p. -/
def imageOf (p core : Nat) : Bool := core / 8192 ≠ 0 && partOfKey (core / 8192 - 1) = p

/-- The core starts afresh: what its L1 holds is written back. -/
def State.clearCore (s : State) (core : Nat) : State :=
  let s := s.emptyL1 core
  let s := (List.range 8).foldl (fun (s : State) j => s.setCtxAt (ctxKey core j) {}) s
  s.modCoreAt core (fun k => { wb := k.wb, busy := k.busy, gated := k.gated, frozen := k.frozen, overruns := k.overruns })

/-- The contexts of the old configuration end. -/
def State.dropContexts (s : State) (p : Nat) : State :=
  let ks := (s.fctxs.map (·.1)).filter (fun k => partOfKey k = p)
  let s := ks.foldl (fun (s : State) k => s.endLaunch k 2) s
  let spad (a : Nat) : Bool := 2 ^ 60 ≤ a && imageOf p ((a - 2 ^ 60) / 2 ^ 21)
  let s := s.modMem (fun m => { m with
    bytes := m.bytes.filter (fun e => !spad e.1), pois := m.pois.filter (fun e => !spad (e.1 * 32)),
    full := m.full.filter (fun e => !imageOf p (e.1 * 128 / 2 ^ 21)) })
  { s with
    fctxs := s.fctxs.filter (fun e => partOfKey e.1 ≠ p),
    ctxs := s.ctxs.filter (fun e => !imageOf p (e.1 / 8)),
    cores := s.cores.filter (fun e => !imageOf p e.1),
    phasers := s.phasers.filter (fun e => !imageOf p (e.1 / 4)),
    deliveries := s.deliveries.filter (fun d => partOfKey d.k ≠ p),
    copyjobs := s.copyjobs.filter (fun j => partOfKey j.k ≠ p),
    rounds := s.rounds.filter (fun r => r.part ≠ p),
    calls := s.calls.filter (fun r => r.part ≠ p),
    objects := s.objects.filter (fun o => o.1 / 256 ≠ p) }

/-- The contexts of the new one begin (00 R5). -/
def State.makeContexts (s : State) (p : Nat) (l : List (Nat × ContextEntry)) : State :=
  l.foldl (fun s e => s.modFctx (p * 64 + e.1) (fun _ => { entry := some e.2, rate := e.2.rate })) s

/-- The partition's measurement registers start at zero and take the configuration, the images in table order and the code in the
order of its loading (23 R363). -/
def State.measure (s : State) (p : Nat) (c : PartConfig) (images codes : List (List Byte)) : State :=
  s.modPart p (fun q => { q with
    pmr0 := extendMr 0 (Config.configOctets c), pmr1 := images.foldl extendMr 0, pmr2 := codes.foldl extendMr 0 })

/-- Cores of the clusters of a mask. -/
def coresOf (clusters : BitVec 72) : List Nat := (List.range 576).filter (fun c => clusters.getLsbD (c / 8))

/-- The partition takes its new configuration, whose images and code have been read. -/
def State.configure (s : State) (p : Nat) (c : PartConfig) (places : List (Nat × Nat × Nat))
    (images states codes : List (List Byte)) : State :=
  let old := match (s.partAt p).config with | some o => o.clusters | none => 0
  let s := ((coresOf (old ||| c.clusters))).foldl State.clearCore (s.dropContexts p)
  let s := s.loadTable p c
  let s := s.modPart p (fun q => { q with code := places })
  let s := (c.handlers.zip images).foldl (fun s h => (List.range 48).foldl (fun s sl => s.sramWrite sl h.1.2.winbase h.2) s) s
  let s := (c.objects.zip states).foldl (fun s o =>
    (List.range 4).foldl (fun s d => s.modMem (fun m => { m with bytes := msets m.bytes (replicaAddr p o.1.obj d 0) o.2 })) s) s
  let s := (c.objects.zip codes).foldl (fun s o =>
    match places.find? (fun x => x.1 = o.1.obj) with
    | some x => (List.range 4).foldl (fun s d => s.sramWrite (replaySlice d) x.2.1 o.2) s
    | none => s) s
  -- no context is resident on the cores, and the slices are in use (23 R369)
  let s := (s.gateCores (coresOf (old ||| c.clusters)) true).gate ((List.range 48).map (652 + ·)) false
  (s.makeContexts p c.contexts).measure p c images codes

/-- The handlers in the order of their table, and the objects in that of their loading. -/
def inTableOrder (c : PartConfig) : PartConfig :=
  { c with handlers := (List.range 64).filterMap (fun i => c.handlers.find? (fun h => h.1 = i)), objects := inOrder c.objects }

/-- What the configuration waits for: the lines that its cores' L1s write back, and those of the images that it reads. -/
def State.configWait (s : State) (p : Nat) (c : PartConfig) : Wait :=
  let old := match (s.partAt p).config with | some o => o.clusters | none => 0
  let image (va n : Nat) : Wait := s.vaWait p .load (pieces va n n)
  firstWait ((coresOf (old ||| c.clusters)).map s.emptyWait ++ c.handlers.map (fun h => image h.2.imageva h.2.winsize)
    ++ c.objects.flatMap (fun d => [image d.stateva d.size, image d.codeva d.codesize]))

/-- PARTITION_CONFIGURATION: it is taken whole or refused whole, and it changes only while none of the partition's contexts is
resident. -/
def execPartitionConfiguration (p : Nat) (c : PartConfig) (s : State) : Host.Outcome State Fault Refusal :=
  let c := inTableOrder c
  let ok := p < 32 && s.dev.pcieUp && (s.partAt p).idle && s.clustersApart p c && s.contextsLegal p c && tableLegal c && s.handlersLegal p c
    && c.objects.length ≤ 256 && c.objects.all objectLegal && distinctOn c.objects (·.obj) && !s.tableBusy c
  if !ok then .next s
  else
    let used := s.otherWindows p ++ s.otherCode p ++ c.handlers.map (fun h => handlerWindow h.2)
    let t := s.loadTable p c
    match t.waitFor (some p) (t.configWait p c) with
    | some u => .next { s with mem := { s.mem with fills := u.mem.fills }, slices := u.slices }
    | none =>
    match placeCode used c.objects, c.handlers.mapM (fun h => t.image p h.2.imageva h.2.winsize),
      c.objects.mapM (fun d => t.image p d.stateva d.size), c.objects.mapM (fun d => t.image p d.codeva d.codesize) with
    | some places, some images, some states, some codes => .next (s.configure p c places images states codes)
    | _, _, _, _ => .next s

end Sys2Proof.Machine
end

