-- ==== Sys2Proof/Machine/Dispatch.lean ====
section
/-! DEFINITION. One arm per instruction: the direct call of its meaning. -/

namespace Sys2Proof.Machine

def exec (i : Instr) (s : State) : Host.Outcome State Fault Refusal :=
  match i with
  | .add r => Sys2Proof.Machine.execAdd r s
  | .sub r => Sys2Proof.Machine.execSub r s
  | .mul r => Sys2Proof.Machine.execMul r s
  | .mulh r => Sys2Proof.Machine.execMulh r s
  | .mulhu r => Sys2Proof.Machine.execMulhu r s
  | .mulhsu r => Sys2Proof.Machine.execMulhsu r s
  | .div r => Sys2Proof.Machine.execDiv r s
  | .divu r => Sys2Proof.Machine.execDivu r s
  | .rem r => Sys2Proof.Machine.execRem r s
  | .remu r => Sys2Proof.Machine.execRemu r s
  | .and r => Sys2Proof.Machine.execAnd r s
  | .or r => Sys2Proof.Machine.execOr r s
  | .xor r => Sys2Proof.Machine.execXor r s
  | .andn r => Sys2Proof.Machine.execAndn r s
  | .shl r => Sys2Proof.Machine.execShl r s
  | .shr r => Sys2Proof.Machine.execShr r s
  | .sar r => Sys2Proof.Machine.execSar r s
  | .ror r => Sys2Proof.Machine.execRor r s
  | .min r => Sys2Proof.Machine.execMin r s
  | .minu r => Sys2Proof.Machine.execMinu r s
  | .max r => Sys2Proof.Machine.execMax r s
  | .maxu r => Sys2Proof.Machine.execMaxu r s
  | .cmp r => Sys2Proof.Machine.execCmp r s
  | .cmpu r => Sys2Proof.Machine.execCmpu r s
  | .sel r => Sys2Proof.Machine.execSel r s
  | .clz r => Sys2Proof.Machine.execClz r s
  | .ctz r => Sys2Proof.Machine.execCtz r s
  | .popc r => Sys2Proof.Machine.execPopc r s
  | .brev r => Sys2Proof.Machine.execBrev r s
  | .sextb r => Sys2Proof.Machine.execSextb r s
  | .sexth r => Sys2Proof.Machine.execSexth r s
  | .sextw r => Sys2Proof.Machine.execSextw r s
  | .zextw r => Sys2Proof.Machine.execZextw r s
  | .pand r => Sys2Proof.Machine.execPand r s
  | .por r => Sys2Proof.Machine.execPor r s
  | .pxor r => Sys2Proof.Machine.execPxor r s
  | .pandn r => Sys2Proof.Machine.execPandn r s
  | .mfp r => Sys2Proof.Machine.execMfp r s
  | .mtp r => Sys2Proof.Machine.execMtp r s
  | .bfx r => Sys2Proof.Machine.execBfx r s
  | .bfi r => Sys2Proof.Machine.execBfi r s
  | .addi r => Sys2Proof.Machine.execAddi r s
  | .andi r => Sys2Proof.Machine.execAndi r s
  | .ori r => Sys2Proof.Machine.execOri r s
  | .xori r => Sys2Proof.Machine.execXori r s
  | .shli r => Sys2Proof.Machine.execShli r s
  | .shri r => Sys2Proof.Machine.execShri r s
  | .sari r => Sys2Proof.Machine.execSari r s
  | .muli r => Sys2Proof.Machine.execMuli r s
  | .cmpi r => Sys2Proof.Machine.execCmpi r s
  | .movi r => Sys2Proof.Machine.execMovi r s
  | .movk r => Sys2Proof.Machine.execMovk r s
  | .vget r => Sys2Proof.Machine.execVget r s
  | .br r => Sys2Proof.Machine.execBr r s
  | .loop r => Sys2Proof.Machine.execLoop r s
  | .nest r => Sys2Proof.Machine.execNest r s
  | .next g => Sys2Proof.Machine.execNext g s
  | .calls r => Sys2Proof.Machine.execCalls r s
  | .rets g => Sys2Proof.Machine.execRets g s
  | .yieldEnd g => Sys2Proof.Machine.execYieldEnd g s
  | .yieldExit g => Sys2Proof.Machine.execYieldExit g s
  | .yieldHdone g => Sys2Proof.Machine.execYieldHdone g s
  | .trap r => Sys2Proof.Machine.execTrap r s
  | .mfs r => Sys2Proof.Machine.execMfs r s
  | .mts r => Sys2Proof.Machine.execMts r s
  | .rdtimePtime r => Sys2Proof.Machine.execRdtimePtime r s
  | .rdtimeCycles r => Sys2Proof.Machine.execRdtimeCycles r s
  | .vadd r => Sys2Proof.Machine.execVadd r s
  | .vsub r => Sys2Proof.Machine.execVsub r s
  | .vmul r => Sys2Proof.Machine.execVmul r s
  | .vfma r => Sys2Proof.Machine.execVfma r s
  | .vfms r => Sys2Proof.Machine.execVfms r s
  | .vfnma r => Sys2Proof.Machine.execVfnma r s
  | .vmin r => Sys2Proof.Machine.execVmin r s
  | .vmax r => Sys2Proof.Machine.execVmax r s
  | .vminn r => Sys2Proof.Machine.execVminn r s
  | .vmaxn r => Sys2Proof.Machine.execVmaxn r s
  | .vabs r => Sys2Proof.Machine.execVabs r s
  | .vneg r => Sys2Proof.Machine.execVneg r s
  | .vand r => Sys2Proof.Machine.execVand r s
  | .vor r => Sys2Proof.Machine.execVor r s
  | .vxor r => Sys2Proof.Machine.execVxor r s
  | .vandn r => Sys2Proof.Machine.execVandn r s
  | .vshl r => Sys2Proof.Machine.execVshl r s
  | .vshr r => Sys2Proof.Machine.execVshr r s
  | .vsar r => Sys2Proof.Machine.execVsar r s
  | .vshli r => Sys2Proof.Machine.execVshli r s
  | .vshri r => Sys2Proof.Machine.execVshri r s
  | .vsari r => Sys2Proof.Machine.execVsari r s
  | .vcmp r => Sys2Proof.Machine.execVcmp r s
  | .vsel r => Sys2Proof.Machine.execVsel r s
  | .vcvt r => Sys2Proof.Machine.execVcvt r s
  | .vperm r => Sys2Proof.Machine.execVperm r s
  | .vshuf r => Sys2Proof.Machine.execVshuf r s
  | .vbcast r => Sys2Proof.Machine.execVbcast r s
  | .vmovi r => Sys2Proof.Machine.execVmovi r s
  | .vred r => Sys2Proof.Machine.execVred r s
  | .vscan r => Sys2Proof.Machine.execVscan r s
  | .vmov r => Sys2Proof.Machine.execVmov r s
  | .vclz r => Sys2Proof.Machine.execVclz r s
  | .vpopc r => Sys2Proof.Machine.execVpopc r s
  | .vmulh r => Sys2Proof.Machine.execVmulh r s
  | .vdot4 r => Sys2Proof.Machine.execVdot4 r s
  | .vmxq r => Sys2Proof.Machine.execVmxq r s
  | .vmxdq r => Sys2Proof.Machine.execVmxdq r s
  | .vmlog r => Sys2Proof.Machine.execVmlog r s
  | .vmcnt r => Sys2Proof.Machine.execVmcnt r s
  | .vins r => Sys2Proof.Machine.execVins r s
  | .fexp2 r => Sys2Proof.Machine.execFexp2 r s
  | .flog2 r => Sys2Proof.Machine.execFlog2 r s
  | .frcp r => Sys2Proof.Machine.execFrcp r s
  | .frsqrt r => Sys2Proof.Machine.execFrsqrt r s
  | .fsqrt r => Sys2Proof.Machine.execFsqrt r s
  | .ftanh r => Sys2Proof.Machine.execFtanh r s
  | .fsin r => Sys2Proof.Machine.execFsin r s
  | .fcos r => Sys2Proof.Machine.execFcos r s
  | .spk24 r => Sys2Proof.Machine.execSpk24 r s
  | .spx24 r => Sys2Proof.Machine.execSpx24 r s
  | .vsort r => Sys2Proof.Machine.execVsort r s
  | .vsrch r => Sys2Proof.Machine.execVsrch r s
  | .mxscl r => Sys2Proof.Machine.execMxscl r s
  | .vundc r => Sys2Proof.Machine.execVundc r s
  | .frill r => Sys2Proof.Machine.execFrill r s
  | .ld r => Sys2Proof.Machine.execLd r s
  | .st r => Sys2Proof.Machine.execSt r s
  | .ldv r => Sys2Proof.Machine.execLdv r s
  | .stv r => Sys2Proof.Machine.execStv r s
  | .ldsc r => Sys2Proof.Machine.execLdsc r s
  | .wset r => Sys2Proof.Machine.execWset r s
  | .cflushClean r => Sys2Proof.Machine.execCflushClean r s
  | .cflushFlush r => Sys2Proof.Machine.execCflushFlush r s
  | .cflushInv r => Sys2Proof.Machine.execCflushInv r s
  | .cflushRangenc r => Sys2Proof.Machine.execCflushRangenc r s
  | .atomSwap r => Sys2Proof.Machine.execAtomSwap r s
  | .atomCas r => Sys2Proof.Machine.execAtomCas r s
  | .atomAdd r => Sys2Proof.Machine.execAtomAdd r s
  | .atomAnd r => Sys2Proof.Machine.execAtomAnd r s
  | .atomOr r => Sys2Proof.Machine.execAtomOr r s
  | .atomXor r => Sys2Proof.Machine.execAtomXor r s
  | .atomMin r => Sys2Proof.Machine.execAtomMin r s
  | .atomMax r => Sys2Proof.Machine.execAtomMax r s
  | .atomMinu r => Sys2Proof.Machine.execAtomMinu r s
  | .atomMaxu r => Sys2Proof.Machine.execAtomMaxu r s
  | .atomFadd r => Sys2Proof.Machine.execAtomFadd r s
  | .atomIncw r => Sys2Proof.Machine.execAtomIncw r s
  | .atomLd r => Sys2Proof.Machine.execAtomLd r s
  | .qmark r => Sys2Proof.Machine.execQmark r s
  | .fence r => Sys2Proof.Machine.execFence r s
  | .copy r => Sys2Proof.Machine.execCopy r s
  | .put r => Sys2Proof.Machine.execPut r s
  | .get r => Sys2Proof.Machine.execGet r s
  | .gather r => Sys2Proof.Machine.execGather r s
  | .scatter r => Sys2Proof.Machine.execScatter r s
  | .scadd r => Sys2Proof.Machine.execScadd r s
  | .awr r => Sys2Proof.Machine.execAwr r s
  | .engwait r => Sys2Proof.Machine.execEngwait r s
  | .cpresume r => Sys2Proof.Machine.execCpresume r s
  | .cpabort r => Sys2Proof.Machine.execCpabort r s
  | .semsig r => Sys2Proof.Machine.execSemsig r s
  | .phreg r => Sys2Proof.Machine.execPhreg r s
  | .phdrop r => Sys2Proof.Machine.execPhdrop r s
  | .phsig r => Sys2Proof.Machine.execPhsig r s
  | .phwait r => Sys2Proof.Machine.execPhwait r s
  | .phsw r => Sys2Proof.Machine.execPhsw r s
  | .phstat r => Sys2Proof.Machine.execPhstat r s
  | .ring r => Sys2Proof.Machine.execRing r s
  | .sptest r => Sys2Proof.Machine.execSptest r s
  | .spcastExplicit r => Sys2Proof.Machine.execSpcastExplicit r s
  | .spcastSelf r => Sys2Proof.Machine.execSpcastSelf r s
  | .spcastTocluster r => Sys2Proof.Machine.execSpcastTocluster r s
  | .spcastFromcluster r => Sys2Proof.Machine.execSpcastFromcluster r s
  | .spcastClexplicit r => Sys2Proof.Machine.execSpcastClexplicit r s
  | .spcastClself r => Sys2Proof.Machine.execSpcastClself r s
  | .rocall r => Sys2Proof.Machine.execRocall r s
  | .rowait r => Sys2Proof.Machine.execRowait r s
  | .jetmsg r => Sys2Proof.Machine.execJetmsg r s
  | .mma r => Sys2Proof.Machine.execMma r s
  | .mmz r => Sys2Proof.Machine.execMmz r s
  | .mmld r => Sys2Proof.Machine.execMmld r s
  | .mmst r => Sys2Proof.Machine.execMmst r s
  | .mmrd r => Sys2Proof.Machine.execMmrd r s
  | .mmwr r => Sys2Proof.Machine.execMmwr r s
  | .rsplit r => Sys2Proof.Machine.execRsplit r s
  | .rmerge r => Sys2Proof.Machine.execRmerge r s
  | .rinv r => Sys2Proof.Machine.execRinv r s
  | .rprobe r => Sys2Proof.Machine.execRprobe r s
  | .slx r => Sys2Proof.Machine.execSlx r s
  | .jl2rd r => Sys2Proof.Machine.execJl2rd r s
  | .jl2wr r => Sys2Proof.Machine.execJl2wr r s
  | .jpf r => Sys2Proof.Machine.execJpf r s
  | .jfwd r => Sys2Proof.Machine.execJfwd r s
  | .jmsg r => Sys2Proof.Machine.execJmsg r s
  | .jdone r => Sys2Proof.Machine.execJdone r s
  | .jbudget r => Sys2Proof.Machine.execJbudget r s
  | .jlognext r => Sys2Proof.Machine.execJlognext r s
  | .jlogadv r => Sys2Proof.Machine.execJlogadv r s
  | .jundo r => Sys2Proof.Machine.execJundo r s
  | .variableResultLand n => Sys2Proof.Machine.execVariableResultLand n s
  | .dividerResultLand slot => Sys2Proof.Machine.execDividerResultLand slot s
  | .queueEntryPerform store => Sys2Proof.Machine.execQueueEntryPerform store s
  | .rtlbWalkComplete die => Sys2Proof.Machine.execRtlbWalkComplete die s
  | .segmentExpansion half va => Sys2Proof.Machine.execSegmentExpansion half va s
  | .taskDispatch k task => Sys2Proof.Machine.execTaskDispatch k task s
  | .jobGranuleWrite job => Sys2Proof.Machine.execJobGranuleWrite job s
  | .jobComplete job => Sys2Proof.Machine.execJobComplete job s
  | .slxChunkDeliver job => Sys2Proof.Machine.execSlxChunkDeliver job s
  | .launch k => Sys2Proof.Machine.execLaunch k s
  | .waitq k => Sys2Proof.Machine.execWaitq k s
  | .sigq k => Sys2Proof.Machine.execSigq k s
  | .sluice k => Sys2Proof.Machine.execSluice k s
  | .cpyp k => Sys2Proof.Machine.execCpyp k s
  | .bkcfg k => Sys2Proof.Machine.execBkcfg k s
  | .basin k => Sys2Proof.Machine.execBasin k s
  | .round k => Sys2Proof.Machine.execRound k s
  | .fencep k => Sys2Proof.Machine.execFencep k s
  | .hostint k => Sys2Proof.Machine.execHostint k s
  | .jump k => Sys2Proof.Machine.execJump k s
  | .stop k => Sys2Proof.Machine.execStop k s
  | .slotDelivery n => Sys2Proof.Machine.execSlotDelivery n s
  | .launchComplete k => Sys2Proof.Machine.execLaunchComplete k s
  | .sluiceComplete k => Sys2Proof.Machine.execSluiceComplete k s
  | .cpypComplete n => Sys2Proof.Machine.execCpypComplete n s
  | .gets n => Sys2Proof.Machine.execGets n s
  | .getm n => Sys2Proof.Machine.execGetm n s
  | .pute n => Sys2Proof.Machine.execPute n s
  | .putm n => Sys2Proof.Machine.execPutm n s
  | .fwdGets n => Sys2Proof.Machine.execFwdGets n s
  | .fwdGetm n => Sys2Proof.Machine.execFwdGetm n s
  | .inv n => Sys2Proof.Machine.execInv n s
  | .fwdRecall n => Sys2Proof.Machine.execFwdRecall n s
  | .acknowledgement n => Sys2Proof.Machine.execAcknowledgement n s
  | .farAtomicExecute n => Sys2Proof.Machine.execFarAtomicExecute n s
  | .msAccess n => Sys2Proof.Machine.execMsAccess n s
  | .l2Fill line ecc victim => Sys2Proof.Machine.execL2Fill line ecc victim s
  | .rangeChangeComplete n => Sys2Proof.Machine.execRangeChangeComplete n s
  | .markerDrain n => Sys2Proof.Machine.execMarkerDrain n s
  | .roundBarrier n => Sys2Proof.Machine.execRoundBarrier n s
  | .roundBarrierComplete n => Sys2Proof.Machine.execRoundBarrierComplete n s
  | .rocallAppend n => Sys2Proof.Machine.execRocallAppend n s
  | .rocallReadQuery n => Sys2Proof.Machine.execRocallReadQuery n s
  | .jetRunStart sl => Sys2Proof.Machine.execJetRunStart sl s
  | .jetCoreInstruction sl => Sys2Proof.Machine.execJetCoreInstruction sl s
  | .replayApply sl => Sys2Proof.Machine.execReplayApply sl s
  | .jetmsgArrival sl => Sys2Proof.Machine.execJetmsgArrival sl s
  | .cctlGo k => Sys2Proof.Machine.execCctlGo k s
  | .cctlHalt k => Sys2Proof.Machine.execCctlHalt k s
  | .cctlKill k => Sys2Proof.Machine.execCctlKill k s
  | .registerWrite who a v => Sys2Proof.Machine.execRegisterWrite who a v s
  | .registerReadClear who a => Sys2Proof.Machine.execRegisterReadClear who a s
  | .sliceExpiry p => Sys2Proof.Machine.execSliceExpiry p s
  | .forcedFreeze p => Sys2Proof.Machine.execForcedFreeze p s
  | .contextSwap p => Sys2Proof.Machine.execContextSwap p s
  | .swapInComplete p => Sys2Proof.Machine.execSwapInComplete p s
  | .cmpctlGo p => Sys2Proof.Machine.execCmpctlGo p s
  | .compactionSwap p => Sys2Proof.Machine.execCompactionSwap p s
  | .compactionDone p => Sys2Proof.Machine.execCompactionDone p s
  | .bucketContribution b n => Sys2Proof.Machine.execBucketContribution b n s
  | .basinRunStart b e => Sys2Proof.Machine.execBasinRunStart b e s
  | .basinWord b e => Sys2Proof.Machine.execBasinWord b e s
  | .basinUnitResultLand b e => Sys2Proof.Machine.execBasinUnitResultLand b e s
  | .ldrRowLand b e => Sys2Proof.Machine.execLdrRowLand b e s
  | .basinRunHalt b e => Sys2Proof.Machine.execBasinRunHalt b e s
  | .basinSaveMode b e => Sys2Proof.Machine.execBasinSaveMode b e s
  | .allgatherRowReceive r => Sys2Proof.Machine.execAllgatherRowReceive r s
  | .jetEvent sl ev pa requester => Sys2Proof.Machine.execJetEvent sl ev pa requester s
  | .jetRunKill sl reason => Sys2Proof.Machine.execJetRunKill sl reason s
  | .ncWriteback core line => Sys2Proof.Machine.execNcWriteback core line s
  | .tsvifRetry stack pc good => Sys2Proof.Machine.execTsvifRetry stack pc good s
  | .patrolScrubRow stack ecc => Sys2Proof.Machine.execPatrolScrubRow stack ecc s
  | .dramAct stack pc bank row => Sys2Proof.Machine.execDramAct stack pc bank row s
  | .rowAlert stack pc bank row => Sys2Proof.Machine.execRowAlert stack pc bank row s
  | .trfmExpiry stack pc bank => Sys2Proof.Machine.execTrfmExpiry stack pc bank s
  | .linkReplay link good => Sys2Proof.Machine.execLinkReplay link good s
  | .linkRetrainTimeout link => Sys2Proof.Machine.execLinkRetrainTimeout link s
  | .dieReset die => Sys2Proof.Machine.execDieReset die s
  | .coreRepair core readable bad => Sys2Proof.Machine.execCoreRepair core readable bad s
  | .inboundPoisonedTlp va part data => Sys2Proof.Machine.execInboundPoisonedTlp va part data s
  | .pcieLinkChange up => Sys2Proof.Machine.execPcieLinkChange up s
  | .powerWindow pwr => Sys2Proof.Machine.execPowerWindow pwr s
  | .pcapWrite who v => Sys2Proof.Machine.execPcapWrite who v s
  | .scrubperWrite die second v => Sys2Proof.Machine.execScrubperWrite die second v s
  | .mthWrite b v => Sys2Proof.Machine.execMthWrite b v s
  | .funcmodeWrite who v => Sys2Proof.Machine.execFuncmodeWrite who v s
  | .getVersion who param => Sys2Proof.Machine.execGetVersion who param s
  | .getCapabilities who param => Sys2Proof.Machine.execGetCapabilities who param s
  | .negotiateAlgorithms who param => Sys2Proof.Machine.execNegotiateAlgorithms who param s
  | .getDigests who param => Sys2Proof.Machine.execGetDigests who param s
  | .getCertificate who param => Sys2Proof.Machine.execGetCertificate who param s
  | .challenge who param => Sys2Proof.Machine.execChallenge who param s
  | .getMeasurements who param1 param2 => Sys2Proof.Machine.execGetMeasurements who param1 param2 s
  | .sidebandTelemetryRead a => Sys2Proof.Machine.execSidebandTelemetryRead a s
  | .sidebandErrlogRead n => Sys2Proof.Machine.execSidebandErrlogRead n s
  | .sidebandPcapAccess w => Sys2Proof.Machine.execSidebandPcapAccess w s
  | .partitionConfiguration p c => Sys2Proof.Machine.execPartitionConfiguration p c s
  | .regularRefresh stack pc bank row => Sys2Proof.Machine.execRegularRefresh stack pc bank row s
  | .scratchpadBankWake core bank => Sys2Proof.Machine.execScratchpadBankWake core bank s
  | .linkRetrained link => Sys2Proof.Machine.execLinkRetrained link s
  | .inboundMemoryTlp va part len data => Sys2Proof.Machine.execInboundMemoryTlp va part len data s
  | .remotePackageRequest offset len data pois con => Sys2Proof.Machine.execRemotePackageRequest offset len data pois con s
  | .allgatherAcknowledgement b => Sys2Proof.Machine.execAllgatherAcknowledgement b s
  | .snop => Sys2Proof.Machine.execSnop s
  | .pureDelayBundle => Sys2Proof.Machine.execPureDelayBundle s
  | .nullBundle => Sys2Proof.Machine.execNullBundle s
  | .vnop => Sys2Proof.Machine.execVnop s
  | .fnop => Sys2Proof.Machine.execFnop s
  | .mnop => Sys2Proof.Machine.execMnop s
  | .fixedResultLand => Sys2Proof.Machine.execFixedResultLand s
  | .trapDelivery => Sys2Proof.Machine.execTrapDelivery s
  | .segmentEnd => Sys2Proof.Machine.execSegmentEnd s
  | .segmentStart => Sys2Proof.Machine.execSegmentStart s
  | .taskRetire => Sys2Proof.Machine.execTaskRetire s
  | .handlerDormant => Sys2Proof.Machine.execHandlerDormant s
  | .mmaExecuteStart => Sys2Proof.Machine.execMmaExecuteStart s
  | .mmaBlockArrive => Sys2Proof.Machine.execMmaBlockArrive s
  | .mmaBlockEnd => Sys2Proof.Machine.execMmaBlockEnd s
  | .mmaFault => Sys2Proof.Machine.execMmaFault s
  | .accumulatorLand => Sys2Proof.Machine.execAccumulatorLand s
  | .weirRefill => Sys2Proof.Machine.execWeirRefill s
  | .powerUp => Sys2Proof.Machine.execPowerUp s
  | .bootgo => Sys2Proof.Machine.execBootgo s
  | .bootVerifyComplete => Sys2Proof.Machine.execBootVerifyComplete s
  | .sidebandDeviceReset => Sys2Proof.Machine.execSidebandDeviceReset s
  | .sidebandBootRead => Sys2Proof.Machine.execSidebandBootRead s
  | .powerOff => Sys2Proof.Machine.execPowerOff s

end Sys2Proof.Machine
end

