-- ==== Sys2Proof/Machine/Issue.lean ====
section
/-! DEFINITION. The issue of a bundle whose checks have passed. -/

namespace Sys2Proof.Machine

/-- The effects of a bundle's slots, whose checks have passed. -/
def runSlots : List (Nat × Instr) → State → Host.Outcome State Fault Refusal
  | [], s => .next s
  | (n, i) :: r, s =>
    match exec i { s with cur := { s.cur with bslot := n, go := true } } with
    | .next t => runSlots r t
    | .fault e => .fault e
    | .refused e => .refused e

/-- The bundle that the context would issue next issues, freezes the core, or traps (19 R325). -/
def issueBundle (s : State) : Host.Outcome State Fault Refusal :=
  match s.bundle with
  | none => .next s
  | some b =>
    match s.bundleVerdict b with
    | .trap _ => exec .trapDelivery s
    | .freeze => .next s.frozenCycle
    | .walk va => .next (s.walkCycle va)
    | .go [] => if hdrHold b.hdr = 0 then exec .nullBundle s else exec .pureDelayBundle s
    | .go l =>
      match runSlots l s with
      | .next t => .next ({ t with cur := { t.cur with bslot := 0, go := false } }.finishIssue b.hdr)
      | .fault e => .fault e
      | .refused e => .refused e

end Sys2Proof.Machine
end

