-- ==== Sys2Proof/Machine/Turns.lean ====
section
/-! DEFINITION. The moves of the machine's agents: a core's cycle, a jet core's instruction, the events, and which of them may be
made. -/

namespace Sys2Proof.Machine

/-! ### Who makes which move -/

/-- By whom an instruction is executed: by a bundle's issue, by a core's own cycle, as an event of a context, by a jet core's
run, as an event that the boot ROM and the control islands bring about or endure, or as one that needs the firmware. -/
inductive MoveKind
  | bundle | cycle | ctx | jet | control | firmware
  deriving DecidableEq, Repr

def eventKind : Instr → MoveKind
  | .pureDelayBundle => .cycle
  | .nullBundle => .cycle
  | .fixedResultLand => .cycle
  | .trapDelivery => .cycle
  | .segmentEnd => .cycle
  | .segmentStart => .cycle
  | .variableResultLand _ => .ctx
  | .dividerResultLand _ => .ctx
  | .queueEntryPerform _ => .ctx
  | .segmentExpansion _ _ => .ctx
  | .taskRetire => .ctx
  | .handlerDormant => .ctx
  | .jobGranuleWrite _ => .ctx
  | .jobComplete _ => .ctx
  | .slxChunkDeliver _ => .ctx
  | .mmaExecuteStart => .ctx
  | .mmaBlockArrive => .ctx
  | .mmaBlockEnd => .ctx
  | .mmaFault => .ctx
  | .accumulatorLand => .ctx
  | .jl2rd _ => .jet
  | .jl2wr _ => .jet
  | .jpf _ => .jet
  | .jfwd _ => .jet
  | .jmsg _ => .jet
  | .jdone _ => .jet
  | .jbudget _ => .jet
  | .jlognext _ => .jet
  | .jlogadv _ => .jet
  | .jundo _ => .jet
  | .powerUp => .control
  | .powerOff => .control
  | .bootgo => .control
  | .bootVerifyComplete => .control
  | .sidebandDeviceReset => .control
  | .sidebandBootRead => .control
  | .sidebandTelemetryRead _ => .control
  | .sidebandErrlogRead _ => .control
  | .sidebandPcapAccess _ => .control
  | .pcieLinkChange _ => .control
  | .inboundMemoryTlp _ _ _ _ => .control
  | .inboundPoisonedTlp _ _ _ => .control
  | .registerWrite _ _ _ => .control
  | .registerReadClear _ _ => .control
  | .pcapWrite _ _ => .control
  | .scrubperWrite _ _ _ => .control
  | .mthWrite _ _ => .control
  | .funcmodeWrite _ _ => .control
  | .powerWindow _ => .control
  | .weirRefill => .control
  | .linkReplay _ _ => .control
  | .linkRetrained _ => .control
  | .linkRetrainTimeout _ => .control
  | .tsvifRetry _ _ _ => .control
  | .dramAct _ _ _ _ => .control
  | .rowAlert _ _ _ _ => .control
  | .trfmExpiry _ _ _ => .control
  | .regularRefresh _ _ _ _ => .control
  | .patrolScrubRow _ _ => .control
  | .dieReset _ => .control
  | _ => .firmware

def moveKind (i : Instr) : MoveKind := if (semOf i).isSome then .bundle else eventKind i

/-! ### A core's cycle -/

/-- Every wait of the bundle that has issued has ended (08 R186). -/
def State.waitsOver (s : State) : Bool := s.ctx.phwait.all (fun w => (s.phaserAt w.1).past w.2.1)

/-- The end of the bundle at pc; after a SAFE one a core that is asked to stop does so (14 R258). -/
def endBundle (s : State) : State :=
  let b := s.bundle
  match s.ctx.bundleEnd (match b with | some b => hdrLast b.hdr | none => true) with
  | none => s.frozenCycle
  | some c =>
    let safe := match b with | some b => hdrSafe b.hdr | none => false
    (s.setCtx c).modCore (fun k => { k with stopped := k.stopped || (k.stopReq && safe) })

/-- An access at the head of a queue has come to a bank that must wake first, and the core is frozen (10 R218). -/
def State.bankStops (s : State) : Bool :=
  (s.ctx.ldq.head?.toList ++ s.ctx.stq.head?.toList).any (fun e => !s.fpBlocks e && e.locs.any (fun l => s.bankGated l.1))

/-- A core's cycle with its running context k, once the results due in it have landed. -/
def runCycle (s : State) : Host.Outcome State Fault Refusal :=
  let c := s.ctx
  if s.core.stopped then (if c.pend.isEmpty then .next s.frozenCycle else .next s.advance)
  else
    match c.phase with
    | .draining => if c.pend.isEmpty then exec .segmentEnd s else .next s.advance
    | _ =>
      if !c.phwait.isEmpty then
        (if s.waitsOver then .next (s.modCtx (fun c => { c with phwait := [] })) else .next s.frozenCycle)
      else if s.bankStops then .next s.frozenCycle
      else if 0 < c.hold then .next ((s.modCtx (fun c => { c with hold := c.hold - 1 })).advance)
      else if c.bend then .next (endBundle s)
      else if c.nextDeferred.isSome || c.mmaTrap.isSome then exec .trapDelivery s
      else issueBundle s

/-- A cycle of core c. -/
def coreTurn (c : Nat) (s : State) : Host.Outcome State Fault Refusal :=
  if s.coreStands c then .next s
  else
    let s : State := { s with now := max s.now (s.coreAt c).busy, cur := { core := c } }
    let s := match s.core.resident with | some k => s.takeArrivals c k 16 | none => s
    let s := s.refilled.landDividers
    match s.core.running with
    | none => exec .segmentStart s
    | some k =>
      match exec .fixedResultLand (s.atSlot k) with
      | .next s => runCycle s
      | .fault e => .fault e
      | .refused e => .refused e

/-! ### A jet core's instruction -/

/-- The instruction at the pc of the run of jet core sl. -/
def jetTurn (sl : Nat) (s : State) : Host.Outcome State Fault Refusal :=
  let s : State := { s with cur := { jet := sl } }
  match (s.sliceAt sl).run with
  | none => .next s
  | some r =>
    match s.jetFetch sl r with
    | some (4, w) => (match decodeXjet (BitVec.ofNat 32 w) with | some i => exec i s | none => execJetCoreInstruction sl s)
    | _ => execJetCoreInstruction sl s

/-! ### Moves -/

/-- An event of a context: of one that is resident, or of an engine job that runs on while its context is out (14 R259). -/
def ctxTurn (c k : Nat) (i : Instr) (s : State) : Host.Outcome State Fault Refusal :=
  let out : Bool := match i with
    | .jobGranuleWrite _ => true
    | .jobComplete _ => true
    | .slxChunkDeliver _ => true
    | _ => false
  if moveKind i ≠ .ctx || (8192 ≤ c && !out) || s.dev.lost.contains c then .next s
  else exec i { s with cur := { core := c, slot := k } }

/-- An event of the package or of its surroundings. Before the firmware runs, only the control islands act (23 R361). -/
def eventTurn (i : Instr) (s : State) : Host.Outcome State Fault Refusal :=
  match moveKind i with
  | .control => if s.dev.powered || i = .powerUp then exec i s else .next s
  | .firmware => if s.booted then exec i s else .next s
  | _ => .next s

/-- One move of the agent that the agenda names. -/
def turn (t : Turn) (s : State) : Host.Outcome State Fault Refusal :=
  match t with
  | .event i => eventTurn i s
  | .core c => if s.booted && c < 576 then coreTurn c s else .next s
  | .sluice d => if s.booted && d < 4 then coreTurn (576 + d) s else .next s
  | .jet sl => if s.booted && sl < 48 then jetTurn sl s else .next s
  | .monitor sl i => if s.booted && sl < 48 then monitorTurn exec sl i s else .next s
  | .onCtx c k i => if s.booted && k < 8 then ctxTurn c k i s else .next s
  | .evict c k => if s.booted then .next (s.evictL1 c k) else .next s

/-! ### The moves that the machine can make by itself -/

abbrev AgentMove := State → Host.Outcome State Fault Refusal

/-- A pending segment's header is not at hand: the core's sequencer asks for it in its cycles. -/
def State.asksHeader (s : State) (c : Nat) : Bool :=
  (List.range 8).any (fun j =>
    let t : State := { s with cur := { core := c, slot := j } }
    match t.ctx.phase with
    | .pending va => (t.core.holdsSeg va).isNone && t.codeWait va (pieces va 64 64) ≠ .ready
    | _ => false)

/-- A core that runs a segment, or has one to start or a header to ask for. -/
def State.active (s : State) (c : Nat) : Bool :=
  !s.coreStands c && !(s.coreAt c).stopped && (!s.idleCore c || s.asksHeader c)

/-- The cycles of the active cores that are furthest behind. -/
def State.coreMoves (s : State) : List AgentMove :=
  let known : List Nat := s.ctxs.map (fun e => e.1 / 8) ++ s.cores.map Prod.fst
  let l := known.eraseDups.filter (fun c => c < 580 && s.active c)
  let t := l.foldl (fun t c => min t (s.coreAt c).busy) ((s.coreAt (l.headD 0)).busy)
  (l.filter (fun c => (s.coreAt c).busy ≤ max t s.now)).map coreTurn

/-- The events of the context of this key. -/
def State.ctxMoves (s : State) (key : Nat) (c : Ctx) : List AgentMove :=
  let cur : Cursor := { core := key / 8, slot := key % 8 }
  let on (m : AgentMove) : AgentMove := fun s => m { s with cur }
  let jobs := c.jobs.flatMap (fun j => [execJobGranuleWrite j.1, execJobComplete j.1, execSlxChunkDeliver j.1])
  if 8192 ≤ cur.core then jobs.map on
  else if s.dev.lost.contains cur.core then []
  else
    let wants := (({ s with cur } : State).prefetch).toList.flatMap (fun x => [execSegmentExpansion 0 x.2, execSegmentExpansion 1 x.2])
    (jobs ++ (List.range c.arrived.length).map (fun i => execVariableResultLand i)
      ++ [execDividerResultLand 0, execDividerResultLand 1, execQueueEntryPerform false, execQueueEntryPerform true, execTaskRetire,
          execHandlerDormant, execMmaExecuteStart, execMmaBlockArrive, execMmaBlockEnd, execMmaFault, execAccumulatorLand] ++ wants).map on

def messageMove (i : Nat) (m : Msg) : AgentMove :=
  match m.kind with
  | .gets => execGets i
  | .getm => execGetm i
  | .pute => execPute i
  | .putm => execPutm i
  | .fwdGets => execFwdGets i
  | .fwdGetm => execFwdGetm i
  | .inv => execInv i
  | .fwdRecall => execFwdRecall i
  | .ack => execAcknowledgement i
  | .putAck => execAcknowledgement i

/-- The events of the memory system. -/
def State.memMoves (s : State) : List AgentMove :=
  s.mem.msgs.zipIdx.map (fun m => messageMove m.2 m.1)
    ++ s.mem.homeops.zipIdx.map (fun h => if h.1.far then execFarAtomicExecute h.2 else execMsAccess h.2)
    ++ s.mem.fills.map (fun f => execL2Fill f.line [] none)
    ++ s.dies.flatMap (fun d => if d.2.walks.isEmpty then [] else [execRtlbWalkComplete d.1])

/-- The events of the fontanier. -/
def State.commandMoves (s : State) : List AgentMove :=
  s.fctxs.flatMap (fun e =>
    let k := e.1
    let tasks := match e.2.launch with | some l => (List.range l.ntask).filter l.waiting | none => []
    tasks.map (execTaskDispatch k) ++
      [execLaunch k, execWaitq k, execSigq k, execSluice k, execCpyp k, execBkcfg k, execBasin k, execRound k, execFencep k, execHostint k,
       execJump k, execStop k, execLaunchComplete k, execSluiceComplete k])
    ++ (List.range s.deliveries.length).map execSlotDelivery ++ (List.range s.copyjobs.length).map execCpypComplete
    ++ (List.range s.changes.length).flatMap (fun i => [execMarkerDrain i, execRangeChangeComplete i])
    ++ (List.range s.rounds.length).flatMap (fun i => [execRoundBarrier i, execRoundBarrierComplete i])
    ++ s.parts.flatMap (fun p => [execContextSwap p.1, execSwapInComplete p.1, execCompactionSwap p.1, execCompactionDone p.1])

/-- The events of the basin dies, the slices and their jet cores. -/
def State.basinMoves (s : State) : List AgentMove :=
  s.basins.flatMap (fun b =>
    (List.range b.2.inbound.length).map (execBucketContribution b.1)
      ++ [0, 1, 2, 3].flatMap (fun e => [execBasinRunStart b.1 e, execBasinWord b.1 e, execBasinUnitResultLand b.1 e, execLdrRowLand b.1 e,
                                         execBasinRunHalt b.1 e, execBasinSaveMode b.1 e]))
    ++ s.slices.flatMap (fun x =>
      [execJetmsgArrival x.1, execJetRunStart x.1, jetTurn x.1] ++ x.2.raised.filterMap (fun i => match i.2 with
        | .event e _ _ _ r _ _ _ a => some (execJetEvent x.1 e a r)
        | _ => none))
    ++ (List.range s.calls.length).flatMap (fun i => [execRocallAppend i, execRocallReadQuery i])

/-- The events that fall due at a time, those whose time the cores have reached. -/
def State.timedMoves (s : State) : List AgentMove :=
  let due (t : Nat) (m : AgentMove) : List AgentMove := if t ≤ s.ptime then [m] else []
  due (1000 * (s.dev.refills + 1)) execWeirRefill
    ++ s.parts.flatMap (fun p =>
      (match p.2.resident with
       | some k =>
         (match (s.fctxAt k).since, (s.fctxAt k).entry with
          | some t, some e => due (t + 1000 * e.slice) (execSliceExpiry p.1)
          | _, _ => [])
       | none => []) ++
      (match p.2.expired with | some t => due t (execForcedFreeze p.1) | none => []))

/-- The events of memory's controllers and of scratchpad banks. -/
def State.careMoves (s : State) : List AgentMove :=
  let due (t : Nat) (m : AgentMove) : List AgentMove := if t ≤ s.now then [m] else []
  s.basins.flatMap (fun b =>
    b.2.alertDue.map (fun a => execRowAlert b.1 (a.1 / 1024) (a.1 % 1024) a.2.1)
      ++ b.2.blocked.flatMap (fun x => due (9 * x.2) (execTrfmExpiry b.1 (x.1 / 1024) (x.1 % 1024))))
    ++ (List.range 16).flatMap (fun u => due (s.scrubAt u) (execPatrolScrubRow u []))
    ++ s.cores.flatMap (fun c => ((List.range 8).filter (fun b => c.2.gated.getLsbD b)).map (execScratchpadBankWake c.1))

/-- All of them. -/
def State.moves (s : State) : List AgentMove :=
  s.coreMoves ++ s.ctxs.flatMap (fun e => s.ctxMoves e.1 e.2) ++ s.memMoves ++ s.commandMoves ++ s.basinMoves ++ s.timedMoves ++ s.careMoves

/-- Where no outside order says who moves, any of the agents may. -/
def ownMove (s : State) : Host.Outcome State Fault Refusal :=
  if !s.booted then .next s
  else
    let l := s.moves
    let r := s.pick l.length
    match l[r.1]? with
    | some m => m r.2
    | none => .next r.2

end Sys2Proof.Machine
end

