-- ==== Sys2Proof/Machine/Step.lean ====
section
/-! DEFINITION. One step of the machine, and the placing of an instruction where the next step fetches it. -/

namespace Sys2Proof.Machine

/-- The machine's next move: that of the agent at the head of the agenda. -/
def step (s : State) : Host.Outcome State Fault Refusal :=
  match s.agenda with
  | t :: rest => turn t { s with agenda := rest }
  | [] => ownMove s

/-! ### Placing an instruction -/

/-- Slot of a bundle in which an instruction stands by the length of its word: scalar, F, vector, memory or matrix. -/
def slotFor (i : Instr) (nbits : Nat) (w : Word) : Nat :=
  if nbits ≤ 32 then (match encScalar i with | some _ => 0 | none => 5)
  else if nbits ≤ 48 then 2
  else if isMatrixOp w then 7 else 6

/-- A bundle of one slot. -/
def oneSlot (n : Nat) (w : Word) : RawBundle := { off := 0, hdr := BitVec.ofNat 16 (2 ^ n), slots := [(n, w)] }

/-- Task context 0 of core 0 runs a segment of this bundle. -/
def State.placeBundle (s : State) (b : RawBundle) : State :=
  let c := s.ctxAt 0
  { s with
    agenda := [.core 0],
    ctxs := sset s.ctxs 0 { c with phase := .running, hdr := { count := 1, cycles := 1 }, body := [b], pc := 0, hold := 0, bend := false,
                                   phwait := [], deferred := [], mmaTrap := none, pend := [] },
    cores := sset s.cores 0 { (s.coreAt 0) with running := some 0, stopped := false, frozen := false } }

/-- Jet core 0 runs an event handler with this word at offset 0 of its window. -/
def State.placeXjet (s : State) (w : Nat) : State :=
  let h : JetHandler := { misspc := 0, fillpc := 0, evictpc := 0, msgpc := 0, budget := 0, winbase := 0x4000, winsize := 1024, reserved := 0,
                          imageva := 0 }
  let c : PartConfig := { clusters := 0, l2ways := 0, phdie := 0, phpkg := 0, bquant := 0, rowwin := [], rtbase := 0, rtcap := 0, table := [],
                          leasens := 0, quota := 0, standby := 0, contexts := [], handlers := [(1, h)], objects := [] }
  { s with
    agenda := [.jet 0],
    parts := sset s.parts 0 { (s.partAt 0) with config := some c },
    mem := { s.mem with bytes := msets s.mem.bytes (jetAddr 0 0x4000) (leBytes w 4) },
    slices := sset s.slices 0 { (s.sliceAt 0) with run := some { item := .event .fill 0 1 0 0 0 0 0 0 }, mode := false } }

/-- The firmware runs, and the instruction stands where the next step fetches. -/
def State.withFetchWord (s : State) (nbits w : Nat) : State :=
  let s : State := { s with dev := { s.dev with powered := true, bootstat := 0x80 } }
  match decodeTableWord nbits w with
  | none => s.placeBundle (oneSlot (if nbits ≤ 32 then 0 else if nbits ≤ 48 then 2 else 6) (BitVec.ofNat 64 w))
  | some i =>
    if eventKind i = .jet then s.placeXjet w
    else s.placeBundle (oneSlot (slotFor i nbits (BitVec.ofNat 64 w)) (BitVec.ofNat 64 w))

end Sys2Proof.Machine
end

