-- ==== Sys2Proof/Safety.lean ====
section
/-! DEFINITION. What counts as a safe run: no step of it ends in a fault or a refusal; and when a slot instruction can issue. -/

namespace Sys2Proof.Machine

/-- Step answers a next state. -/
def State.steps (s : State) : Bool :=
  match step s with
  | .next _ => true
  | .fault _ => false
  | .refused _ => false

/-- The first n steps from s all answer a next state. -/
def Safe : Nat → State → Prop
  | 0, _ => True
  | n + 1, s => ∃ t, step s = .next t ∧ Safe n t

/-- A slot finds its operands: its guard holds and is clean, and every register that it tests is full (03 R61, 02 R35, R36). -/
def Ctx.canUse (c : Ctx) (g : Option Guard) (x : List FReg) : Bool := c.holds g && !c.guardPoisoned g && x.all c.isFull

/-- A slot instruction passes every check that is made of it (03 R60, R61). -/
def State.passes (s : State) (i : Instr) (m : SlotSem) : Prop :=
  s.ctx.canUse m.guard (m.srcs.map (·.1) ++ m.dsts) = true ∧ staticOf i m s = none ∧ m.run s = .go
    ∧ s.ctx.room m.need = true ∧ s.ctx.jobRoom m.jobs = true

/-- A value of latency lat on its way to scalar register d, and nothing else changed (02 R33, 05 R85). -/
def State.scalarResult (s : State) (lat : Nat) (d : BitVec 6) (v : Word) (poisoned : Bool) : State :=
  s.modCtx (fun c => c.issueS s.cur.bslot lat d v poisoned)

/-- A value on its way to predicate register d, and nothing else changed (05 R90). -/
def State.predResult (s : State) (d : BitVec 3) (v poisoned : Bool) : State :=
  s.modCtx (fun c => c.issueP s.cur.bslot 1 d v poisoned)

/-- The divider of the issuing slot holds this division, d is marked empty when the bundle has read its sources, and nothing
else has changed (05 R88). -/
def State.divides (s : State) (d : BitVec 6) (v : Word) (poisoned : Bool) (cycles : Nat) : State :=
  let x : DivBusy := { slot := s.cur.slot, dest := d, val := v, pois := poisoned, due := s.now + 4 * cycles }
  (s.modCore (fun k => k.setDivider s.cur.bslot (some x))).modCtx (fun c => { c with marks := c.marks ++ [.s d] })

/-- Of the whole state only the current context changes, and it becomes c. -/
def State.onlyCtx (s t : State) (c : Ctx) : Prop := (∀ k, t.ctxAt k = if k = s.key then c else s.ctxAt k) ∧ t = { s with ctxs := t.ctxs }

/-- Of the whole state only the current context changes. -/
def State.keepsAllBut (s t : State) : Prop := s.onlyCtx t t.ctx

/-- The registers of a context that results land on, and its accumulators (02 R24). -/
def Ctx.sameRegisters (c d : Ctx) : Prop :=
  c.s = d.s ∧ c.p = d.p ∧ c.v = d.v ∧ c.m = d.m ∧ c.k = d.k ∧ c.w = d.w ∧ c.acc = d.acc ∧ c.accPois = d.accPois
    ∧ c.vflg = d.vflg ∧ c.mflags = d.mflags ∧ c.rmode = d.rmode ∧ c.trapcause = d.trapcause ∧ c.trappc = d.trappc

/-- What an instruction computes lane by lane: its latency, the size in bits and the number of the elements that it writes, the
size of a lane position of the destination, the active elements, those with a poisoned source, their values and flags, the lane
position of an element's flags, whether it is an SR instruction, and its underflow counts (06 R108 to R112; 04 R75). -/
structure LaneOp where
  lat : Nat
  size : Nat
  n : Nat
  dest : Dest
  act : Nat → Bool := fun _ => true
  bad : Nat → Bool
  val : Nat → Nat
  unit : Nat := 32
  flags : Nat → Flags := fun _ => 0
  nf : Bool := false
  lane : Nat → Nat := fun i => size * i / 32
  sr : Bool := false
  ucnt : List (Nat × Nat) := []

/-- Element i of an operation touches lane position k of its destination. -/
def LaneOp.touches (o : LaneOp) (i k : Nat) : Prop := o.size * i < o.unit * k + o.unit ∧ o.unit * k < o.size * i + o.size

/-- The result x of a lane operation: it writes the bits of the active elements; a lane position ends poisoned where a poisoned
element is written into it, and clean where it is written whole by clean ones (06 R110); and where the lane positions end with
poison p, the flags that it raises are those of the active elements that touch no poisoned lane position, unless nf (04 R78). -/
def State.laneLanding (s : State) (o : LaneOp) (x : Landing) : Prop :=
  x.due = s.ctx.adv + o.lat ∧ x.slot = s.cur.bslot ∧ x.seq = s.ctx.issued ∧ x.dest = o.dest ∧ x.ucnt = o.ucnt
  ∧ (∀ i j, i < o.n → j < o.size → x.wm.getLsbD (o.size * i + j) = o.act i
    ∧ (o.act i = true → x.val.getLsbD (o.size * i + j) = (o.val i).testBit j))
  ∧ (∀ b, o.size * o.n ≤ b → x.wm.getLsbD b = false)
  ∧ (∀ k, k < 32 →
    (x.pois.getLsbD k = true ↔ ∃ i, i < o.n ∧ o.act i = true ∧ o.bad i = true ∧ o.touches i k)
    ∧ (x.pm.getLsbD k = true ↔ x.pois.getLsbD k = true ∨ ∀ j, j < o.unit → x.wm.getLsbD (o.unit * k + j) = true))
  ∧ ∀ p : BitVec 32, p &&& x.pm = x.pois &&& x.pm → ∀ f k, f < 5 → k < 32 →
    ((x.raised p).getLsbD (32 * f + k) = true ↔ o.nf = false
      ∧ ∃ i, i < o.n ∧ o.act i = true ∧ o.lane i = k ∧ (o.flags i).getLsbD f = true ∧ ∀ l, l < 32 → o.touches i l → p.getLsbD l = false)

/-- The results of a lane operation: one, or none where it has no active element and no underflow count. -/
def State.laneLands (s : State) (o : LaneOp) (l : List Landing) : Prop :=
  (o.ucnt = [] → (∀ i, i < o.n → o.act i = false) → l = [])
  ∧ ((o.ucnt ≠ [] ∨ ∃ i, i < o.n ∧ o.act i = true) → ∃ x, l = [x] ∧ s.laneLanding o x)

/-- The operation is on its way to its destination and nothing else has changed but SRCTR for an SR instruction. -/
def State.laneResult (s : State) (o : LaneOp) (t : State) : Prop :=
  ∃ l : List Landing, s.laneLands o l
    ∧ s.onlyCtx t { s.ctx with pend := s.ctx.pend ++ l, srctr := if o.sr = true then s.ctx.srctr + 1 else s.ctx.srctr }

/-- The two results of one instruction are on their way, and nothing else has changed (06 R139). -/
def State.lanePair (s : State) (o q : LaneOp) (t : State) : Prop :=
  ∃ l k : List Landing, s.laneLands o l ∧ s.laneLands q k ∧ s.onlyCtx t { s.ctx with pend := s.ctx.pend ++ l ++ k }

/-- The fixed pairwise tree over 2^k elements: its value and the flags of all its steps; step i of a level takes elements i and
i + h (04 R81). -/
def treeOf (op : Nat → Nat → Nat → Nat × Flags) : Nat → (Nat → Nat) → Nat × Flags
  | 0, x => (x 0, 0)
  | k + 1, x =>
    let step (i : Nat) : Nat × Flags := op i (x i) (x (i + 2 ^ k))
    let y := treeOf op k (fun i => (step i).1)
    (y.1, y.2 ||| (List.range (2 ^ k)).foldl (fun f i => f ||| (step i).2) 0)

/-- y(i) of a scan in increasing order and the flags of its step; an inactive element leaves y(i − 1), and y(0) is the identity where
element 0 is inactive (04 R81, 06 R130). -/
def scanOf (op : Nat → Nat → Nat → Nat × Flags) (act : Nat → Bool) (ident : Nat) (x : Nat → Nat) : Nat → Nat × Flags
  | 0 => (if act 0 then x 0 else ident, 0)
  | i + 1 => if act (i + 1) then op (i + 1) (scanOf op act ident x i).1 (x (i + 1)) else ((scanOf op act ident x i).1, 0)

/-- A value in units of 2^−149, beyond every finite value of a stored format for an infinity: the order of two such values is the order
of the numbers, and −0 is +0 (06 R121). -/
def Num.units : Num → Int
  | .nan _ => 0
  | .inf neg => if neg then -(2 ^ 300) else 2 ^ 300
  | .fin neg m e _ => if neg then -((m * 2 ^ (e + 149).toNat : Nat) : Int) else ((m * 2 ^ (e + 149).toNat : Nat) : Int)

/-- The value of a finite number in units of 2^u, for u no greater than its exponent; 0 of a NaN or an infinity. -/
def Num.inUnits (u : Int) : Num → Int
  | .nan _ => 0
  | .inf _ => 0
  | .fin neg m e _ => if neg then -((m * 2 ^ (e - u).toNat : Nat) : Int) else ((m * 2 ^ (e - u).toNat : Nat) : Int)

/-- Whether a magnitude that lies r / D of a unit above a multiple of the unit, 0 < r < D, is rounded up to the next one: for SR over k
bits (04 R71, R73). -/
def Mode.up (md : Mode) (neg odd : Bool) (r D k : Nat) : Bool :=
  match md.rm with
  | 0 => decide (D < 2 * r) || (decide (2 * r = D) && odd)
  | 1 => false
  | 2 => neg
  | 3 => !neg
  | 4 => decide (D ≤ 2 * r)
  | _ => decide (2 ^ k ≤ r * 2 ^ k / D + md.rill % 2 ^ k)

/-- The bits that SR looks at where the unit is 2^d times the weight of the source's last bit: 32 for the exact result of an operation,
otherwise the source significand bits that lie below the unit, at most 32 (04 R73). -/
def Mode.srBits (md : Mode) (d : Nat) : Nat := if md.sig = 0 then 32 else min (min d md.sig) 32

/-- A finite number that is held exactly, with an exponent of at least u. -/
def Num.exactFrom (u : Int) : Num → Prop
  | .nan _ => False
  | .inf _ => False
  | .fin _ _ e st => u ≤ e ∧ st = false

/-- Element i of e bits of a vector register, and whether a lane position that holds a bit of it is poisoned. -/
def VReg.at (x : VReg) (e i : Nat) : BitVec e := x.v.extractLsb' (e * i) e
def VReg.bad (x : VReg) (e i : Nat) : Bool :=
  (List.range 32).any (fun l => x.pois.getLsbD l && decide (32 * l < e * i + e) && decide (e * i < 32 * l + 32))

/-- A signed value kept to e bits: wrapped, or clamped to the signed range (04 R66). -/
def kept (sat : Bool) (e : Nat) (v : Int) : Nat := (BitVec.ofInt e (if sat then max (-(2 ^ (e - 1))) (min (2 ^ (e - 1) - 1) v) else v)).toNat

/-- The queue entry of the issuing slot: its parts, the VA of its lowest byte and the range entries that its n bytes go through. -/
def State.entryFor (s : State) (op : QOp) (ps : List (Loc × Nat)) (va : Word) (n : Nat) : QEntry :=
  { id := (s.ctx.issued * 8 + s.cur.bslot) * 256, slot := s.cur.bslot, op, locs := ps, va := va.toNat, via := s.viaOf va n }

/-- The issuing context has this entry at the tail of its load queue, its store queue or both, these destinations are marked
empty and these walkers advance when the bundle's slots have read their sources, and nothing else has changed (08 R161 to R163,
02 R34). -/
def State.queued (s t : State) (load store : Bool) (e : QEntry) (marks : List Dest) (adv : List (BitVec 3 × Nat)) : Prop :=
  s.onlyCtx t { s.ctx with
    ldq := if load then s.ctx.ldq ++ [e] else s.ctx.ldq, stq := if store then s.ctx.stq ++ [e] else s.ctx.stq,
    marks := s.ctx.marks ++ marks, advances := s.ctx.advances ++ adv }

/-- The gang condition of a MMA: no gang and the shape of one task, or a group of the issuer's launch that has as many members as
the shape, the issuer among them, all resident in its cluster (07 R148). -/
def State.gangFits (s : State) (w : MmaW) : Prop :=
  (w.gang = 0 ∧ w.shape = 0)
  ∨ (w.gang ≠ 0 ∧ ∃ l ts, s.launchOf s.ctx = some l ∧ l.members w.gang.toNat = some ts ∧ ts.length = shapeMembers w.shape.toNat
      ∧ s.ctx.taskid.toNat ∈ ts
      ∧ ∀ x ∈ ts, ∃ k n, sget .waiting l.tasks x = .resident k n ∧ clusterOf k = clusterOf s.cur.core)

/-- The walker advance of mode 01 with a level other than 0 (08 R163). -/
def advanceOf (r : M) : List (BitVec 3 × Nat) :=
  if fMode r = 1 ∧ fLevel r ≠ 0 then [(r.a.setWidth 3, fLevel r)] else []

end Sys2Proof.Machine
end

