-- ==== Sys2Proof/Certificates/Slice0/Obligations.lean ====
section
/-! DEFINITION. The statements for the provers. -/

section
open Sys2Proof Sys2Proof.Machine

/-! ### Scalar arithmetic (05 R85 to R96) -/

/-- 05 R87: the value of each register-register instruction that is no division, its latency, and that it changes nothing
else: the result is on its way to d. Poison is that of the sources (R85). -/
def Obligations.ScalarBinaryResults : Prop :=
  ∀ (r : SR) (s : State),
    let a := (s.ctx.sreg r.a).v
    let b := (s.ctx.sreg r.b).v
    let p := (s.ctx.sreg r.a).pois || (s.ctx.sreg r.b).pois
    let k := b.toNat % 64
    s.ctx.canUse (some r.g) [.s r.a, .s r.b, .s r.d] = true →
    exec (.add r) s = .next (s.scalarResult 1 r.d (a + b) p)
    ∧ exec (.sub r) s = .next (s.scalarResult 1 r.d (a - b) p)
    ∧ exec (.mul r) s = .next (s.scalarResult 3 r.d (a * b) p)
    ∧ exec (.mulh r) s = .next (s.scalarResult 3 r.d ((a.signExtend 128 * b.signExtend 128).extractLsb' 64 64) p)
    ∧ exec (.mulhu r) s = .next (s.scalarResult 3 r.d ((a.setWidth 128 * b.setWidth 128).extractLsb' 64 64) p)
    ∧ exec (.mulhsu r) s = .next (s.scalarResult 3 r.d ((a.signExtend 128 * b.setWidth 128).extractLsb' 64 64) p)
    ∧ exec (.and r) s = .next (s.scalarResult 1 r.d (a &&& b) p)
    ∧ exec (.or r) s = .next (s.scalarResult 1 r.d (a ||| b) p)
    ∧ exec (.xor r) s = .next (s.scalarResult 1 r.d (a ^^^ b) p)
    ∧ exec (.andn r) s = .next (s.scalarResult 1 r.d (a &&& ~~~b) p)
    ∧ exec (.shl r) s = .next (s.scalarResult 1 r.d (a <<< k) p)
    ∧ exec (.shr r) s = .next (s.scalarResult 1 r.d (a >>> k) p)
    ∧ exec (.sar r) s = .next (s.scalarResult 1 r.d (a.sshiftRight k) p)
    ∧ exec (.ror r) s = .next (s.scalarResult 1 r.d (a >>> k ||| a <<< (64 - k)) p)
    ∧ exec (.min r) s = .next (s.scalarResult 1 r.d (if a.toInt ≤ b.toInt then a else b) p)
    ∧ exec (.minu r) s = .next (s.scalarResult 1 r.d (if a.toNat ≤ b.toNat then a else b) p)
    ∧ exec (.max r) s = .next (s.scalarResult 1 r.d (if a.toInt ≤ b.toInt then b else a) p)
    ∧ exec (.maxu r) s = .next (s.scalarResult 1 r.d (if a.toNat ≤ b.toNat then b else a) p)

/-- 05 R87, R88: quotients and remainders of every operand, division by zero among them, and the core cycle from which the
result can be read: 8 and half the significant bits of |a| or of u(a), rounded up; where the slot's divider still holds a result
that has not landed, the core uses the cycle and nothing else changes. -/
def Obligations.DivisionResults : Prop :=
  (∀ (r : SR) (s : State),
    let a := (s.ctx.sreg r.a).v
    let b := (s.ctx.sreg r.b).v
    let p := (s.ctx.sreg r.a).pois || (s.ctx.sreg r.b).pois
    s.ctx.canUse (some r.g) [.s r.a, .s r.b, .s r.d] = true → s.core.divider s.cur.bslot = none →
    ∀ n m : Nat, (b = 0 → n = 0 ∧ m = 0) → (b ≠ 0 → a.toInt.natAbs < 2 ^ n ∧ (n = 0 ∨ 2 ^ (n - 1) ≤ a.toInt.natAbs)
      ∧ a.toNat < 2 ^ m ∧ (m = 0 ∨ 2 ^ (m - 1) ≤ a.toNat)) →
    exec (.div r) s = .next (s.divides r.d (if b = 0 then BitVec.allOnes 64 else a.sdiv b) p (8 + (n + 1) / 2))
    ∧ exec (.rem r) s = .next (s.divides r.d (if b = 0 then a else a.srem b) p (8 + (n + 1) / 2))
    ∧ exec (.divu r) s = .next (s.divides r.d (if b = 0 then BitVec.allOnes 64 else a.udiv b) p (8 + (m + 1) / 2))
    ∧ exec (.remu r) s = .next (s.divides r.d (a.umod b) p (8 + (m + 1) / 2)))
  ∧ (∀ (r : SR) (s : State) (x : DivBusy),
    s.ctx.canUse (some r.g) [.s r.a, .s r.b, .s r.d] = true → s.cur.go = false → s.core.divider s.cur.bslot = some x →
    ∀ i ∈ [Instr.div r, .divu r, .rem r, .remu r], exec i s = .next s.frozenCycle)


/-- 05 R93: leading zeros, trailing zeros and ones are counted, bit i goes to 63 − i, and the extensions; their opcodes and function
codes, with b and tb zero. -/
def Obligations.ScalarUnaryResults : Prop :=
  ∀ (r : Un) (s : State),
    let a := (s.ctx.sreg r.a).v
    let p := (s.ctx.sreg r.a).pois
    s.ctx.canUse (some r.g) [.s r.a, .s r.d] = true →
    (∃ n : Nat, exec (.clz r) s = .next (s.scalarResult 1 r.d (BitVec.ofNat 64 n) p)
      ∧ n ≤ 64 ∧ (∀ i, 64 - n ≤ i → i < 64 → a.getLsbD i = false) ∧ (n < 64 → a.getLsbD (63 - n) = true))
    ∧ (∃ n : Nat, exec (.ctz r) s = .next (s.scalarResult 1 r.d (BitVec.ofNat 64 n) p)
      ∧ n ≤ 64 ∧ (∀ i, i < n → a.getLsbD i = false) ∧ (n < 64 → a.getLsbD n = true))
    ∧ exec (.popc r) s = .next (s.scalarResult 1 r.d (BitVec.ofNat 64 ((List.range 64).countP (fun i => a.getLsbD i))) p)
    ∧ exec (.brev r) s = .next (s.scalarResult 1 r.d (BitVec.ofNat 64 ((List.range 64).foldl (fun n i => 2 * n + (a.getLsbD i).toNat) 0)) p)
    ∧ exec (.sextb r) s = .next (s.scalarResult 1 r.d ((a.extractLsb' 0 8).signExtend 64) p)
    ∧ exec (.sexth r) s = .next (s.scalarResult 1 r.d ((a.extractLsb' 0 16).signExtend 64) p)
    ∧ exec (.sextw r) s = .next (s.scalarResult 1 r.d ((a.extractLsb' 0 32).signExtend 64) p)
    ∧ exec (.zextw r) s = .next (s.scalarResult 1 r.d (a &&& 0xFFFFFFFF) p)
    ∧ (let coded (i : Instr) (op : BitVec 6) (fn : BitVec 2) : Prop := ∃ w, encScalar i = some w ∧ w.extractLsb' 26 6 = op ∧ w.extractLsb' 4 6 = 0
        ∧ w.getLsbD 2 = false ∧ w.extractLsb' 0 2 = fn
      coded (.clz r) 0x12 0 ∧ coded (.ctz r) 0x12 1 ∧ coded (.popc r) 0x12 2 ∧ coded (.brev r) 0x12 3
      ∧ coded (.sextb r) 0x13 0 ∧ coded (.sexth r) 0x13 1 ∧ coded (.sextw r) 0x13 2 ∧ coded (.zextw r) 0x13 3)

/-- 05 R90: each condition of each compare, the predicate that it goes to with latency 1, and its poison; the opcodes and the places of
the conditions; CMPI's code 7 is FORMAT, and d<5:3> must be zero. -/
def Obligations.CompareResults : Prop :=
  (∀ (r : Cmp) (s : State),
    let a := (s.ctx.sreg r.a).v
    let b := (s.ctx.sreg r.b).v
    let p := (s.ctx.sreg r.a).pois || (s.ctx.sreg r.b).pois
    s.ctx.canUse (some r.g) [.s r.a, .s r.b] = true →
    (∃ v : Bool, exec (.cmp r) s = .next (s.predResult r.d v p)
      ∧ (r.cc = 0 → (v = true ↔ a = b)) ∧ (r.cc = 1 → (v = true ↔ a ≠ b))
      ∧ (r.cc = 2 → (v = true ↔ a.toInt < b.toInt)) ∧ (r.cc = 3 → (v = true ↔ a.toInt ≤ b.toInt)))
    ∧ (∃ v : Bool, exec (.cmpu r) s = .next (s.predResult r.d v p)
      ∧ (r.cc = 0 → (v = true ↔ a.toNat < b.toNat)) ∧ (r.cc = 1 → (v = true ↔ a.toNat ≤ b.toNat))
      ∧ (r.cc = 2 → (v = true ↔ a &&& b ≠ 0)) ∧ (r.cc = 3 → (v = true ↔ a &&& b = 0))))
  ∧ (∀ (r : CmpI) (s : State),
    let a := (s.ctx.sreg r.a).v
    let b := r.imm.signExtend 64
    s.ctx.canUse (some r.g) [.s r.a] = true → r.cc ≠ 7 →
    ∃ v : Bool, exec (.cmpi r) s = .next (s.predResult r.d v (s.ctx.sreg r.a).pois)
      ∧ (r.cc = 0 → (v = true ↔ a = b)) ∧ (r.cc = 1 → (v = true ↔ a ≠ b))
      ∧ (r.cc = 2 → (v = true ↔ a.toInt < b.toInt)) ∧ (r.cc = 3 → (v = true ↔ a.toInt ≤ b.toInt))
      ∧ (r.cc = 4 → (v = true ↔ a.toNat < b.toNat)) ∧ (r.cc = 5 → (v = true ↔ a.toNat ≤ b.toNat))
      ∧ (r.cc = 6 → (v = true ↔ a &&& b ≠ 0)))
  ∧ (∀ (r : CmpI) (s : State), r.cc = 7 → s.cur.go = false →
    exec (.cmpi r) s = .next (s.trapHere { cause := .format, slot := some s.cur.bslot }))
  ∧ (∀ r : Cmp, (∃ w, encScalar (.cmp r) = some w ∧ w.extractLsb' 26 6 = 0x0F ∧ w.extractLsb' 16 6 = r.d.setWidth 6 ∧ w.extractLsb' 0 2 = r.cc)
    ∧ ∃ w, encScalar (.cmpu r) = some w ∧ w.extractLsb' 26 6 = 0x10 ∧ w.extractLsb' 16 6 = r.d.setWidth 6 ∧ w.extractLsb' 0 2 = r.cc)
  ∧ (∀ r : CmpI, ∃ w, encScalar (.cmpi r) = some w ∧ w.extractLsb' 26 6 = 0x20 ∧ w.extractLsb' 16 6 = r.d.setWidth 6
    ∧ w.extractLsb' 6 3 = r.cc ∧ w.extractLsb' 0 6 = r.imm)
  ∧ ∀ w : BitVec 32, w.extractLsb' 26 6 = 0x0F ∨ w.extractLsb' 26 6 = 0x10 ∨ w.extractLsb' 26 6 = 0x20 → w.extractLsb' 19 3 ≠ 0 →
    decodeScalar w = .error .rsvd

/-- 05 R91, R92: SEL always executes, whatever its guard fields say: they select, and a poisoned selector is not consumed but
poisons the result; the predicate operations, MFP and MTP, which leaves p0 as it is, with their guards and codes. -/
def Obligations.SelectAndPredicateResults : Prop :=
  (∀ (r : SR) (s : State),
    s.ctx.canUse none [.s r.a, .s r.b, .s r.d] = true →
    exec (.sel r) s = .next (s.scalarResult 1 r.d
      (if (s.ctx.preg r.g.pg).v != r.g.pn then (s.ctx.sreg r.a).v else (s.ctx.sreg r.b).v)
      ((s.ctx.sreg r.a).pois || (s.ctx.sreg r.b).pois || (s.ctx.preg r.g.pg).pois)))
  ∧ (∀ (r : SR) (s : State), s.ctx.canUse none [.s r.a, .s r.b, .s r.d] = true → r.g = ⟨0, false⟩ →
    ∃ p, exec (.sel r) s = .next (s.scalarResult 1 r.d (s.ctx.sreg r.a).v p))
  ∧ (∀ r : SR, ∃ w, encScalar (.sel r) = some w ∧ w.extractLsb' 26 6 = 0x11 ∧ w.extractLsb' 22 4 = encG r.g ∧ w.extractLsb' 0 2 = 0)
  ∧ (∀ (r : PP) (m : MFP) (n : MTP) (s : State), s.ctx.holds (some r.g) = false → s.ctx.guardPoisoned (some r.g) = false → m.g = r.g → n.g = r.g →
    ∀ i ∈ [Instr.pand r, .por r, .pxor r, .pandn r, .mfp m, .mtp n], exec i s = .next s)
  ∧ (let coded (i : Instr) (op : BitVec 6) (fn : BitVec 2) : Prop := ∃ w, encScalar i = some w ∧ w.extractLsb' 26 6 = op ∧ w.extractLsb' 0 2 = fn
    (∀ r : PP, coded (.pand r) 0x14 0 ∧ coded (.por r) 0x14 1 ∧ coded (.pxor r) 0x14 2 ∧ coded (.pandn r) 0x14 3)
    ∧ (∀ r : MFP, coded (.mfp r) 0x15 0) ∧ ∀ r : MTP, coded (.mtp r) 0x15 1)
  ∧ ((∀ (r : PP) (s : State),
    let a := (s.ctx.preg r.a).v
    let b := (s.ctx.preg r.b).v
    let p := (s.ctx.preg r.a).pois || (s.ctx.preg r.b).pois
    s.ctx.canUse (some r.g) [] = true →
    exec (.pand r) s = .next (s.predResult r.d (a && b) p) ∧ exec (.por r) s = .next (s.predResult r.d (a || b) p)
    ∧ exec (.pxor r) s = .next (s.predResult r.d (a ^^ b) p) ∧ exec (.pandn r) s = .next (s.predResult r.d (a && !b) p))
  ∧ (∀ (r : MFP) (s : State), s.ctx.canUse (some r.g) [.s r.d] = true →
    ∃ v : Word, exec (.mfp r) s = .next (s.scalarResult 1 r.d v ((List.range 8).any (fun i => (s.ctx.preg (BitVec.ofNat 3 i)).pois)))
      ∧ ∀ i, i < 64 → v.getLsbD i = (decide (i < 8) && (s.ctx.preg (BitVec.ofNat 3 i)).v))
  ∧ (∀ (r : MTP) (s : State), s.ctx.canUse (some r.g) [.s r.a] = true →
    ∃ c : Ctx, exec (.mtp r) s = .next (s.setCtx c)
      ∧ c = { s.ctx with pend := c.pend }
      ∧ c.pend = s.ctx.pend ++ (List.range 7).map (fun i =>
        { due := s.ctx.adv + 1, slot := s.cur.bslot, seq := s.ctx.issued, dest := .p (BitVec.ofNat 3 (i + 1)),
          val := if (s.ctx.sreg r.a).v.getLsbD (i + 1) then 1 else 0, wm := BitVec.allOnes 1024,
          pois := pois1 (s.ctx.sreg r.a).pois, pm := 1 })))


/-- 05 R89: the immediate forms compute what their register forms compute, with b replaced by the immediate; a shift by 64
or more traps with FORMAT. -/
def Obligations.ImmediateResults : Prop :=
  ∀ (r : SI) (s : State),
    let a := (s.ctx.sreg r.a).v
    let b := r.imm.signExtend 64
    let p := (s.ctx.sreg r.a).pois
    s.ctx.canUse (some r.g) [.s r.a, .s r.d] = true →
    exec (.addi r) s = .next (s.scalarResult 1 r.d (a + b) p)
    ∧ exec (.andi r) s = .next (s.scalarResult 1 r.d (a &&& b) p)
    ∧ exec (.ori r) s = .next (s.scalarResult 1 r.d (a ||| b) p)
    ∧ exec (.xori r) s = .next (s.scalarResult 1 r.d (a ^^^ b) p)
    ∧ exec (.muli r) s = .next (s.scalarResult 3 r.d (a * b) p)
    ∧ (r.imm.toNat < 64 →
      exec (.shli r) s = .next (s.scalarResult 1 r.d (a <<< r.imm.toNat) p)
      ∧ exec (.shri r) s = .next (s.scalarResult 1 r.d (a >>> r.imm.toNat) p)
      ∧ exec (.sari r) s = .next (s.scalarResult 1 r.d (a.sshiftRight r.imm.toNat) p))
    ∧ (64 ≤ r.imm.toNat → s.cur.go = false →
      ∀ i ∈ [Instr.shli r, .shri r, .sari r], exec i s = .next (s.trapHere { cause := .format, slot := some s.cur.bslot }))
    ∧ (let coded (i : Instr) (op : BitVec 6) : Prop := ∃ w, encScalar i = some w ∧ w.extractLsb' 26 6 = op ∧ w.extractLsb' 0 9 = r.imm
        ∧ w.getLsbD 9 = r.ta
      coded (.addi r) 0x18 ∧ coded (.andi r) 0x19 ∧ coded (.ori r) 0x1A ∧ coded (.xori r) 0x1B ∧ coded (.shli r) 0x1C ∧ coded (.shri r) 0x1D
      ∧ coded (.sari r) 0x1E ∧ coded (.muli r) 0x1F)

/-- 05 R94 to R96: bit fields, constants and VGET, bit by bit; a bit field beyond bit 63 traps with FORMAT, and so does an
element beyond the register. -/
def Obligations.FieldAndConstantResults : Prop :=
  (∀ (r : SF) (s : State),
    let a := s.ctx.sreg r.a
    let d := s.ctx.sreg r.d
    let pos := r.pos.toNat
    let len := r.len.toNat + 1
    s.ctx.canUse none [.s r.a, .s r.d] = true →
    (pos + len ≤ 64 →
      (∃ v : Word, exec (.bfx r) s = .next (s.scalarResult 1 r.d v a.pois)
        ∧ ∀ i, i < 64 → v.getLsbD i = (decide (i < len) && a.v.getLsbD (pos + i)))
      ∧ (∃ v : Word, exec (.bfi r) s = .next (s.scalarResult 1 r.d v (a.pois || d.pois))
        ∧ ∀ i, i < 64 → v.getLsbD i = if pos ≤ i ∧ i < pos + len then a.v.getLsbD (i - pos) else d.v.getLsbD i))
    ∧ (64 < pos + len → s.cur.go = false →
      ∀ i ∈ [Instr.bfx r, .bfi r], exec i s = .next (s.trapHere { cause := .format, slot := some s.cur.bslot })))
  ∧ (∀ (r : MovI) (s : State), s.ctx.canUse (some r.g) [.s r.d] = true →
    exec (.movi r) s = .next (s.scalarResult 1 r.d (r.imm.signExtend 64) false))
  ∧ (∀ (r : MovK) (s : State), s.ctx.canUse none [.s r.d] = true →
    ∃ v : Word, exec (.movk r) s = .next (s.scalarResult 1 r.d v (s.ctx.sreg r.d).pois)
      ∧ ∀ i, i < 64 → v.getLsbD i = if i / 16 = r.k.toNat then r.imm.getLsbD (i % 16) else (s.ctx.sreg r.d).v.getLsbD i)
  ∧ (∀ (r : VGet) (s : State),
    let e := 8 * 2 ^ r.es.toNat
    let i := r.idx.toNat
    s.ctx.canUse (some r.g) [.v r.a, .s r.d] = true →
    (i < 1024 / e → ∃ (v : Word) (p : Bool), exec (.vget r) s = .next (s.scalarResult 3 r.d v p)
      ∧ v.toNat = (s.ctx.vreg r.a).v.toNat / 2 ^ (e * i) % 2 ^ e
      ∧ (p = true ↔ ∃ l, l < 32 ∧ l * 32 < e * i + e ∧ e * i < l * 32 + 32 ∧ (s.ctx.vreg r.a).pois.getLsbD l = true))
    ∧ (1024 / e ≤ i → s.cur.go = false →
      exec (.vget r) s = .next (s.trapHere { cause := .format, slot := some s.cur.bslot })))

/-! ### Control flow, traps and state registers (05 R97 to R107; 19 R325 to R329) -/

/-- 05 R97, R98, R101, R102: a taken branch, a new loop or its skip, the exit actions and the pointer selection, each changing
only what is named of the issuing context; what stops a LOOP, CALLS, RETS or YIELD traps, in the order given, at the bundle, with
the slot named. -/
def Obligations.ControlFlowResults : Prop :=
  (∀ s : State,
    (∀ r : Branch, s.ctx.canUse (some r.g) [] = true → r.tgt.toNat < s.ctx.hdr.count → s.ctx.branch = none →
      ∃ t, exec (.br r) s = .next t ∧ s.onlyCtx t { s.ctx with
        branch := some r.tgt.toNat,
        loop := match s.ctx.loop with
          | .inactive => .inactive
          | .loop a b n => if a ≤ r.tgt.toNat ∧ r.tgt.toNat ≤ b then .loop a b n else .inactive
          | .nest a b k ls m => if a ≤ r.tgt.toNat ∧ r.tgt.toNat ≤ b then .nest a b k ls m else .inactive })
    ∧ (∀ r : LoopOp, s.ctx.canUse (some r.g) [.s r.c] = true → s.ctx.pc < r.tgt.toNat → r.tgt.toNat < s.ctx.hdr.count →
      s.ctx.loop = .inactive → (s.ctx.sreg r.c).pois = false → s.ctx.branch = none →
      ∃ t, exec (.loop r) s = .next t ∧ s.onlyCtx t (
        if (s.ctx.sreg r.c).v.toNat % 2 ^ 32 = 0 then { s.ctx with branch := some (r.tgt.toNat + 1) }
        else { s.ctx with loop := .loop (s.ctx.pc + 1) r.tgt.toNat ((s.ctx.sreg r.c).v.toNat % 2 ^ 32) }))
    ∧ (∀ g : Guard, (s.ctx.preg g.pg).pois = false →
      ∃ t, exec (.next g) s = .next t ∧ s.onlyCtx t { s.ctx with sel := (s.ctx.preg g.pg).v != g.pn, nexted := true })
    ∧ (∀ r : CallOp, s.ctx.canUse (some r.g) [.s r.t] = true → (s.ctx.sreg r.t).pois = false →
      (s.ctx.sreg r.t).v.toNat < 2 ^ 52 → (s.ctx.sreg r.t).v.toNat % 64 = 0 → s.ctx.retstack.length < 8 →
      ∃ t, exec (.calls r) s = .next t ∧ s.onlyCtx t { s.ctx with act := .call (s.ctx.sreg r.t).v.toNat })
    ∧ (∀ g : Guard, s.ctx.canUse (some g) [] = true → s.ctx.retstack ≠ [] → s.ctx.frame = none →
      ∃ t, exec (.rets g) s = .next t ∧ s.onlyCtx t { s.ctx with act := .ret })
    ∧ (∀ (g : Guard) (f : TrapFrame), s.ctx.canUse (some g) [] = true → s.ctx.frame = some f → s.ctx.retstack.length = f.depth →
      ∃ t, exec (.rets g) s = .next t ∧ s.onlyCtx t { s.ctx with act := .trapReturn })
    ∧ (∀ g : Guard, s.ctx.canUse (some g) [] = true → s.cur.slot < 4 →
      (∃ t, exec (.yieldEnd g) s = .next t ∧ s.onlyCtx t { s.ctx with act := .finish })
      ∧ ∃ t, exec (.yieldExit g) s = .next t ∧ s.onlyCtx t { s.ctx with act := .exit })
    ∧ (∀ g : Guard, s.ctx.canUse (some g) [] = true → 4 ≤ s.cur.slot →
      ∃ t, exec (.yieldHdone g) s = .next t ∧ s.onlyCtx t { s.ctx with act := .hdone }))
  ∧ (∀ s : State, s.cur.go = false →
    let trap (c : Cause) (va : Nat) : Host.Outcome State Fault Refusal := .next (s.trapHere { cause := c, va := va, slot := some s.cur.bslot })
    (∀ r : LoopOp, s.ctx.canUse (some r.g) [.s r.c] = true → s.ctx.pc < r.tgt.toNat → r.tgt.toNat < s.ctx.hdr.count →
      (s.ctx.sreg r.c).pois = false → s.ctx.loop ≠ .inactive → exec (.loop r) s = trap .format 0)
    ∧ (∀ r : CallOp, s.ctx.canUse (some r.g) [.s r.t] = true → (s.ctx.sreg r.t).pois = false →
      let v := (s.ctx.sreg r.t).v.toNat
      (2 ^ 52 ≤ v → exec (.calls r) s = trap .window (v % 2 ^ 52))
      ∧ (v < 2 ^ 52 → v % 64 ≠ 0 → exec (.calls r) s = trap .align v)
      ∧ (v < 2 ^ 52 → v % 64 = 0 → 8 ≤ s.ctx.retstack.length → exec (.calls r) s = trap .format 0))
    ∧ (∀ g : Guard, s.ctx.canUse (some g) [] = true → s.ctx.retstack = [] → s.ctx.frame = none → exec (.rets g) s = trap .format 0)
    ∧ (∀ g : Guard, 4 ≤ s.cur.slot → ∀ i ∈ [Instr.yieldEnd g, .yieldExit g], exec i s = trap .priv 0)
    ∧ (∀ g : Guard, s.cur.slot < 4 → exec (.yieldHdone g) s = trap .priv 0))


/-- 05 R98 to R101: a NEST whose image lies in the own scratchpad and is well-formed clears the counters of its levels and starts
its passes, or is skipped where a count is 0; at the end of a bundle a taken branch is followed, a pass that is not the last goes
back to the body's start, the last one goes on after it, and a nest of any depth steps its innermost level that is not at its end,
or waits for an empty walker of its mask. The segment's last bundle goes on to the drain. -/
def Obligations.NestsAndPassEnds : Prop :=
  (∀ (r : NestOp) (s : State) (ps : List (Loc × Nat)) (img : List Byte) (counts : List Nat),
    let p := (s.ctx.sreg r.p).v
    s.ctx.canUse (some r.g) [.s r.p] = true → Instr.WellFormed (.nest r) → s.ctx.pc < r.tgt.toNat → r.tgt.toNat < s.ctx.hdr.count →
    s.ctx.loop = .inactive → s.ctx.branch = none → (s.ctx.sreg r.p).pois = false → s.ownWindow p = true →
    s.accessCheck p 64 64 .load false true false = .ok ps → s.readHeld (s.ctx.entryId s.cur.bslot 0) p.toNat 64 (.ok ps) = false →
    img = pvals (s.rdPieces ps) →
    counts = (List.range 6).map (fun i => leNat ((img.drop (4 * i)).take 4)) →
    (∀ x ∈ img.drop 25, x = 0) → (∀ n ∈ counts.drop r.levels.toNat, n = 0) →
    ∃ t, exec (.nest r) s = .next t ∧ s.onlyCtx t t.ctx ∧ t.ctx.w = s.ctx.w ∧ t.ctx.s = s.ctx.s
      ∧ (∀ l, 1 ≤ l → l ≤ r.levels.toNat → t.ctx.nreg l = { v := 0, pois := false })
      ∧ (∀ l, r.levels.toNat < l → t.ctx.nreg l = s.ctx.nreg l)
      ∧ (0 ∈ counts.take r.levels.toNat → t.ctx.branch = some (r.tgt.toNat + 1) ∧ t.ctx.loop = .inactive)
      ∧ (0 ∉ counts.take r.levels.toNat → t.ctx.branch = none
        ∧ t.ctx.loop = .nest (s.ctx.pc + 1) r.tgt.toNat r.levels.toNat (counts.take r.levels.toNat) (img.getD 24 0)))
  ∧ (∀ c : Ctx,
    (∀ t last, c.branch = some t → t < c.hdr.count →
      c.bundleEnd last = some { c with pc := t, bend := false, branch := none })
    ∧ (∀ t last, c.branch = some t → c.hdr.count ≤ t →
      c.bundleEnd last = some { c with phase := .draining, bend := false, branch := none })
    ∧ (c.branch = none → (match c.loop with | .inactive => True | .loop _ b _ => c.pc ≠ b | .nest _ b _ _ _ => c.pc ≠ b) →
      (c.pc + 1 < c.hdr.count → c.bundleEnd false = some { c with pc := c.pc + 1, bend := false, branch := none })
      ∧ (c.hdr.count ≤ c.pc + 1 → c.bundleEnd false = some { c with phase := .draining, bend := false, branch := none })
      ∧ c.bundleEnd true = some { c with phase := .draining, bend := false, branch := none })
    ∧ (∀ a b n last, c.branch = none → c.loop = .loop a b n → c.pc = b → a < c.hdr.count → 2 ≤ n →
      c.bundleEnd last = some { c with loop := .loop a b (n - 1), pc := a, bend := false, branch := none })
    ∧ (∀ a b, c.branch = none → c.loop = .loop a b 1 → c.pc = b →
      (c.pc + 1 < c.hdr.count → c.bundleEnd false = some { c with loop := .inactive, pc := c.pc + 1, bend := false, branch := none })
      ∧ (c.hdr.count ≤ c.pc + 1 → c.bundleEnd false = some { c with loop := .inactive, phase := .draining, bend := false, branch := none })
      ∧ c.bundleEnd true = some { c with loop := .inactive, phase := .draining, bend := false, branch := none })
    ∧ (∀ a b n lims m last, c.branch = none → c.loop = .nest a b n lims m → c.pc = b → a < c.hdr.count → lims.length ≤ 6 →
      (∀ i, i < lims.length → (c.nreg (i + 1)).v.toNat < lims.getD i 0 ∧ lims.getD i 0 ≤ 2 ^ 32) →
      let ended (i : Nat) : Prop := (c.nreg (i + 1)).v.toNat + 1 = lims.getD i 0
      let named (k : BitVec 3) : Prop := m.getLsbD k.toNat = true
      (∀ j, j < lims.length → ¬ ended j →
        ((∃ k, named k ∧ (c.wreg k).full = false) → c.bundleEnd last = none)
        ∧ ((∀ i, i < j → ended i) → (∀ k, named k → (c.wreg k).full = true) →
          ∃ d, c.bundleEnd last = some d ∧ d.pc = a ∧ d.loop = c.loop ∧ d.phase = c.phase ∧ d.bend = false ∧ d.branch = none
          ∧ (∀ i, i < j → d.nreg (i + 1) = { v := 0, pois := false }) ∧ (d.nreg (j + 1)).v = (c.nreg (j + 1)).v + 1
          ∧ (∀ i, j < i → d.nreg (i + 1) = c.nreg (i + 1))
          ∧ ∀ k, (named k → d.wreg k = { c.wreg k with base := (c.wreg k).base + (c.wreg k).stride (j + 1) })
            ∧ (¬ named k → d.wreg k = c.wreg k)))
      ∧ ((∀ i, i < lims.length → ended i) →
        (last = false → c.pc + 1 < c.hdr.count →
          c.bundleEnd last = some { c with loop := .inactive, pc := c.pc + 1, bend := false, branch := none })
        ∧ (last = true ∨ c.hdr.count ≤ c.pc + 1 →
          c.bundleEnd last = some { c with loop := .inactive, phase := .draining, bend := false, branch := none }))))


/-- 05 R105 with 19 R325 to R329 and R331: TRAP saves its cause, bundle and slot; the registers keep their values and the results in
flight become shadow latches; with a trap handler the context enters trap mode, otherwise it is parked. SEGMENT_END of the trap
handler restores the trap frame: the context resumes at its bundle with its loop state and exit action, and a result that was
latched with r is due r cycles after the resumed bundle issues. -/
def Obligations.TrapsTakenAndReturned : Prop :=
  (∀ (r : TrapOp) (s : State), s.cur.go = false → s.ctx.canUse (some r.g) [] = true →
    let c := s.ctx
    let held := c.pend.map (fun x => { x with due := x.due - c.adv })
    ∃ t, exec (.trap r) s = .next t
      ∧ t.ctx.trapcause = BitVec.ofNat 19 (0x40 + 256 * r.code.toNat) ∧ t.ctx.trappc = BitVec.ofNat 52 (s.bundleVa c.pc)
      ∧ t.ctx.trapva = 0 ∧ t.ctx.trapslot = BitVec.ofNat 4 (8 + s.cur.bslot) ∧ t.ctx.pend = []
      ∧ t.ctx.s = c.s ∧ t.ctx.p = c.p ∧ t.ctx.v = c.v ∧ t.ctx.m = c.m ∧ t.ctx.k = c.k ∧ t.ctx.w = c.w ∧ t.ctx.n = c.n ∧ t.ctx.acc = c.acc
      ∧ t.core.running ≠ some s.cur.slot
      ∧ (c.frame = none → s.trapSeg ≠ 0 → t.ctx.phase = .pending s.trapSeg ∧ t.ctx.loop = .inactive ∧ t.ctx.act = .none
        ∧ t.mem = s.mem
        ∧ t.ctx.frame = some { pc := c.pc, after := true, hdr := c.hdr, loop := c.loop, act := c.act, sel := c.sel,
                               depth := c.retstack.length, latches := held, body := c.body, segStart := c.segStart, nexted := c.nexted })
      ∧ (c.frame.isSome = true ∨ s.trapSeg = 0 → t.ctx.phase = .parked ∧ t.ctx.latches = held ∧ t.ctx.frame = c.frame))
  ∧ (∀ (s : State) (f : TrapFrame),
    s.ctx.phase = .draining → s.ctx.pend = [] → s.ctx.act = .trapReturn → s.ctx.frame = some f →
    ∃ t, exec .segmentEnd s = .next t ∧ t.mem = s.mem ∧ t.ctx.phase = .resuming ∧ t.ctx.frame = none ∧ t.ctx.pc = f.pc ∧ t.ctx.hdr = f.hdr
      ∧ t.ctx.body = f.body ∧ t.ctx.loop = f.loop ∧ t.ctx.act = f.act ∧ t.ctx.sel = f.sel ∧ t.ctx.latches = []
      ∧ t.ctx.pend = f.latches.map (fun x => { x with due := x.due + s.ctx.adv }) ∧ t.ctx.bend = f.after
      ∧ t.ctx.sameRegisters s.ctx ∧ t.core.running ≠ some s.cur.slot)


/-- 05 R106, R107 and 02 R30 to R32, R34, R371: MFS of every state register and RDTIME send the value on its way with latency 2, what a
handler or sluice context reads of the task registers is 0, and UNDC is cleared at the end of the bundle that reads it; MTS sends
its source to the register; a reserved number, a reserved value and a read-only register trap. When a write lands, the fields of
RW registers are replaced and the ones written to W1C fields clear them, nothing else of the context changes, and a semaphore takes
the value and then the increments of the cycle. -/
def Obligations.StateRegisterMoves : Prop :=
  ((∀ (r : Mfs) (s : State), s.ctx.canUse (some r.g) [.s r.d] = true → sregAccess r.sreg ≠ .reserved →
    let moves (v : Word) : Prop := ∃ t, exec (.mfs r) s = .next t ∧ s.onlyCtx t
      ({ s.ctx with undcRead := s.ctx.undcRead || decide (r.sreg = 8) }.issueS s.cur.bslot 2 r.d v false)
    (r.sreg = 0x00 → moves (s.ctx.vflg.extractLsb' 0 64)) ∧ (r.sreg = 0x01 → moves (s.ctx.vflg.extractLsb' 64 64))
    ∧ (r.sreg = 0x02 → moves (s.ctx.vflg.extractLsb' 128 64)) ∧ (r.sreg = 0x03 → moves (s.ctx.mflags.setWidth 64))
    ∧ (r.sreg = 0x04 → moves (s.ctx.rmode.setWidth 64)) ∧ (r.sreg = 0x05 → moves (s.ctx.srseed.setWidth 64))
    ∧ (r.sreg = 0x06 → moves (s.ctx.srctr.setWidth 64))
    ∧ (r.sreg = 0x07 → moves (BitVec.ofNat 64 (256 * s.ctx.thresh.toNat + s.ctx.policy.toNat)))
    ∧ (r.sreg = 0x08 → moves (BitVec.ofNat 64 (s.ctx.undc.toNat + if s.ctx.undcSat then 2 ^ 63 else 0)))
    ∧ (s.cur.slot < 4 → (r.sreg = 0x10 → moves (s.ctx.ebudget.setWidth 64)) ∧ (r.sreg = 0x18 → moves (s.ctx.mprog.setWidth 64)))
    ∧ (4 ≤ s.cur.slot → r.sreg = 0x10 ∨ r.sreg = 0x18 → moves 0)
    ∧ (r.sreg = 0x11 → moves (BitVec.ofNat 64 (16 + 32 * 2 ^ 16 + 64 * 2 ^ 32 + 128 * 2 ^ 48)))
    ∧ (r.sreg = 0x12 → moves (s.ctx.eunder.setWidth 64))
    ∧ (s.cur.slot < 4 → s.cur.core < 576 → (r.sreg = 0x20 → moves (s.ctx.taskid.setWidth 64)) ∧ (r.sreg = 0x21 → moves (s.ctx.coord.setWidth 64))
      ∧ (r.sreg = 0x23 → moves (s.ctx.team.setWidth 64)) ∧ (r.sreg = 0x24 → moves (s.ctx.groups.setWidth 64)))
    ∧ (4 ≤ s.cur.slot ∨ 576 ≤ s.cur.core ∧ s.cur.core < 580 → r.sreg = 0x20 ∨ r.sreg = 0x21 ∨ r.sreg = 0x23 ∨ r.sreg = 0x24 → moves 0)
    ∧ (s.cur.core < 576 → r.sreg = 0x22 → moves (BitVec.ofNat 64 s.cur.core))
    ∧ (576 ≤ s.cur.core → s.cur.core < 580 → r.sreg = 0x22 → moves 0)
    ∧ (r.sreg = 0x25 → moves (s.ctx.launchid.setWidth 64))
    ∧ (r.sreg = 0x26 → moves (BitVec.ofNat 64 (s.ctx.owner % 64 * 32 + s.ctx.owner / 64)))
    ∧ (r.sreg = 0x27 → moves (s.core.hmax.setWidth 64)) ∧ (r.sreg = 0x30 → moves (s.ctx.brb.setWidth 64))
    ∧ (r.sreg = 0x31 → moves (BitVec.ofNat 64 s.ctx.retstack.length))
    ∧ (∀ k, k < 16 → r.sreg = BitVec.ofNat 12 (0x40 + k) → moves ((s.core.sem k).setWidth 64))
    ∧ (r.sreg = 0x50 → moves (s.core.qstat.setWidth 64)) ∧ (r.sreg = 0x60 → moves (s.ctx.trapcause.setWidth 64))
    ∧ (r.sreg = 0x61 → moves (s.ctx.trapva.setWidth 64)) ∧ (r.sreg = 0x62 → moves (s.ctx.trappc.setWidth 64))
    ∧ (r.sreg = 0x63 → moves (s.ctx.trapslot.setWidth 64)) ∧ (r.sreg = 0x70 → moves (s.ctx.asyncf.setWidth 64))
    ∧ (r.sreg = 0x80 → moves (s.ctx.wcol.setWidth 64)))
  ∧ (∀ (c : Ctx) (h : Nat), (c.undcRead = true → (c.finish h).undc = 0 ∧ (c.finish h).undcSat = false)
    ∧ (c.undcRead = false → (c.finish h).undc = c.undc ∧ (c.finish h).undcSat = c.undcSat) ∧ (c.finish h).undcRead = false)
  ∧ (∀ (r : Mfs) (s : State), s.cur.go = false → sregAccess r.sreg = .reserved →
    exec (.mfs r) s = .next (s.trapHere { cause := .rsvd, slot := some s.cur.bslot }))
  ∧ (∀ (r : Mts) (s : State), s.ctx.canUse (some r.g) [.s r.src] = true → (s.ctx.sreg r.src).pois = false →
    sregAccess r.sreg = .rw ∨ sregAccess r.sreg = .w1c →
    let v := (s.ctx.sreg r.src).v
    let refused : Prop := r.sreg = 0x04 ∧ 5 < v.toNat % 8 ∨ r.sreg = 0x07 ∧ 32 < v.toNat / 256 % 64
      ∨ r.sreg = 0x18 ∧ v.getLsbD 8 = true ∧ (s.ctx.restart = none ∨ v.extractLsb' 0 9 ≠ s.ctx.mprog)
    (¬ refused → ∃ t, exec (.mts r) s = .next t ∧ s.onlyCtx t { s.ctx with pend := s.ctx.pend ++
      [{ due := s.ctx.adv + 2, slot := s.cur.bslot, seq := s.ctx.issued, dest := .sr r.sreg, val := v.setWidth 1024,
         wm := BitVec.allOnes 1024, pois := 0, pm := 1 }] })
    ∧ (refused → s.cur.go = false → exec (.mts r) s = .next (s.trapHere { cause := .rsvd, slot := some s.cur.bslot })))
  ∧ (∀ (r : Mts) (s : State), s.cur.go = false →
    (sregAccess r.sreg = .reserved → exec (.mts r) s = .next (s.trapHere { cause := .rsvd, slot := some s.cur.bslot }))
    ∧ (sregAccess r.sreg = .ro ∨ sregAccess r.sreg = .rc → exec (.mts r) s = .next (s.trapHere { cause := .priv, slot := some s.cur.bslot })))
  ∧ (∀ (r : RdTime) (s : State), s.ctx.canUse (some r.g) [.s r.d] = true →
    exec (.rdtimePtime r) s = .next (s.scalarResult 2 r.d (BitVec.ofNat 64 (s.now / 9)) false)
    ∧ exec (.rdtimeCycles r) s = .next (s.scalarResult 2 r.d (BitVec.ofNat 64 (s.now / 4)) false)))
  ∧ (∀ (c : Ctx) (v : Word),
    c.writeSreg 0x03 v = { c with mflags := c.mflags &&& ~~~(v.setWidth 5) }
    ∧ (∀ k, k < 3 → ∃ d : Ctx, c.writeSreg (BitVec.ofNat 12 k) v = { c with vflg := d.vflg }
      ∧ ∀ i, i < 192 → d.vflg.getLsbD i = (c.vflg.getLsbD i && !(decide (i / 64 = k) && v.getLsbD (i % 64))))
    ∧ c.writeSreg 0x04 v = { c with rmode := v.setWidth 3 } ∧ c.writeSreg 0x05 v = { c with srseed := v.setWidth 32 }
    ∧ c.writeSreg 0x06 v = { c with srctr := v.setWidth 32 }
    ∧ c.writeSreg 0x07 v = { c with thresh := v.extractLsb' 8 6, policy := v.getLsbD 0 }
    ∧ c.writeSreg 0x70 v = { c with asyncf := c.asyncf &&& ~~~(v.setWidth 6) }
    ∧ c.writeSreg 0x80 v = { c with wcol := c.wcol &&& ~~~(v.setWidth 8) }
    ∧ (∀ (k : Core) (t : Nat), k.writeSreg t 0x50 v = { k with qstat := k.qstat &&& ~~~(v.setWidth 16) })
    ∧ (∀ (k : Core) (t u n : Nat), n < 16 →
      let w := (k.addSem t n u).writeSreg t (BitVec.ofNat 12 (0x40 + n)) v
      (w.sem n).toNat = min 0xFFFF (v.toNat % 2 ^ 16 + (k.incsOf t n).1 + u) ∧ ∀ j, j ≠ n → w.sem j = k.sem j)
    ∧ ∀ (k : Core) (t n : Nat), n < 16 → (∀ x, sget? k.qinc n = some x → x.1 ≠ t) →
      (k.writeSreg t (BitVec.ofNat 12 (0x40 + n)) v).sem n = v.setWidth 16
      ∧ ∀ j, j ≠ n → (k.writeSreg t (BitVec.ofNat 12 (0x40 + n)) v).sem j = k.sem j)


/-- 02 R25: s0, p0 and m0 read as the rule says, always full and clean; a write to one is discarded, marks nothing empty, is no party
to a collision and sets no WCOL bit: a fixed-latency result for one is never in flight, and a late one changes nothing. -/
def Obligations.HardwiredRegisters : Prop :=
  (∀ c : Ctx, c.sreg 0 = { v := 0, full := true, pois := false } ∧ c.isFull (.s 0) = true
    ∧ (c.preg 0).v = true ∧ (c.preg 0).pois = false ∧ (c.mreg 0).v = BitVec.allOnes 128 ∧ (c.mreg 0).pois = 0)
  ∧ (∀ (c : Ctx) (d : Dest), d = .s 0 ∨ d = .p 0 ∨ d = .m 0 →
    c.markEmpty d = c ∧ (∀ val wm pois pm, c.landOn d val wm pois pm = c)
    ∧ (∀ slot lat val wm pois pm fl uc, c.issue slot lat d val wm pois pm fl uc = c)
    ∧ ∀ slot val wm pois pm, (∀ x ∈ c.pend, x.dest ≠ d) → c.landVar slot d val wm pois pm = c)
  ∧ ∀ (s : State) (lat : Nat) (v : Word) (b p : Bool) (k : Nat),
    (s.scalarResult lat 0 v p).ctxAt k = s.ctxAt k ∧ (s.predResult 0 b p).ctxAt k = s.ctxAt k

/-! ### Landing (02 R33 to R37) -/

/-- 02 R25, R32 to R34, R37; 04 R75, R78; 05 R106; 06 R139: every due result leaves the results in flight. Of those due on one register
the winner is written, under its bit mask for a vector or mask register, and makes it full; a due result of an empty register is
lost; the lost ones set their slots' WCOL bits. A write of a state register replaces its fields or clears its bits, a semaphore takes
the value and then the increments of the cycle, flags of kept results are set after that, counts replace UCNT and are added to UNDC.
Other registers and memory keep their values. -/
def Obligations.FixedResultsLand : Prop :=
  ∀ s : State, ∃ t, exec .fixedResultLand s = .next t ∧ t.mem = s.mem
    ∧ t.ctx.pend = s.ctx.pend.filter (fun x => s.ctx.adv < x.due)
    ∧ (let due (x : Landing) : Prop := x ∈ s.ctx.pend ∧ x.due ≤ s.ctx.adv
      let before (y x : Landing) : Prop := y.slot < x.slot ∨ y.slot = x.slot ∧ y.seq < x.seq
      let empty (d : Dest) : Prop := match d with
        | .s i => (s.ctx.sreg i).full = false | .v i => (s.ctx.vreg i).full = false | .w i => (s.ctx.wreg i).full = false
        | .p _ => False | .m _ => False | .k _ => False | .sr _ => False
      let lost (y : Landing) : Prop := due y ∧ (empty y.dest ∨ ∃ x, due x ∧ x.dest = y.dest ∧ before y x)
      let kept (x : Landing) : Prop := due x ∧ ¬ lost x
      let wins (x : Landing) : Prop := kept x ∧ ∀ y, due y → y.dest = x.dest → y = x ∨ before y x
      let v (x : Landing) : Word := x.val.setWidth 64
      (∀ x d, wins x → x.dest = .s d → d ≠ 0 → t.ctx.sreg d = { v := v x, full := true, pois := x.pois.getLsbD 0 })
      ∧ (∀ x d, wins x → x.dest = .p d → d ≠ 0 → t.ctx.preg d = { v := x.val.getLsbD 0, pois := x.pois.getLsbD 0 })
      ∧ (∀ x d, wins x → x.dest = .v d → (t.ctx.vreg d).full = true
        ∧ (∀ i, i < 1024 → (t.ctx.vreg d).v.getLsbD i = if x.wm.getLsbD i then x.val.getLsbD i else (s.ctx.vreg d).v.getLsbD i)
        ∧ (∀ l, l < 32 → (t.ctx.vreg d).pois.getLsbD l = if x.pm.getLsbD l then x.pois.getLsbD l else (s.ctx.vreg d).pois.getLsbD l))
      ∧ (∀ x d, wins x → x.dest = .m d → d ≠ 0 →
        (∀ i, i < 128 → (t.ctx.mreg d).v.getLsbD i = if x.wm.getLsbD i then x.val.getLsbD i else (s.ctx.mreg d).v.getLsbD i)
        ∧ (∀ l, l < 32 → (t.ctx.mreg d).pois.getLsbD l = if x.pm.getLsbD l then x.pois.getLsbD l else (s.ctx.mreg d).pois.getLsbD l))
      ∧ (∀ x d, wins x → x.dest = .k d → t.ctx.kreg d = { v := x.val, pois := x.pois.setWidth 4 })
      ∧ (∀ x d, wins x → x.dest = .w d → t.ctx.wreg d =
        { base := v x, strides := (x.val >>> 64).setWidth 192, full := true, pois := x.pois.getLsbD 0 })
      ∧ (∀ x, wins x →
        (x.dest = .sr 0x04 → t.ctx.rmode = (v x).setWidth 3) ∧ (x.dest = .sr 0x05 → t.ctx.srseed = (v x).setWidth 32)
        ∧ (x.dest = .sr 0x06 → t.ctx.srctr = (v x).setWidth 32)
        ∧ (x.dest = .sr 0x07 → t.ctx.thresh = (v x).extractLsb' 8 6 ∧ t.ctx.policy = (v x).getLsbD 0)
        ∧ (x.dest = .sr 0x70 → t.ctx.asyncf = s.ctx.asyncf &&& ~~~((v x).setWidth 6))
        ∧ (x.dest = .sr 0x03 → s.ctx.restart = none → t.ctx.mflags = s.ctx.mflags &&& ~~~((v x).setWidth 5))
        ∧ (x.dest = .sr 0x18 → (v x).getLsbD 8 = false → t.ctx.restart = none ∧ t.ctx.mprog = 0)
        ∧ (s.cur.core < 576 → ∀ n, n < 16 → x.dest = .sr (BitVec.ofNat 12 (0x40 + n)) →
          (t.core.sem n).toNat = min 0xFFFF ((v x).toNat % 2 ^ 16 + (s.core.incsOf (s.now / 4) n).1)))
      ∧ (s.cur.core < 576 → ∀ n, n < 16 → (∀ x, due x → x.dest ≠ .sr (BitVec.ofNat 12 (0x40 + n))) → t.core.sem n = s.core.sem n)
      ∧ (∀ k, k < 8 → (t.ctx.wcol.getLsbD k = true ↔ (s.ctx.wcol.getLsbD k = true ∨ ∃ y, lost y ∧ y.slot = k)
        ∧ ∀ x, kept x → x.dest = .sr 0x80 → x.val.getLsbD k = false))
      ∧ ((∀ x y, due x → due y → x.dest = y.dest → x.slot = y.slot → x.seq = y.seq → x = y) →
        (∀ x n, due x → x.dest = .sr n → x.flags = 0 ∧ x.pflags = []) →
        ∀ i, i < 192 → (t.ctx.vflg.getLsbD i = true ↔
          (s.ctx.vflg.getLsbD i = true ∧ ∀ x k, kept x → k < 3 → x.dest = .sr (BitVec.ofNat 12 k) → i / 64 = k → x.val.getLsbD (i % 64) = false)
          ∨ ∃ x, kept x ∧ (x.raised (t.ctx.lanePoison x.dest)).getLsbD i = true))
      ∧ (∀ x p n, kept x → (p, n) ∈ x.ucnt → (∀ y m, due y → (p, m) ∈ y.ucnt → m = n) → sget 0 t.ctx.ucnt p = BitVec.ofNat 6 n)
      ∧ (∀ x, kept x → s.ctx.pend.filter (fun y => decide (y.due ≤ s.ctx.adv) && !y.ucnt.isEmpty) = [x] →
        t.ctx.undc.toNat = min 0xFFFFFFFF (s.ctx.undc.toNat + (x.ucnt.map Prod.snd).sum))
      ∧ (∀ d, (s.ctx.sreg d).full = false ∨ (∀ x, due x → x.dest ≠ .s d) → t.ctx.sreg d = s.ctx.sreg d)
      ∧ (∀ d, (∀ x, due x → x.dest ≠ .p d) → t.ctx.preg d = s.ctx.preg d)
      ∧ (∀ d, (s.ctx.vreg d).full = false ∨ (∀ x, due x → x.dest ≠ .v d) → t.ctx.vreg d = s.ctx.vreg d)
      ∧ (∀ d, (∀ x, due x → x.dest ≠ .m d) → t.ctx.mreg d = s.ctx.mreg d)
      ∧ (∀ d, (∀ x, due x → x.dest ≠ .k d) → t.ctx.kreg d = s.ctx.kreg d)
      ∧ (∀ d, (s.ctx.wreg d).full = false ∨ (∀ x, due x → x.dest ≠ .w d) → t.ctx.wreg d = s.ctx.wreg d))

/-- 02 R34, R37 and 05 R88: a value that arrived from a variable-latency producer, and a division's result once it is due, make
their register full with that value; of it and the fixed-latency results that are due on the register the highest slot is written,
and the others set their slots' WCOL bits; of two divisions that are due together the one of slot S1 is written. -/
def Obligations.LateResultsLand : Prop :=
  (∀ (s : State) (i : Nat) (a : Arrived), s.ctx.arrived[i]? = some a →
    (∀ j b, s.ctx.arrived[j]? = some b → b.dest = a.dest → j = i) →
    (∀ u x, u < 2 → s.core.divider u = some x → x.slot = s.cur.slot → .s x.dest = a.dest → s.now < x.due ∧ s.core.busy < x.due) →
    let due (x : Landing) : Prop := x ∈ s.ctx.pend ∧ x.dest = a.dest ∧ x.due ≤ s.ctx.adv
    ∃ t, exec (.variableResultLand i) s = .next t ∧ s.onlyCtx t t.ctx ∧ t.ctx.arrived = s.ctx.arrived.eraseIdx i
      ∧ t.ctx.pend = s.ctx.pend.filter (fun x => !(decide (x.dest = a.dest) && decide (x.due ≤ s.ctx.adv)))
      ∧ (∀ j, a.dest ≠ .s j → t.ctx.sreg j = s.ctx.sreg j) ∧ (∀ j, a.dest ≠ .v j → t.ctx.vreg j = s.ctx.vreg j)
      ∧ (∀ j, a.dest ≠ .w j → t.ctx.wreg j = s.ctx.wreg j)
      ∧ ((∀ x, due x → x.slot ≤ a.slot ∧ x.seq ≤ s.ctx.issued) →
        (∀ d, d ≠ 0 → a.dest = .s d → t.ctx.sreg d = { v := a.val.setWidth 64, full := true, pois := a.pois.getLsbD 0 })
        ∧ (∀ d, a.dest = .v d → (t.ctx.vreg d).full = true
          ∧ (∀ i, i < 1024 → (t.ctx.vreg d).v.getLsbD i = if a.wm.getLsbD i then a.val.getLsbD i else (s.ctx.vreg d).v.getLsbD i)
          ∧ (∀ l, l < 32 → (t.ctx.vreg d).pois.getLsbD l = if a.pm.getLsbD l then a.pois.getLsbD l else (s.ctx.vreg d).pois.getLsbD l))
        ∧ (∀ d, a.dest = .w d → t.ctx.wreg d =
          { base := a.val.setWidth 64, strides := (a.val >>> 64).setWidth 192, full := true, pois := a.pois.getLsbD 0 })
        ∧ (∀ k, k < 8 → a.dest ≠ .sr 0x80 → (t.ctx.wcol.getLsbD k = true ↔ s.ctx.wcol.getLsbD k = true ∨ ∃ x, due x ∧ x.slot = k)))
      ∧ (∀ x d, due x → a.slot < x.slot → (∀ y, due y → y = x ∨ y.slot < x.slot ∨ y.slot = x.slot ∧ y.seq < x.seq) → d ≠ 0 → a.dest = .s d →
        t.ctx.sreg d = { v := x.val.setWidth 64, full := true, pois := x.pois.getLsbD 0 }
        ∧ (a.slot < 8 → t.ctx.wcol.getLsbD a.slot = true)))
  ∧ (∀ (s : State) (u : Nat) (x : DivBusy), u < 2 → s.core.divider u = some x →
    let k := ctxKey s.cur.core x.slot
    let sole : Prop := ∀ y ∈ (s.ctxAt k).pend, y.dest = .s x.dest → (s.ctxAt k).adv < y.due
    (s.now < x.due → exec (.dividerResultLand u) s = .next s)
    ∧ (x.due ≤ s.now → x.dest ≠ 0 → sole → (∀ y, s.core.divider (1 - u) = some y → y.slot = x.slot → y.dest = x.dest → s.now < y.due) →
      ∃ t, exec (.dividerResultLand u) s = .next t ∧ t.mem = s.mem ∧ t.core.divider u = none
        ∧ t.core.divider (1 - u) = s.core.divider (1 - u)
        ∧ (t.ctxAt k).sreg x.dest = { v := x.val, full := true, pois := x.pois }
        ∧ (∀ j, j ≠ x.dest → (t.ctxAt k).sreg j = (s.ctxAt k).sreg j)
        ∧ ∀ j, j ≠ k → t.ctxAt j = s.ctxAt j)
    ∧ (∀ y, s.core.divider (1 - u) = some y → x.due ≤ s.now → y.due ≤ s.now → y.slot = x.slot → y.dest = x.dest → x.dest ≠ 0 → sole →
      ∃ t, exec (.dividerResultLand u) s = .next t ∧ t.mem = s.mem ∧ t.core.divider 0 = none ∧ t.core.divider 1 = none
        ∧ (t.ctxAt k).sreg x.dest = { v := if u = 1 then x.val else y.val, full := true, pois := if u = 1 then x.pois else y.pois }
        ∧ (t.ctxAt k).wcol.getLsbD 0 = true ∧ ∀ j, j ≠ k → t.ctxAt j = s.ctxAt j))

/-! ### Vectors (06 R108 to R139) -/

/-- 06 R113, R115 to R120 for the integer element types: each active element of each instruction, its latency, its poison (a
mask's lane position covers four mask bits: DEDUCED, log 13), and that nothing else changes. -/
def Obligations.IntegerLaneResults : Prop :=
  ∀ (r : V) (s : State),
    let e := etBits r.et
    let n := wBits r.w / e
    let m := s.ctx.mreg r.m
    let A := s.ctx.vreg r.a
    let B := s.ctx.vreg r.b
    let C := s.ctx.vreg r.c
    let act (i : Nat) : Bool := m.v.getLsbD (i * (e / 8))
    let gov (i : Nat) : Bool := m.pois.getLsbD (i * (e / 8) / 4)
    let one (i : Instr) (f : BitVec e → Nat) : Prop := i.WellFormed → s.ctx.canUse none [.v r.a, .v r.d] = true →
      ∃ t, exec i s = .next t ∧ s.laneResult { lat := 2, size := e, n, dest := .v r.d, act, bad := fun k => gov k || A.bad e k,
                                               val := fun k => f (A.at e k) } t
    let two (i : Instr) (f : BitVec e → BitVec e → Nat) : Prop := i.WellFormed → s.ctx.canUse none [.v r.a, .v r.b, .v r.d] = true →
      ∃ t, exec i s = .next t ∧ s.laneResult { lat := 2, size := e, n, dest := .v r.d, act, bad := fun k => gov k || A.bad e k || B.bad e k,
                                               val := fun k => f (A.at e k) (B.at e k) } t
    etInt r.et = true →
    two (.vadd r) (fun a b => kept r.sat e (a.toInt + b.toInt)) ∧ two (.vsub r) (fun a b => kept r.sat e (a.toInt - b.toInt))
    ∧ two (.vmul r) (fun a b => kept r.sat e (a.toInt * b.toInt))
    ∧ two (.vmin r) (fun a b => if a.toInt ≤ b.toInt then a.toNat else b.toNat)
    ∧ two (.vmax r) (fun a b => if b.toInt ≤ a.toInt then a.toNat else b.toNat)
    ∧ one (.vabs r) (fun a => kept r.sat e (a.toInt.natAbs : Int)) ∧ one (.vneg r) (fun a => kept r.sat e (-a.toInt))
    ∧ two (.vand r) (fun a b => (a &&& b).toNat) ∧ two (.vor r) (fun a b => (a ||| b).toNat)
    ∧ two (.vxor r) (fun a b => (a ^^^ b).toNat) ∧ two (.vandn r) (fun a b => (a &&& ~~~b).toNat)
    ∧ two (.vshl r) (fun a b => if r.sat then kept true e (a.toInt * 2 ^ b.toNat) else (a <<< b.toNat).toNat)
    ∧ two (.vshr r) (fun a b => (a >>> b.toNat).toNat) ∧ two (.vsar r) (fun a b => (a.sshiftRight b.toNat).toNat)
    ∧ one (.vshli r) (fun a => if r.sat then kept true e (a.toInt * 2 ^ r.c.toNat) else (a <<< r.c.toNat).toNat)
    ∧ one (.vshri r) (fun a => (a >>> r.c.toNat).toNat) ∧ one (.vsari r) (fun a => (a.sshiftRight r.c.toNat).toNat)
    ∧ one (.vclz r) (fun a => e - (if a.toNat = 0 then 0 else a.toNat.log2 + 1))
    ∧ one (.vpopc r) (fun a => (List.range e).countP (fun i => a.getLsbD i))
    ∧ two (.vmulh r) (fun a b => (BitVec.ofInt e (a.toInt * b.toInt / 2 ^ e)).toNat)
    ∧ (Instr.WellFormed (.vdot4 r) → s.ctx.canUse none [.v r.a, .v r.b, .v r.c, .v r.d] = true →
      ∃ t, exec (.vdot4 r) s = .next t ∧ s.laneResult
        { lat := 4, size := 32, n := wBits r.w / 32, dest := .v r.d, act := fun k => m.v.getLsbD (k * 4),
          bad := fun k => m.pois.getLsbD k || A.bad 32 k || B.bad 32 k || C.bad 32 k,
          val := fun k => kept r.sat 32 ((C.at 32 k).toInt
            + (A.at 8 (4 * k)).toInt * (B.at 8 (4 * k)).toInt + (A.at 8 (4 * k + 1)).toInt * (B.at 8 (4 * k + 1)).toInt
            + (A.at 8 (4 * k + 2)).toInt * (B.at 8 (4 * k + 2)).toInt + (A.at 8 (4 * k + 3)).toInt * (B.at 8 (4 * k + 3)).toInt) } t)

/-- 06 R122, R124 to R126: moves, selections, permutes and shuffles of elements of any type, bits unchanged. -/
def Obligations.MoveLaneResults : Prop :=
  ∀ (r : V) (s : State),
    let e := etBits r.et
    let n := wBits r.w / e
    let m := s.ctx.mreg r.m
    let A := s.ctx.vreg r.a
    let B := s.ctx.vreg r.b
    let act (i : Nat) : Bool := m.v.getLsbD (i * (e / 8))
    let gov (i : Nat) : Bool := m.pois.getLsbD (i * (e / 8) / 4)
    let op (i : Instr) (x : List FReg) (lat : Nat) (act bad : Nat → Bool) (val : Nat → Nat) : Prop := i.WellFormed →
      s.ctx.canUse none (x ++ [.v r.d]) = true → ∃ t, exec i s = .next t ∧ s.laneResult { lat, size := e, n, dest := .v r.d, act, bad, val } t
    let k := r.c.toNat % 8
    let from_ (i : Nat) : Nat := match r.c.toNat / 8 with
      | 0 => i ^^^ (2 ^ (k + 1) - 1)
      | 1 => i ^^^ 2 ^ k
      | 2 => (i + 2 ^ k) % n
      | 3 => if i % 2 = 0 then i / 2 else i / 2 + n / 2
      | _ => if i < n / 2 then 2 * i else 2 * (i - n / 2) + 1
    op (.vmov r) [.v r.a] 2 act (fun i => gov i || A.bad e i) (fun i => (A.at e i).toNat)
    ∧ op (.vbcast r) [.s r.a] 2 act (fun i => gov i || (s.ctx.sreg r.a).pois) (fun _ => ((s.ctx.sreg r.a).v.setWidth e).toNat)
    ∧ op (.vins r) [.s r.a] 2 (fun i => act i && decide (i = r.c.toNat)) (fun i => gov i || (s.ctx.sreg r.a).pois)
        (fun _ => ((s.ctx.sreg r.a).v.setWidth e).toNat)
    ∧ (etInt r.et = true → op (.vmovi r) [] 2 act (fun _ => false) (fun _ => ((r.a ++ r.b ++ r.c).signExtend e).toNat))
    ∧ op (.vsel r) [.v r.a, .v r.b] 2 (fun _ => true) (fun i => gov i || if act i then A.bad e i else B.bad e i)
        (fun i => if act i then (A.at e i).toNat else (B.at e i).toNat)
    ∧ op (.vperm r) [.v r.a, .v r.b] 3 act
        (fun i => gov i || B.bad e i || (decide ((B.at e i).toNat < n) && A.bad e (B.at e i).toNat))
        (fun i => if (B.at e i).toNat < n then (A.at e (B.at e i).toNat).toNat else 0)
    ∧ op (.vshuf r) [.v r.a] 3 act (fun i => gov i || A.bad e (from_ i)) (fun i => (A.at e (from_ i)).toNat)

/-- 06 R121, R123: the conditions of a VCMP of integers and of floats, with NV where the rule raises it, set over the mask bits of each active element, the mask operations, and the
count of a mask; a VCMP or VMLOG to m0 is discarded (02 R25). -/
def Obligations.MaskResults : Prop :=
  ∀ (r : V) (s : State),
    let e := etBits r.et
    let n := wBits r.w / e
    let m := s.ctx.mreg r.m
    let A := s.ctx.vreg r.a
    let B := s.ctx.vreg r.b
    let act (i : Nat) : Bool := m.v.getLsbD (i * (e / 8))
    let a := s.ctx.mreg (r.a.setWidth 3)
    let b := s.ctx.mreg (r.b.setWidth 3)
    (Instr.WellFormed (.vcmp r) → etInt r.et = true → s.ctx.canUse none [.v r.a, .v r.b] = true →
      (r.d ≠ 0 → ∃ t, exec (.vcmp r) s = .next t ∧ s.laneResult
        { lat := 2, size := e / 8, n, unit := 4, dest := .m (r.d.setWidth 3), act,
          bad := fun i => m.pois.getLsbD (i * (e / 8) / 4) || A.bad e i || B.bad e i,
          val := fun i =>
            let x := A.at e i
            let y := B.at e i
            let c := match r.c.toNat with
              | 0 => decide (x = y) | 1 => decide (x ≠ y) | 2 => decide (x.toInt < y.toInt) | 3 => decide (x.toInt ≤ y.toInt)
              | 4 => decide (x.toNat < y.toNat) | _ => decide (x.toNat ≤ y.toNat)
            if c then 2 ^ (e / 8) - 1 else 0 } t)
      ∧ (r.d = 0 → ∃ t, exec (.vcmp r) s = .next t ∧ s.onlyCtx t s.ctx))
    ∧ (∀ F : Fmt, r.et = 3 ∧ F = bf16 ∨ r.et = 4 ∧ F = f16 ∨ r.et = 5 ∧ F = f32 →
      Instr.WellFormed (.vcmp r) → s.ctx.canUse none [.v r.a, .v r.b] = true →
      let x (i : Nat) : Machine.Num := F.num (A.at e i).toNat
      let y (i : Nat) : Machine.Num := F.num (B.at e i).toNat
      let nan (i : Nat) : Bool := (x i).isNan || (y i).isNan
      (r.d ≠ 0 → ∃ t, exec (.vcmp r) s = .next t ∧ s.laneResult
        { lat := 2, size := e / 8, n, unit := 4, dest := .m (r.d.setWidth 3), act, nf := r.nf,
          bad := fun i => m.pois.getLsbD (i * (e / 8) / 4) || A.bad e i || B.bad e i, lane := fun i => e * i / 32,
          val := fun i =>
            let c := match r.c.toNat with
              | 0 => !nan i && decide ((x i).units = (y i).units) | 1 => nan i || decide ((x i).units ≠ (y i).units)
              | 2 => !nan i && decide ((x i).units < (y i).units) | 3 => !nan i && decide ((x i).units ≤ (y i).units)
              | 6 => nan i | _ => !nan i
            if c then 2 ^ (e / 8) - 1 else 0,
          flags := fun i => if (if r.c = 2 ∨ r.c = 3 then nan i else (x i).isSnan || (y i).isSnan) then fNV else 0 } t)
      ∧ (r.d = 0 → ∃ t, exec (.vcmp r) s = .next t ∧ s.onlyCtx t s.ctx))
    ∧ (Instr.WellFormed (.vmlog r) → r.d ≠ 0 → ∃ t x, exec (.vmlog r) s = .next t ∧ s.onlyCtx t { s.ctx with pend := s.ctx.pend ++ [x] }
      ∧ x.dest = .m (r.d.setWidth 3) ∧ x.due = s.ctx.adv + 2 ∧ x.wm = BitVec.allOnes 1024 ∧ x.pois = a.pois ||| b.pois ∧ x.flags = 0 ∧ x.pflags = []
      ∧ x.val = BitVec.setWidth 1024 (match r.c.toNat % 4 with | 0 => a.v &&& b.v | 1 => a.v ||| b.v | 2 => a.v ^^^ b.v | _ => a.v &&& ~~~b.v))
    ∧ (Instr.WellFormed (.vmlog r) → r.d = 0 → ∃ t, exec (.vmlog r) s = .next t ∧ s.onlyCtx t s.ctx)
    ∧ (Instr.WellFormed (.vmcnt r) → s.ctx.canUse none [.v r.d] = true → ∃ t x, exec (.vmcnt r) s = .next t
      ∧ s.onlyCtx t { s.ctx with pend := s.ctx.pend ++ [x] } ∧ x.dest = .v r.d ∧ x.due = s.ctx.adv + 2 ∧ x.flags = 0 ∧ x.pflags = []
      ∧ x.val.toNat = (List.range n).countP (fun i => a.v.getLsbD (i * (e / 8)))
      ∧ (∀ i, i < 1024 → x.wm.getLsbD i = decide (i < wBits r.w))
      ∧ (x.pois.getLsbD 0 = true ↔ ∃ l, l < wBits r.w / 32 ∧ a.pois.getLsbD l = true))

/-- 04 R65, R71, R73 and 06 R111, R113 to R116, R124, R132: a float instruction's active elements are the operation on the
sources' exact values, rounded once under its mode, and its flags are raised element by element; an SR instruction advances
SRCTR. The exact operations and the rounding are those of Numbers, of which StoredValuesRoundExactly says what they give. VMOVI's
immediate counts as the high bits of an FP32 value (03 R49). -/
def Obligations.FloatLaneResults : Prop :=
  ∀ (r : V) (s : State) (F : Fmt),
    let e := etBits r.et
    let n := wBits r.w / e
    let m := s.ctx.mreg r.m
    let A := s.ctx.vreg r.a
    let B := s.ctx.vreg r.b
    let C := s.ctx.vreg r.c
    let act (i : Nat) : Bool := m.v.getLsbD (i * (e / 8))
    let gov (i : Nat) : Bool := m.pois.getLsbD (i * (e / 8) / 4)
    let rm := if r.rm = 6 then s.ctx.rmode.toNat else r.rm.toNat
    let mode (i : Nat) : Mode := { rm, rill := (rill s.ctx.srseed (BitVec.ofNat 32 i) s.ctx.srctr).toNat }
    let a (i : Nat) : Machine.Num := F.num (A.at e i).toNat
    let b (i : Nat) : Machine.Num := F.num (B.at e i).toNat
    let c (i : Nat) : Machine.Num := F.num (C.at e i).toNat
    let op (i : Instr) (x : List FReg) (lat : Nat) (sr : Bool) (bad : Nat → Bool) (f : Nat → Nat × Flags) : Prop := i.WellFormed →
      s.ctx.canUse none (x ++ [.v r.d]) = true →
      ∃ t, exec i s = .next t ∧ s.laneResult { lat, size := e, n, dest := .v r.d, act, bad, val := fun k => (f k).1, flags := fun k => (f k).2,
                                               nf := r.nf, sr := sr && decide (rm = 5) } t
    let rounded (x : Nat → Res) (i : Nat) : Nat × Flags := ((F.round (mode i) (x i).1).1, (F.round (mode i) (x i).1).2 ||| (x i).2)
    let bad2 (i : Nat) : Bool := gov i || A.bad e i || B.bad e i
    let bad3 (i : Nat) : Bool := bad2 i || C.bad e i
    (r.et = 3 ∧ F = bf16 ∨ r.et = 4 ∧ F = f16 ∨ r.et = 5 ∧ F = f32) →
    op (.vadd r) [.v r.a, .v r.b] 3 true bad2 (rounded fun i => (a i).add rm (b i))
    ∧ op (.vsub r) [.v r.a, .v r.b] 3 true bad2 (rounded fun i => (a i).add rm (b i).negate)
    ∧ op (.vmul r) [.v r.a, .v r.b] 3 true bad2 (rounded fun i => (a i).mul (b i))
    ∧ op (.vfma r) [.v r.a, .v r.b, .v r.c] 4 true bad3 (rounded fun i => Machine.Num.fma rm false false (a i) (b i) (c i))
    ∧ op (.vfms r) [.v r.a, .v r.b, .v r.c] 4 true bad3 (rounded fun i => Machine.Num.fma rm false true (a i) (b i) (c i))
    ∧ op (.vfnma r) [.v r.a, .v r.b, .v r.c] 4 true bad3 (rounded fun i => Machine.Num.fma rm true false (a i) (b i) (c i))
    ∧ op (.vmin r) [.v r.a, .v r.b] 3 false bad2 (fun i => F.minmax false false (A.at e i).toNat (B.at e i).toNat)
    ∧ op (.vmax r) [.v r.a, .v r.b] 3 false bad2 (fun i => F.minmax true false (A.at e i).toNat (B.at e i).toNat)
    ∧ op (.vminn r) [.v r.a, .v r.b] 3 false bad2 (fun i => F.minmax false true (A.at e i).toNat (B.at e i).toNat)
    ∧ op (.vmaxn r) [.v r.a, .v r.b] 3 false bad2 (fun i => F.minmax true true (A.at e i).toNat (B.at e i).toNat)
    ∧ op (.vabs r) [.v r.a] 2 false (fun i => gov i || A.bad e i)
        (fun i => if (a i).isNan then (F.canon, if (a i).isSnan then fNV else 0) else ((A.at e i).toNat % 2 ^ (e - 1), 0))
    ∧ op (.vneg r) [.v r.a] 2 false (fun i => gov i || A.bad e i)
        (fun i => if (a i).isNan then (F.canon, if (a i).isSnan then fNV else 0) else (((A.at e i).toNat + 2 ^ (e - 1)) % 2 ^ e, 0))
    ∧ op (.vmovi r) [] 2 true (fun _ => false) (fun i =>
        let x := f32.num ((r.a ++ r.b ++ r.c).toNat * 2 ^ 14)
        let y := F.round { mode i with sig := 24 } x
        (y.1, y.2 ||| if x.isSnan then fNV else 0))
    ∧ (∀ q : FW, q.et = r.et → q.w = r.w → q.rm = r.rm → q.nf = r.nf → q.m = r.m → q.d = r.d → q.a = r.a →
      let fn (i : Instr) (f : Machine.Num → Res) : Prop := op i [.v r.a] 10 true (fun i => gov i || A.bad e i) (rounded fun i => f (a i))
      fn (.fexp2 q) Machine.Num.exp2 ∧ fn (.flog2 q) Machine.Num.log2 ∧ fn (.frcp q) (fun x => (Machine.Num.ofInt 1).quot x) ∧ fn (.frsqrt q) Machine.Num.rsqrt
      ∧ fn (.fsqrt q) Machine.Num.sqrt ∧ fn (.ftanh q) Machine.Num.tanh ∧ fn (.fsin q) Machine.Num.sin ∧ fn (.fcos q) Machine.Num.cos)

/-- 06 R112, R127 to R130, R133 to R139 with 04 R67, R75 to R77, R81: every form of the instructions that convert, reduce, scan, sort,
search, pack and scale completes where it passes its checks, with the latency, the value, the poison and the flags of each element
that it writes, its underflow counts, and no other change but SRCTR of an SR instruction. That an element which VMXQ or VMXDQ converts
counts as a stored value, and that a poisoned element that underflows is counted, are the model's choices (log 52). -/
def Obligations.MixingVectorOps : Prop :=
  (∀ (r : V) (s : State),
    let e := etBits r.et
    let n := wBits r.w / e
    let m := s.ctx.mreg r.m
    let A := s.ctx.vreg r.a
    let B := s.ctx.vreg r.b
    let act (i : Nat) : Bool := m.v.getLsbD (i * (e / 8))
    let gov (i : Nat) : Bool := m.pois.getLsbD (i * (e / 8) / 4)
    let rm := if r.rm = 6 then s.ctx.rmode.toNat else r.rm.toNat
    let mode (sig i : Nat) : Mode := { rm, rill := (rill s.ctx.srseed (BitVec.ofNat 32 i) s.ctx.srctr).toNat, sig }
    let lands (i : Instr) (x : List FReg) (o : LaneOp) : Prop := i.WellFormed → s.ctx.canUse none x = true →
      ∃ t, exec i s = .next t ∧ s.laneResult o t
    let fmt (et : BitVec 3) (F : Fmt) : Prop := et = 3 ∧ F = bf16 ∨ et = 4 ∧ F = f16 ∨ et = 5 ∧ F = f32
    let snan (x : Machine.Num) : Flags := if x.isSnan then fNV else 0
    -- reductions and scans
    let upTo (i : Nat) : Bool := (List.range i).any (fun k => gov k || (act k && A.bad e k))
    let fold (op : Nat → Nat → Nat → Nat × Flags) (ident : Nat) (sr : Bool) : Prop :=
      (lands (.vred r) [.v r.a, .v r.d]
        (let y := treeOf op n.log2 (fun i => if act i then (A.at e i).toNat else ident)
        { lat := 6, size := e, n, dest := .v r.d, nf := r.nf, sr, bad := fun i => decide (i = 0) && upTo n,
          val := fun i => if i = 0 then y.1 else 0, flags := fun i => if i = 0 then y.2 else 0, lane := fun _ => 0 }))
      ∧ lands (.vscan r) [.v r.a, .v r.d]
        (let y := scanOf op act ident (fun i => (A.at e i).toNat)
        { lat := 6, size := e, n, dest := .v r.d, nf := r.nf, sr, act, bad := fun i => upTo (i + 1),
          val := fun i => (y i).1, flags := fun i => (y i).2 })
    let int (f : Int → Int → Int) (_ a b : Nat) : Nat × Flags :=
      ((BitVec.ofInt e (f (BitVec.ofNat e a).toInt (BitVec.ofNat e b).toInt)).toNat, 0)
    (etInt r.et = true →
      (r.c = 0 → fold (fun _ a b => (kept r.sat e ((BitVec.ofNat e a).toInt + (BitVec.ofNat e b).toInt), 0)) 0 false)
      ∧ (r.c = 1 → fold (int min) (2 ^ (e - 1) - 1) false) ∧ (r.c = 2 → fold (int max) (2 ^ (e - 1)) false)
      ∧ (r.c = 3 → fold (fun _ a b => (a ||| b, 0)) 0 false))
    ∧ (∀ F, fmt r.et F →
      (r.c = 0 → fold (fun i a b =>
          let x := (F.num a).add rm (F.num b)
          let y := F.round (mode 0 i) x.1
          (y.1, y.2 ||| x.2)) (F.signed true 0) (decide (rm = 5)))
      ∧ (r.c = 1 → fold (fun _ a b => F.minmax false false a b) F.infCode false)
      ∧ (r.c = 2 → fold (fun _ a b => F.minmax true false a b) (F.signed true F.infCode) false))
    -- microscaling: format f, elements of k bits
    ∧ (∀ F, fmt r.et F →
      let f := r.c.toNat
      let k := mxBits f
      let q (i : Nat) := mxQuant f (B.at 8 (i / 32)).toNat (mode F.sig i) (F.num (A.at e i).toNat)
      let d (i : Nat) := mxDequant f (B.at 8 (i / 32)).toNat (A.at k i).toNat F (mode (mxSig f) i)
      lands (.vmxq r) [.v r.a, .v r.b, .v r.d]
        { lat := 4, size := k, n, dest := .v r.d, act, nf := r.nf, sr := decide (rm = 5),
          bad := fun i => B.pois.getLsbD 0 || gov i || A.bad e i, val := fun i => (q i).1, flags := fun i => (q i).2.1,
          lane := fun i => e * i / 32,
          ucnt := (List.range ((n + 31) / 32)).map (fun j =>
            ((2 * r.a.toNat + j) % 32, (List.range n).countP (fun i => decide (i / 32 = j) && act i && (q i).2.2))) }
      ∧ lands (.vmxdq r) [.v r.a, .v r.b, .v r.d]
        { lat := 4, size := e, n, dest := .v r.d, act, nf := r.nf, sr := decide (rm = 5),
          bad := fun i => B.pois.getLsbD 0 || gov i || A.bad k i, val := fun i => (d i).1, flags := fun i => (d i).2 })
    -- conversions to type dt
    ∧ (let dt : BitVec 3 := r.c.setWidth 3
      let de := etBits dt
      let big := max e de
      let conv (sr : Bool) (f : Nat → Nat × Flags) : Prop := lands (.vcvt r) [.v r.a, .v r.d]
        { lat := 4, size := de, n := wBits r.w / big, dest := .v r.d, nf := r.nf, sr := sr && decide (rm = 5),
          act := fun i => m.v.getLsbD (i * (big / 8)), bad := fun i => m.pois.getLsbD (i * (big / 8) / 4) || A.bad e i,
          val := fun i => (f i).1, flags := fun i => (f i).2 }
      (∀ F G, fmt r.et F → fmt dt G → conv true (fun i =>
        let x := F.num (A.at e i).toNat
        let y := G.round (mode F.sig i) x
        (y.1, y.2 ||| snan x)))
      ∧ (∀ G, etInt r.et = true → fmt dt G → conv true (fun i => G.round (mode e i) (Machine.Num.ofInt (A.at e i).toInt)))
      ∧ (∀ F, fmt r.et F → etInt dt = true → conv true (fun i => (F.num (A.at e i).toNat).toInt de (mode F.sig i)))
      ∧ (etInt r.et = true → etInt dt = true → conv false (fun i => (kept (r.sat && decide (de < e)) de (A.at e i).toInt, 0)))))
  ∧ (∀ (r : FW) (s : State),
    let e := etBits r.et
    let n := wBits r.w / e
    let m := s.ctx.mreg r.m
    let A := s.ctx.vreg r.a
    let B := s.ctx.vreg (r.a + 1)
    let Q := s.ctx.vreg r.d
    let act (i : Nat) : Bool := m.v.getLsbD (i * (e / 8))
    let gov (i : Nat) : Bool := m.pois.getLsbD (i * (e / 8) / 4)
    let lands (i : Instr) (x : List FReg) (o : LaneOp) : Prop := i.WellFormed → s.ctx.canUse none x = true →
      ∃ t, exec i s = .next t ∧ s.laneResult o t
    -- 2:4 sparsity: position j of a group of four is kept where fewer than two positions rank before it
    (∀ F, r.et = 0 ∨ r.et = 3 ∧ F = bf16 ∨ r.et = 4 ∧ F = f16 →
      let rank (i : Nat) : Nat :=
        if r.et = 0 then (A.at e i).toInt.natAbs
        else if (F.num (A.at e i).toNat).isNan then 2 ^ 16 else (A.at e i).toNat % 2 ^ 15
      ∀ pos : Nat → Nat → Nat,
      (∀ g, g < n / 4 → pos g 0 < pos g 1 ∧ pos g 1 < 4 ∧ ∀ j l, j < 2 → l < 4 → l ≠ pos g 0 → l ≠ pos g 1 →
        rank (4 * g + l) < rank (4 * g + pos g j) ∨ rank (4 * g + l) = rank (4 * g + pos g j) ∧ pos g j < l) →
      let bad (g : Nat) : Bool := (List.range 4).any (fun l => A.bad e (4 * g + l))
      Instr.WellFormed (.spk24 r) → s.ctx.canUse none [.v r.a, .v r.d, .v (r.d + 1)] = true →
      ∃ t, exec (.spk24 r) s = .next t ∧ s.lanePair
        { lat := 4, size := e, n, dest := .v r.d, bad := fun i => decide (i < n / 2) && bad (i / 2),
          val := fun i => if i < n / 2 then (A.at e (4 * (i / 2) + pos (i / 2) (i % 2))).toNat else 0 }
        { lat := 4, size := 4, n := wBits r.w / 4, dest := .v (r.d + 1), bad := fun g => decide (g < n / 4) && bad g,
          val := fun g => if g < n / 4 then pos g 0 + 4 * pos g 1 else 0 } t)
    ∧ (let src (i : Nat) : Option Nat :=
        if (B.at 2 (2 * (i / 4) + 1)).toNat = i % 4 then some (2 * (i / 4) + 1)
        else if (B.at 2 (2 * (i / 4))).toNat = i % 4 then some (2 * (i / 4)) else none
      lands (.spx24 r) [.v r.a, .v (r.a + 1), .v r.d]
        { lat := 4, size := e, n, dest := .v r.d,
          bad := fun i => B.bad 4 (i / 4) || (match src i with | some k => A.bad e k | none => false),
          val := fun i => match src i with | some k => (A.at e k).toNat | none => 0 })
    -- sorting and searching: the order of 32-bit keys
    ∧ (let key (x : BitVec 32) : Int :=
        if r.et = 5 then
          (if (f32.num x.toNat).isNan then 2 ^ 302 else 2 * (f32.num x.toNat).units + if x.getLsbD 31 then 0 else 1)
        else x.toInt
      let k (i : Nat) : Int := key (A.at 32 i)
      let all := (List.range n).any (fun i => A.pois.getLsbD i)
      (∀ from_ : Nat → Nat, (∀ i, i < n → from_ i < n) →
        (∀ i j, i < j → j < n → k (from_ i) < k (from_ j) ∨ k (from_ i) = k (from_ j) ∧ from_ i < from_ j) →
        Instr.WellFormed (.vsort r) → s.ctx.canUse none [.v r.a, .v (r.a + 1), .v r.d, .v (r.d + 1)] = true →
        ∃ t, exec (.vsort r) s = .next t ∧ s.lanePair
          { lat := 14, size := 32, n, dest := .v r.d, nf := r.nf, bad := fun _ => all, val := fun i => (A.at 32 (from_ i)).toNat, lane := from_,
            flags := fun i => if r.et = 5 ∧ (f32.num (A.at 32 (from_ i)).toNat).isSnan = true then fNV else 0 }
          { lat := 14, size := 32, n, dest := .v (r.d + 1), bad := fun i => all || B.pois.getLsbD (from_ i),
            val := fun i => (B.at 32 (from_ i)).toNat } t)
      ∧ lands (.vsrch r) [.v r.a, .v r.d]
        { lat := 8, size := 32, n, dest := .v r.d, act := fun i => m.v.getLsbD (4 * i), bad := fun i => all || Q.pois.getLsbD i || m.pois.getLsbD i,
          val := fun i => (List.range n).countP (fun j => decide (k j ≤ key (Q.at 32 i))) })
    -- scales, counters and the rill
    ∧ (∀ F, r.et = 3 ∧ F = bf16 ∨ r.et = 4 ∧ F = f16 ∨ r.et = 5 ∧ F = f32 →
      let block (j : Nat) : List Machine.Num := ((List.range n).filter (fun i => decide (i / 32 = j) && act i)).map (fun i => F.num (A.at e i).toNat)
      let byte (j f : Nat) : Nat := scaleByte f (block j) s.ctx.policy (sget 0 s.ctx.ucnt ((2 * r.a.toNat + j) % 32)).toNat s.ctx.thresh.toNat
      lands (.mxscl r) [.v r.a, .v r.d]
        { lat := 6, size := 32, n := wBits r.w / 32, dest := .v r.d,
          bad := fun l => decide (l < 6) && (List.range n).any (fun i => gov i || (act i && A.bad e i)),
          val := fun l => if l < 6 then byte 0 (l + 2) + (if 32 < n then 256 * byte 1 (l + 2) else 0) else 0 })
    ∧ lands (.vundc r) [.v r.d]
      { lat := 3, size := 32, n := wBits r.w / 32, dest := .v r.d, act := fun i => m.v.getLsbD (4 * i), bad := fun _ => false,
        val := fun i => (sget 0 s.ctx.ucnt i).toNat }
    ∧ lands (.frill r) [.v r.d]
      { lat := 3, size := 32, n := wBits r.w / 32, dest := .v r.d, act := fun i => m.v.getLsbD (4 * i), bad := fun _ => false, sr := true,
        val := fun i => (rill s.ctx.srseed (BitVec.ofNat 32 i) s.ctx.srctr).toNat })

/-- 04 R64 to R67, R71, R73, R74, R76, R77: a value that the format stores rounds to itself, with no flag, in every mode; any other goes
to one of the two stored values that it lies between, by the mode, with NX, with UF where the rounded value is tiny, and with OF
beyond the largest; sums, products and fused sums are exact, with the signs of zeros, the NaNs and the invalid operations of the
rules; conversions to integers and to MX elements round the same way and keep to the range; and the scale byte of a block. What counts as
beyond the largest finite value is the model's choice (log 52). -/
def Obligations.StoredValuesRoundExactly : Prop :=
  (∀ (F : Fmt) (md : Mode) (x : Nat), F ∈ [f32, f16, bf16, e5m2] → x < 2 ^ F.bits → (F.num x).isNan = false → F.round md (F.num x) = (x, 0))
  -- rounding of ±m × 2^e, in units of 2^u: mag c is the magnitude that code c stores
  ∧ (∀ (F : Fmt) (md : Mode) (neg : Bool) (m c d : Nat) (e : Int), 0 < m → md.rm ≤ 5 → c ≤ F.maxCode →
    let u := min e (F.emin - F.mb)
    let x := m * 2 ^ (e - u).toNat
    let mag (c : Nat) : Nat := (if c < 2 ^ F.mb then c else (c % 2 ^ F.mb + 2 ^ F.mb) * 2 ^ (c / 2 ^ F.mb - 1)) * 2 ^ (F.emin - F.mb - u).toNat
    let gap := mag (c + 1) - mag c
    let up := md.up neg (decide (c % 2 = 1)) (x - mag c) gap (md.srBits d)
    let r := F.round md (.fin neg m e false)
    let toInf : Bool := decide (md.rm = 0) || decide (md.rm = 4) || decide (md.rm = 5) || (decide (md.rm = 2) && neg) || (decide (md.rm = 3) && !neg)
    (F ∈ [f32, f16, bf16, e5m2] →
      (mag c = x → r = (F.signed neg c, 0))
      ∧ (mag c < x → x < mag (c + 1) → gap = 2 ^ d * 2 ^ (e - u).toNat →
        (up = false → r = (F.signed neg c, if c < 2 ^ F.mb then fNX ||| fUF else fNX))
        ∧ (up = true → c = F.maxCode → r = (F.signed neg F.infCode, fOF ||| fNX))
        ∧ (up = true → c < F.maxCode → r.1 = F.signed neg (c + 1)
          ∧ (c + 1 < 2 ^ F.mb → r.2 = fNX ||| fUF) ∧ (2 ^ F.mb ≤ c → r.2 = fNX)
          ∧ (c + 1 = 2 ^ F.mb → (md.rm = 0 ∨ md.rm = 4 → r.2 = if gap < 4 * (mag (c + 1) - x) then fNX ||| fUF else fNX)
            ∧ (md.rm = 2 ∨ md.rm = 3 → r.2 = if 2 * (x - mag c) ≤ gap then fNX ||| fUF else fNX))))
      ∧ (mag (F.maxCode + 1) ≤ x → r = (F.signed neg (if toInf then F.infCode else F.maxCode), fOF ||| fNX)))
    -- the same into an MX element format, under scale 2^(b − 127)
    ∧ (∀ f b, mxFmt f = some F → b < 255 →
      let r := mxQuant f b md (.fin neg m (e + ((b : Int) - 127)) false)
      (mag c = x → r = (F.signed neg c, 0, false))
      ∧ (mag c < x → x < mag (c + 1) → gap = 2 ^ d * 2 ^ (e - u).toNat →
        let y := if up then c + 1 else c
        (y = 0 → r = (F.signed neg 0, fUF ||| fNX, true))
        ∧ (0 < y → y ≤ F.maxCode → r = (F.signed neg y, fNX, false))
        ∧ (F.maxCode < y → r = (F.signed neg F.maxCode, fOF ||| fNX, false)))
      ∧ (mag (F.maxCode + 1) ≤ x → r = (F.signed neg F.maxCode, fOF ||| fNX, false))))
  -- integers: t + r / D is the magnitude; n-bit integers, and MXINT8 in units of 2^−6
  ∧ (∀ (md : Mode) (neg : Bool) (m d n : Nat), md.rm ≤ 5 →
    let t := m / 2 ^ d
    let r := m % 2 ^ d
    let y := if r ≠ 0 ∧ md.up neg (decide (t % 2 = 1)) r (2 ^ d) (md.srBits d) = true then t + 1 else t
    let v : Int := if neg then -(y : Int) else y
    (1 ≤ n → n ≤ 64 →
      let x := Machine.Num.fin neg m (-(d : Int)) false
      (-(2 ^ (n - 1)) ≤ v → v < 2 ^ (n - 1) → x.toInt n md = ((BitVec.ofInt n v).toNat, if r = 0 then 0 else fNX))
      ∧ (v < -(2 ^ (n - 1)) → x.toInt n md = (2 ^ (n - 1), fNV)) ∧ (2 ^ (n - 1) ≤ v → x.toInt n md = (2 ^ (n - 1) - 1, fNV)))
    ∧ (∀ b, b < 255 → 0 < m →
      let q := mxQuant 7 b md (.fin neg m ((b : Int) - 127 - 6 - d) false)
      (y = 0 → q = (0, fUF ||| fNX, true))
      ∧ (0 < y → -128 ≤ v → v < 128 → q = ((BitVec.ofInt 8 v).toNat, if r = 0 then 0 else fNX, false))
      ∧ (v < -128 → q = (0x80, fOF ||| fNX, false)) ∧ (127 < v → q = (0x7F, fOF ||| fNX, false))))
  ∧ (∀ (md : Mode) (n : Nat) (g : Bool), (Machine.Num.nan g).toInt n md = (0, fNV)
    ∧ (1 ≤ n → (Machine.Num.inf true).toInt n md = (2 ^ (n - 1), fNV) ∧ (Machine.Num.inf false).toInt n md = (2 ^ (n - 1) - 1, fNV))
    ∧ ∀ f b, 2 ≤ f → f ≤ 7 → (∀ x, mxQuant f 0xFF md x = (0, 0, false)) ∧ (∀ F x, mxDequant f 0xFF x F md = (F.canon, 0))
      ∧ (b < 255 → mxQuant f b md (.nan g) = (if f = 2 then 0x7F else if f = 3 then 0x7E else 0, fNV, false)
        ∧ (∀ neg, mxQuant f b md (.inf neg) =
          (match mxFmt f with | some F => F.signed neg F.maxCode | none => if neg then 0x80 else 0x7F, fOF, false))
        ∧ ∀ neg e, mxQuant f b md (.fin neg 0 e false) = (match mxFmt f with | some F => F.signed neg 0 | none => 0, 0, false)))
  -- exact operations
  ∧ (∀ (rm : Nat) (a b c : Machine.Num) (u w : Int), a.exactFrom u → b.exactFrom w → u + w ≤ 0 → c.exactFrom (u + w) →
    (∀ b : Machine.Num, u ≤ 0 → b.exactFrom u →
      let y := a.add rm b
      y.2 = 0 ∧ y.1.exactFrom u ∧ y.1.inUnits u = a.inUnits u + b.inUnits u
      ∧ (y.1.inUnits u = 0 → y.1.sign = if a.inUnits u = 0 ∧ b.inUnits u = 0 ∧ a.sign = b.sign then a.sign else decide (rm = 2)))
    ∧ (let y := a.mul b
      y.2 = 0 ∧ y.1.exactFrom (u + w) ∧ y.1.inUnits (u + w) = a.inUnits u * b.inUnits w ∧ y.1.sign = (a.sign != b.sign))
    ∧ ∀ negp negc,
      let y := Machine.Num.fma rm negp negc a b c
      let p := (if negp then -1 else 1) * (a.inUnits u * b.inUnits w)
      let q := (if negc then -1 else 1) * c.inUnits (u + w)
      y.2 = 0 ∧ y.1.exactFrom (u + w) ∧ y.1.inUnits (u + w) = p + q
      ∧ (p + q = 0 → y.1.sign = if p = 0 ∧ q = 0 ∧ ((a.sign != b.sign) != negp) = (c.sign != negc) then c.sign != negc else decide (rm = 2)))
  ∧ (∀ (rm : Nat) (a b c : Machine.Num) (x y negp negc : Bool),
    (a.isNan = true ∨ b.isNan = true → a.add rm b = (.nan false, if a.isSnan || b.isSnan then fNV else 0)
      ∧ a.mul b = (.nan false, if a.isSnan || b.isSnan then fNV else 0))
    ∧ Machine.Num.add rm (.inf x) (.inf y) = (if x = y then (.inf x, 0) else (.nan false, fNV))
    ∧ (a.isNan = false → a.isInf = false → Machine.Num.add rm (.inf x) a = (.inf x, 0) ∧ a.add rm (.inf x) = (.inf x, 0))
    ∧ (a.isNan = false →
      Machine.Num.mul (.inf x) a = (if a.isZero then (.nan false, fNV) else (.inf (x != a.sign), 0))
      ∧ a.mul (.inf x) = (if a.isZero then (.nan false, fNV) else (.inf (a.sign != x), 0)))
    ∧ (a.isNan = true ∨ b.isNan = true ∨ c.isNan = true → Machine.Num.fma rm negp negc a b c =
      (.nan false, if a.isSnan || b.isSnan || c.isSnan || (a.isInf && b.isZero) || (a.isZero && b.isInf) then fNV else 0)))
  -- the scale byte
  ∧ (∀ (f ucnt thresh : Nat) (policy : Bool) (l : List Machine.Num), 2 ≤ f → f ≤ 7 →
    ((∃ x ∈ l, x.isNan = true) → scaleByte f l policy ucnt thresh = 0xFF)
    ∧ ((∀ x ∈ l, x.isNan = false) → (∃ x ∈ l, x.isInf = true) → scaleByte f l policy ucnt thresh = 0xFE)
    ∧ ((∀ x ∈ l, x.isNan = false ∧ x.isInf = false ∧ x.isZero = true) → scaleByte f l policy ucnt thresh = 0x7F)
    ∧ (∀ (u : Int) (k : Nat), (∀ x ∈ l, x.exactFrom u) → u ≤ 0 → (∀ x ∈ l, (x.inUnits u).natAbs < 2 ^ (k + 1)) →
      (∃ x ∈ l, 2 ^ k ≤ (x.inUnits u).natAbs) →
      let emax : Int := match f with | 2 => 8 | 3 => 15 | 4 => 4 | 5 => 2 | 6 => 2 | _ => 0
      let x := max 0 (min 254 (u + k - emax + 127))
      scaleByte f l policy ucnt thresh = (if policy = true ∧ thresh < ucnt then max (x - 1) 0 else x).toNat))

/-! ### Loads, stores and atomics (08 R161 to R172) -/

/-- 03 R52, 08 R162, R163: the address of each mode, and the walker that an entry's issue advances.
And 08 R162: the address traps of a load and of a store, in the order of the rule: WINDOW, `.fe` outside the own scratchpad, a
foreign cluster or scratchpad, and ALIGN; TRAPVA shows the address. -/
def Obligations.AddressForms : Prop :=
  (∀ (r : M) (c : Ctx),
    (fMode r = 0 → c.addrOf r = (c.sreg r.a).v + (r.x.extractLsb' 0 4 ++ r.f.extractLsb' 0 24).signExtend 64)
    ∧ (fMode r = 1 → c.addrOf r = (c.wreg (r.a.extractLsb' 0 3)).base)
    ∧ (fMode r = 2 → c.addrOf r = (c.sreg r.a).v + (c.sreg r.x).v * BitVec.ofNat 64 (2 ^ (r.f.extractLsb' 26 2).toNat)
        + (r.f.extractLsb' 0 24).signExtend 64)
    ∧ ∀ (w : WReg) (l : Nat), 1 ≤ l → l ≤ 6 → w.advance l = { w with base := w.base + (w.strides.extractLsb' (32 * (l - 1)) 32).signExtend 64 })
  ∧ (∀ (r : M) (s : State),
    let c := s.ctx
    let va := c.addrOf r
    let v := va.toNat
    let n := 2 ^ (r.fn.toNat % 4)
    s.cur.go = false → c.addrPoison r = none → c.canUse (some r.g) ((addrSrcs r).map (·.1) ++ [.s r.d]) = true →
    ∀ i : Instr, i = .ld r ∨ i = .st r → i.WellFormed →
      let traps (x : Cause) : Prop := exec i s = .next (s.trapHere { cause := x, va := v % 2 ^ 52, slot := some s.cur.bslot })
      (2 ^ 52 ≤ v → traps .window)
      ∧ (fFe r = true → s.feOk va = false → traps .window)
      ∧ (fFe r = false → ∀ x, s.resolve va = .bad x → traps x)
      ∧ (fFe r = false → ∀ core off room, s.resolve va = .spad core off room → n ≤ room → v % n ≠ 0 → traps .align)
      ∧ (fFe r = false → ∀ g room, s.resolve va = .global g room → n ≤ room → v % n ≠ 0 → traps .align))

/-- 08 R161 to R165, R167, R168: an access whose address passes its checks takes its place at the tail of its queue with the
operand values it has read; a load's destination is marked empty; memory and every register keep their values.
And 08 R166, R176, R186, 02 R39: LDSC reads its 128 own-scratchpad bytes at issue, once the load queue is empty and no job or wait holds
the read, and they land with latency 10, each 32-byte quarter poisoned with its sector. -/
def Obligations.LoadsAndStoresIssue : Prop :=
  (∀ (r : M) (s : State) (ps : List (Loc × Nat)),
    let c := s.ctx
    let va := c.addrOf r
    let n := 2 ^ (r.fn.toNat % 4)
    let w := wBits (r.fn.setWidth 2) / 8
    let ready (x : List FReg) : Prop := c.canUse (some r.g) ((addrSrcs r).map (·.1) ++ x) = true ∧ c.addrPoison r = none
    (Instr.WellFormed (.ld r) → ready [.s r.d] → s.accessCheck va n n .load (fFe r) true false = .ok ps → c.ldq.length < 32 →
      ∃ t, exec (.ld r) s = .next t
        ∧ s.queued t true false (s.entryFor (.load r.d n (decide (r.fn.toNat < 4)) (fFe r)) ps va n) [.s r.d] (advanceOf r))
    ∧ (Instr.WellFormed (.ldv r) → ready [.v r.d] → s.accessCheck va w 32 .load (fFe r) true false = .ok ps → c.ldq.length < 32 →
      ∃ t, exec (.ldv r) s = .next t ∧ s.queued t true false (s.entryFor (.loadv r.d w (fFe r)) ps va w) [.v r.d] (advanceOf r))
    ∧ (Instr.WellFormed (.wset r) → ready [.w (r.d.setWidth 3)] → s.accessCheck va 32 8 .load (fFe r) true false = .ok ps → c.ldq.length < 32 →
      ∃ t, exec (.wset r) s = .next t ∧ s.queued t true false (s.entryFor (.wset (r.d.setWidth 3) (fFe r)) ps va 32) [.w (r.d.setWidth 3)] (advanceOf r))
    ∧ (Instr.WellFormed (.st r) → ready [.s r.d] → s.accessCheck va n n .store (fFe r) false true = .ok ps → c.stq.length < 32 →
      ∃ t, exec (.st r) s = .next t ∧ s.queued t false true (s.entryFor (.store ((c.sreg r.d).v.setWidth 4096) n
        (if (c.sreg r.d).pois then BitVec.allOnes 128 else 0) (fFe r)) ps va n) [] (advanceOf r))
    ∧ (Instr.WellFormed (.stv r) → ready [.v r.d] → s.accessCheck va w 32 .store (fFe r) false true = .ok ps → c.stq.length < 32 →
      ∃ t, exec (.stv r) s = .next t ∧ s.queued t false true (s.entryFor (.store ((c.vreg r.d).v.setWidth 4096) w
        ((c.vreg r.d).pois.setWidth 128) (fFe r)) ps va w) [] (advanceOf r))
    ∧ (let flush (i : Instr) (op : FlushOp) (a : Access) : Prop := i.WellFormed → ready [] → s.accessCheck va 1 1 a (fFe r) false false = .ok ps →
        c.stq.length < 32 → ∃ t, exec i s = .next t ∧ s.queued t false true (s.entryFor (.cflush op (s.flushExtents r)) ps va 1) [] (advanceOf r)
      flush (.cflushClean r) .clean .flush ∧ flush (.cflushFlush r) .flush .flush ∧ flush (.cflushInv r) .inv .flushInv
      ∧ flush (.cflushRangenc r) .rangenc .flush))
  ∧ (∀ (r : M) (s : State) (ps : List (Loc × Nat)),
    let c := s.ctx
    let va := c.addrOf r
    let b := s.rdPieces ps
    Instr.WellFormed (.ldsc r) → c.canUse (some r.g) ((addrSrcs r).map (·.1)) = true → c.addrPoison r = none → s.cur.slot < 4 →
    s.ownWindow va = true → s.accessCheck va 128 128 .load (fFe r) true false = .ok ps →
    s.readHeld (c.entryId s.cur.bslot 0) va.toNat 128 (.ok ps) = false →
    ∃ t x, exec (.ldsc r) s = .next t ∧ s.onlyCtx t { c with pend := c.pend ++ [x], advances := c.advances ++ advanceOf r }
      ∧ x.due = c.adv + 10 ∧ x.dest = .k (r.d.setWidth 4) ∧ x.flags = 0 ∧ x.pflags = []
      ∧ (∀ i, i < 128 → ∀ y, b[i]? = some y → x.val.extractLsb' (8 * i) 8 = y.1)
      ∧ (∀ q, q < 4 → (x.pois.getLsbD q = true ↔ ∃ i y, 32 * q ≤ i ∧ i < 32 * q + 32 ∧ b[i]? = some y ∧ y.2 = true)))

/-- 08 R169 to R172: an atomic takes its place in both queues with its operands and marks its destination empty; QMARK and FENCE
take theirs. -/
def Obligations.AtomicsAndFencesIssue : Prop :=
  ∀ (r : M) (s : State) (ps : List (Loc × Nat)),
    let c := s.ctx
    let va := (c.sreg r.a).v + (r.f.setWidth 18).signExtend 64
    let n := if r.fn = 1 then 8 else 4
    let third := r.f.extractLsb' 18 6
    let room : Prop := c.ldq.length < 32 ∧ c.stq.length < 32
    let atom (i : Instr) (op : AtomOp) : Prop := i.WellFormed →
      c.canUse (some r.g) ([.s r.a, .s r.x] ++ (if op = .cas then [.s third] else []) ++ [.s r.d]) = true → (c.sreg r.a).pois = false →
      (c.sreg r.x).pois = false → (op = .cas → (c.sreg third).pois = false) →
      s.accessCheck va n n .atomic false true true = .ok ps → room →
      ∃ t, exec i s = .next t
        ∧ s.queued t true true (s.entryFor (.atom op r.d (decide (r.fn = 1)) (r.f.getLsbD 29) (c.sreg r.x).v (c.sreg third).v) ps va n) [.s r.d] []
    let plain (op : QOp) : QEntry := { id := (c.issued * 8 + s.cur.bslot) * 256, slot := s.cur.bslot, op }
    atom (.atomSwap r) .swap ∧ atom (.atomCas r) .cas ∧ atom (.atomAdd r) .add ∧ atom (.atomAnd r) .and ∧ atom (.atomOr r) .or
    ∧ atom (.atomXor r) .xor ∧ atom (.atomMin r) .min ∧ atom (.atomMax r) .max ∧ atom (.atomMinu r) .minu ∧ atom (.atomMaxu r) .maxu
    ∧ atom (.atomFadd r) .fadd ∧ atom (.atomIncw r) .incw ∧ atom (.atomLd r) .ld
    ∧ (Instr.WellFormed (.qmark r) → c.canUse (some r.g) [] = true → room →
      ∃ t, exec (.qmark r) s = .next t ∧ s.queued t true true (plain .qmark) [] [])
    ∧ (Instr.WellFormed (.fence r) → c.canUse (some r.g) [] = true → room →
      ∃ t, exec (.fence r) s = .next t ∧ s.queued t true true (plain (.fence r.fn.toNat (r.f.getLsbD 1) (r.f.getLsbD 0))) [] [])


/-- 08 R161, R164: a load or store at the head of its queue that lies in one scratchpad sector performs: a store writes its bytes
there and no other, a load reads them, extended, and its value is on its way to its register; the entry frees, and registers and
every other byte keep their values. No footprint, bank or earlier wait holds it (08 R176, R186; 10 R218).
And 08 R169, R170: an atomic at the head of both queues on an own-scratchpad place: what it writes and returns. -/
def Obligations.ScratchpadAccessesPerform : Prop :=
  (∀ (s : State) (e : QEntry) (pa n : Nat),
    let l : Loc := { space := .spad, pa }
    let at_ := 2 ^ 60 + pa
    let freed (t : State) : Prop := t.ctx.ldq = s.ctx.ldq.filter (fun x => x.id ≠ e.id) ∧ t.ctx.stq = s.ctx.stq.filter (fun x => x.id ≠ e.id)
      ∧ t.ctx.sameRegisters s.ctx ∧ ∀ k, k ≠ s.key → t.ctxAt k = s.ctxAt k
    e.locs = [(l, n)] → e.done = 0 → e.got = [] → s.bankGated l = false → s.ctx.atHead e = true → s.fpBlocks e = false →
    s.waitHolds e.id = false →
    (∀ data pois, s.ctx.stq.head? = some e → e.op = .store data n pois false → n ≤ 512 →
      ∃ t, exec (.queueEntryPerform true) s = .next t ∧ freed t ∧ t.ctx.arrived = s.ctx.arrived
        ∧ ∀ a, mget t.mem.bytes a = if at_ ≤ a ∧ a < at_ + n then data.extractLsb' (8 * (a - at_)) 8 else mget s.mem.bytes a)
    ∧ (∀ d sg, s.ctx.ldq.head? = some e → e.op = .load d n sg false → n ∈ [1, 2, 4, 8] →
      let raw : BitVec (8 * n) := BitVec.ofNat (8 * n) (leNat (mgets s.mem.bytes at_ n))
      ∃ t x, exec (.queueEntryPerform false) s = .next t ∧ freed t ∧ t.mem = s.mem ∧ t.ctx.arrived = s.ctx.arrived ++ [x]
        ∧ x.dest = .s d ∧ x.slot = e.slot ∧ x.val = (if sg then raw.signExtend 64 else raw.setWidth 64 : Word).setWidth 1024))
  ∧ (∀ (s : State) (e : QEntry) (pa : Nat) (op : AtomOp) (d : BitVec 6) (wide far : Bool) (xv cv : Word),
    let l : Loc := { space := .spad, pa }
    let n := if wide then 8 else 4
    let at_ := 2 ^ 60 + pa
    let o : BitVec (8 * n) := BitVec.ofNat (8 * n) (leNat (mgets s.mem.bytes at_ n))
    let x : BitVec (8 * n) := xv.setWidth (8 * n)
    let c : BitVec (8 * n) := cv.setWidth (8 * n)
    e.locs = [(l, n)] → e.op = .atom op d wide far xv cv → s.bankGated l = false → s.ctx.atHead e = true → s.fpBlocks e = false →
    s.waitHolds e.id = false → s.ctx.stq.head? = some e →
    ∃ t y, exec (.queueEntryPerform true) s = .next t ∧ t.ctx.arrived = s.ctx.arrived ++ [y] ∧ y.dest = .s d
      ∧ y.val.toNat = o.toNat ∧ t.ctx.ldq = s.ctx.ldq.filter (fun q => q.id ≠ e.id) ∧ t.ctx.stq = s.ctx.stq.filter (fun q => q.id ≠ e.id)
      ∧ (∀ a, a < at_ ∨ at_ + n ≤ a → mget t.mem.bytes a = mget s.mem.bytes a)
      ∧ (let wrote (v : BitVec (8 * n)) : Prop := leNat (mgets t.mem.bytes at_ n) = v.toNat
        (op = .swap → wrote x) ∧ (op = .cas → wrote (if o = c then x else o)) ∧ (op = .add → wrote (o + x)) ∧ (op = .and → wrote (o &&& x))
        ∧ (op = .or → wrote (o ||| x)) ∧ (op = .xor → wrote (o ^^^ x)) ∧ (op = .min → wrote (if o.toInt ≤ x.toInt then o else x))
        ∧ (op = .max → wrote (if x.toInt ≤ o.toInt then o else x)) ∧ (op = .minu → wrote (if o.toNat ≤ x.toNat then o else x))
        ∧ (op = .maxu → wrote (if x.toNat ≤ o.toNat then o else x)) ∧ (op = .incw → wrote (if x.toNat ≤ o.toNat then 0 else o + 1))
        ∧ (op = .ld → wrote o)
        ∧ (op = .fadd → wide = false →
          leNat (mgets t.mem.bytes at_ n) = (f32.round { rm := 0 } ((f32.num o.toNat).add 0 (f32.num x.toNat)).1).1)))


/-! ### Engine jobs (08 R173 to R183) -/

/-- 08 R173 to R176, R183: an engine command whose card passes its checks starts a job from a snapshot of the card; it moves nothing
itself: memory, registers and the context's other jobs keep their values. No RINV of the issuer is under way (15 R281) and no bank that
holds the card is waking (10 R218). An SLX takes its card from a global address. -/
def Obligations.EngineCommandsIssue : Prop :=
  ∀ (r : M) (s : State) (ps : List (Loc × Nat)),
    let c := s.ctx
    let p := (c.sreg r.a).v
    let card : BitVec 512 := BitVec.ofNat 512 (leNat (pvals (s.rdPieces ps)))
    let seq := (c.issued * 8 + s.cur.bslot) * 256
    let starts (i : Instr) (kind : JobKind) : Prop :=
      i.WellFormed → c.canUse (some r.g) [.s r.a] = true → (c.sreg r.a).pois = false → s.cardCheck kind p.toNat card = none →
      (∀ q ∈ ps, s.bankGated q.1 = false) → c.rinvs = [] → c.jobs.length < 16 →
      ∃ t, exec i s = .next t ∧ t.mem = s.mem ∧ t.ctx.sameRegisters c ∧ t.ctx.ldq = c.ldq ∧ t.ctx.stq = c.stq
        ∧ (∀ k, k ≠ s.key → t.ctxAt k = s.ctxAt k) ∧ (∀ k, k ≠ seq → sget? t.ctx.jobs k = sget? c.jobs k)
        ∧ ∃ j, sget? t.ctx.jobs seq = some j ∧ j.kind = kind ∧ j.card = card ∧ j.cardVa = p.toNat ∧ j.seq = seq ∧ j.st = .active
          ∧ j.streams = [] ∧ j.finished = []
    (s.ownWindow p = true → s.accessCheck p 64 64 .load false true false = .ok ps →
      starts (.copy r) .copy ∧ starts (.put r) .put ∧ starts (.get r) .get ∧ starts (.gather r) .gather ∧ starts (.scatter r) .scatter
      ∧ starts (.scadd r) .scadd ∧ starts (.awr r) .awr)
    ∧ (s.isSluice = true → p.toNat < 13 * 2 ^ 48 → s.accessCheck p 64 64 .load false false false = .ok ps → starts (.slx r) .slx)
    ∧ (s.isSluice = false → s.cur.go = false → exec (.slx r) s = .next (s.trapHere { cause := if (Instr.slx r).check = none then .priv else .rsvd, slot := some s.cur.bslot }))

/-- 08 R179, R180: ENGWAIT marks its destination empty and its value arrives: at once of a job that is known to have ended, of no
known job the status 0xFF, otherwise when the job ends; CPRESUME makes a FAULTED job run again from its progress, with copies taken
again, CPABORT gives it up, and its phaser loses the binding. A poisoned card pointer is not consumed (19 R334). -/
def Obligations.JobControl : Prop :=
  ∀ (r : M) (s : State),
    let c := s.ctx
    let v := (c.sreg r.a).v.toNat
    (Instr.WellFormed (.engwait r) → c.canUse (some r.g) [.s r.a, .s r.d] = true →
      (∀ j, c.jobOf v = some j → j.st ≠ .faulted → (∀ e ∈ c.kept, e.1 ≠ v) →
        ∃ t, exec (.engwait r) s = .next t
          ∧ s.onlyCtx t { c with engwaits := c.engwaits ++ [(r.d, s.cur.bslot, j.seq, (c.issued * 8 + s.cur.bslot) * 256)], marks := c.marks ++ [.s r.d] })
      ∧ (∀ w : Word, (∃ j, c.jobOf v = some j ∧ j.st = .faulted ∧ (∀ e ∈ c.kept, e.1 ≠ v) ∧ w = j.word 1)
          ∨ (c.jobOf v = none ∧ ∃ e, c.kept.find? (fun e => e.1 = v) = some e ∧ w = e.2.2)
          ∨ (c.jobOf v = none ∧ (∀ e ∈ c.kept, e.1 ≠ v) ∧ w = 0xFF) →
        ∃ t, exec (.engwait r) s = .next t ∧ s.onlyCtx t { c with
          arrived := c.arrived ++ [{ dest := .s r.d, slot := s.cur.bslot, val := w.setWidth 1024, wm := BitVec.allOnes 1024, pois := 0, pm := 1 }],
          marks := c.marks ++ [.s r.d] }))
    ∧ (∀ j, c.canUse (some r.g) [.s r.a] = true → c.faultedOf v = some j →
      (Instr.WellFormed (.cpresume r) → c.rinvs = [] →
        ∃ t q, exec (.cpresume r) s = .next t ∧ t.mem = s.mem ∧ sget? t.ctx.jobs j.seq = some q
        ∧ q.st = .active ∧ q.cause = 0 ∧ q.card = j.card ∧ q.streams = j.streams ∧ q.copies = s.jobCopies j.kind j.card ∧ t.ctx.sameRegisters c
        ∧ (∀ k, j.phaser = some k → t.phaserAt k = { s.phaserAt k with faulted := (s.phaserAt k).faulted - 1 })
        ∧ (∀ k, j.phaser ≠ some k → t.phaserAt k = s.phaserAt k))
      ∧ (Instr.WellFormed (.cpabort r) → ∃ t, exec (.cpabort r) s = .next t ∧ t.mem = s.mem ∧ sget? t.ctx.jobs j.seq = none
        ∧ t.ctx.sameRegisters c
        ∧ (∀ k, j.phaser = some k → t.phaserAt k =
          { s.phaserAt k with members := (s.phaserAt k).members.filter (fun m => !(decide (m.ctx = s.key) && decide (m.job = some j.seq))),
                              faulted := (s.phaserAt k).faulted - 1,
                              dropf := if (s.phaserAt k).dropf = BitVec.allOnes 8 then BitVec.allOnes 8 else (s.phaserAt k).dropf + 1 }.advance)
        ∧ (∀ k, j.phaser ≠ some k → t.phaserAt k = s.phaserAt k)))
    ∧ (c.canUse (some r.g) [.s r.a] = true → c.faultedOf v = none →
      (Instr.WellFormed (.cpresume r) → exec (.cpresume r) s = .next s) ∧ (Instr.WellFormed (.cpabort r) → exec (.cpabort r) s = .next s))

/-! ### Semaphores, phasers, pointers (08 R184 to R187; 09 R208) -/

/-- 08 R184 to R186: SEMSIG, PHSIG and PHSW take their queue entries, a wait freezes the bundles after it, PHSTAT returns the
phaser's word, RING advances the index of BRB, and a context that is not a member of the phaser cannot signal it. -/
def Obligations.SignalsAndWaits : Prop :=
  ∀ (r : M) (s : State),
    let c := s.ctx
    let a := (c.sreg r.a).v
    let x := (c.sreg r.x).v
    let entry (op : QOp) : QEntry := { id := (c.issued * 8 + s.cur.bslot) * 256, slot := s.cur.bslot, op }
    (Instr.WellFormed (.semsig r) → c.canUse (some r.g) [.s r.a, .s r.x] = true → (c.sreg r.a).pois = false → (c.sreg r.x).pois = false →
      c.stq.length < 32 →
      (s.semTargetOk a = true → ∃ t, exec (.semsig r) s = .next t ∧ s.queued t false true (entry (.semsig a.toNat (x.toNat % 65536))) [] [])
      ∧ (s.semTargetOk a = false → s.cur.go = false →
        exec (.semsig r) s = .next (s.trapHere { cause := .format, slot := some s.cur.bslot })))
    ∧ (∀ k, c.canUse (some r.g) [.s r.a] = true → (c.sreg r.a).pois = false → s.phaser? a = some k →
      (∀ m, Instr.WellFormed (.phsig r) → (s.phaserAt k).member s.key none = some m → m.mode ≠ .waitOnly → m.signalled = false →
        c.signalQueued k = false → c.stq.length < 32 →
        ∃ t, exec (.phsig r) s = .next t ∧ s.queued t false true (entry (.phsig k)) [] [])
      ∧ (Instr.WellFormed (.phsig r) → s.cur.go = false → (s.phaserAt k).member s.key none = none →
        (∀ m ∈ (s.phaserAt k).joining, m.ctx ≠ s.key) →
        exec (.phsig r) s = .next (s.trapHere { cause := .phaserFault, slot := some s.cur.bslot }))
      ∧ (∀ m, Instr.WellFormed (.phsw r) → c.canUse (some r.g) [.s r.a, .s r.x] = true → (c.sreg r.x).pois = false →
        (s.phaserAt k).member s.key none = some m → m.mode ≠ .waitOnly → m.signalled = false → c.signalQueued k = false →
        c.stq.length < 32 → c.ldq.length < 32 →
        ∃ t, exec (.phsw r) s = .next t ∧ s.onlyCtx t { c with
          ldq := c.ldq ++ [entry (.phsw k)], stq := c.stq ++ [entry (.phsw k)], phwait := c.phwait ++ [(k, x.setWidth 32, (entry (.phsw k)).id)] })
      ∧ (Instr.WellFormed (.phwait r) → c.canUse (some r.g) [.s r.a, .s r.x] = true → (c.sreg r.x).pois = false →
        ∃ t, exec (.phwait r) s = .next t ∧ s.onlyCtx t { c with phwait := c.phwait ++ [(k, x.setWidth 32, (c.issued * 8 + s.cur.bslot) * 256)] })
      ∧ (Instr.WellFormed (.phstat r) → c.canUse (some r.g) [.s r.a, .s r.d] = true →
        ∃ v : Word, exec (.phstat r) s = .next (s.scalarResult 2 r.d v false)
          ∧ v.extractLsb' 0 32 = (s.phaserAt k).phase ∧ v.getLsbD 32 = decide ((s.phaserAt k).faulted ≠ 0)
          ∧ v.extractLsb' 33 8 = (s.phaserAt k).dropf ∧ v.getLsbD 41 = ((s.phaserAt k).member s.key none).isSome
          ∧ v.extractLsb' 44 20 = 0))
    ∧ (Instr.WellFormed (.ring r) → c.canUse (some r.g) [] = true → c.brbNext = none → brbDepth c.brb ≠ 0 →
      ∃ t b, exec (.ring r) s = .next t ∧ s.onlyCtx t { c with brbNext := some b }
        ∧ (brbDepth c.brb ≤ 8 → brbDepth b = brbDepth c.brb ∧ brbOrigin b = brbOrigin c.brb
          ∧ brbIndex b = (brbIndex c.brb + 1) % brbDepth c.brb))
    ∧ (Instr.WellFormed (.ring r) → c.canUse (some r.g) [] = true → s.cur.go = false → brbDepth c.brb = 0 →
      exec (.ring r) s = .next (s.trapHere { cause := .format, slot := some s.cur.bslot }))

/-- 08 R186: a registration is at once where no member has signalled the current phase and waits for the boundary otherwise; a drop
waits for the boundary; no phaser but the one named changes, and no context.
And 08 R186: a phaser advances exactly when at least one member signals, each signalling member has signalled and no bound job is
FAULTED; then its phase grows by 1, every signal is cleared, registrations that waited are members and dropped contexts are not. -/
def Obligations.PhaserMembership : Prop :=
  (∀ (r : M) (s : State) (k : Nat),
    let c := s.ctx
    let p := s.phaserAt k
    let mode : PhMode := if r.fn = 0 then .signalOnly else if r.fn = 1 then .waitOnly else .signalWait
    let m : Member := { ctx := s.key, job := none, mode, signalled := false }
    let other (x : Member) : Bool := !(decide (x.ctx = s.key) && decide (x.job = none))
    c.canUse (some r.g) [.s r.a] = true → (c.sreg r.a).pois = false → s.phaser? (c.sreg r.a).v = some k → p.ready = false →
    (Instr.WellFormed (.phreg r) → r.f = 0 → ∃ t, exec (.phreg r) s = .next t ∧ t = { s with phasers := t.phasers }
      ∧ (∀ j, j ≠ k → t.phaserAt j = s.phaserAt j) ∧ (t.phaserAt k).phase = p.phase ∧ (t.phaserAt k).dropf = p.dropf
      ∧ (t.phaserAt k).leaving = p.leaving.filter (fun c => decide (c ≠ s.key))
      ∧ ((∀ x ∈ p.members, x.signalled = false) → (t.phaserAt k).members = p.members.filter other ++ [m])
      ∧ ((∃ x ∈ p.members, x.signalled = true) → (t.phaserAt k).members = p.members ∧ (t.phaserAt k).joining = p.joining.filter other ++ [m]))
    ∧ (Instr.WellFormed (.phdrop r) → brbDepth c.brb = 0 → (p.member s.key none).isSome = true → s.key ∉ p.leaving →
      ∃ t, exec (.phdrop r) s = .next t ∧ t = { s with phasers := t.phasers } ∧ (∀ j, j ≠ k → t.phaserAt j = s.phaserAt j)
        ∧ t.phaserAt k = { p with leaving := p.leaving ++ [s.key] }))
  ∧ (∀ p : Phaser,
    let signals (m : Member) : Prop := m.mode = .signalOnly ∨ m.mode = .signalWait
    (p.ready = true ↔ (∃ m ∈ p.members, signals m) ∧ (∀ m ∈ p.members, signals m → m.signalled = true) ∧ p.faulted = 0)
    ∧ (p.ready = false → p.advance = p)
    ∧ (p.ready = true → p.advance.phase = p.phase + 1 ∧ p.advance.joining = [] ∧ p.advance.leaving = []
      ∧ (∀ m ∈ p.advance.members, m.signalled = false)
      ∧ (∀ j ∈ p.joining, j.job = none → j.ctx ∉ p.leaving → { j with signalled := false } ∈ p.advance.members)
      ∧ (∀ m ∈ p.advance.members, m.job = none → m.ctx ∉ p.leaving)
      ∧ (∀ m ∈ p.members, m.job = none → m.ctx ∉ p.leaving → (∀ j ∈ p.joining, j.ctx ≠ m.ctx) → { m with signalled := false } ∈ p.advance.members)))


/-- 08 R187: SPTEST's codes and the casts of pointers between their forms; a pointer of another form is returned unchanged. -/
def Obligations.PointerOperations : Prop :=
  ∀ (r : M) (s : State),
    let c := s.ctx
    let v := (c.sreg r.a).v.toNat
    let p := (c.sreg r.a).pois
    let me := s.cur.core
    let gives (i : Instr) (n : Nat) : Prop := i.WellFormed → exec i s = .next (s.scalarResult 2 r.d (BitVec.ofNat 64 n) p)
    let sp (core off : Nat) : Nat := 15 * 2 ^ 48 + core * 2 ^ 38 + off
    let cl (cluster member off : Nat) : Nat := 14 * 2 ^ 48 + cluster * 2 ^ 40 + member * 2 ^ 37 + off
    c.canUse (some r.g) [.s r.a, .s r.d] = true → me < 576 →
    (v < 13 * 2 ^ 48 → gives (.sptest r) 0 ∧ gives (.spcastExplicit r) v ∧ gives (.spcastSelf r) v ∧ gives (.spcastTocluster r) v
      ∧ gives (.spcastFromcluster r) v ∧ gives (.spcastClexplicit r) v ∧ gives (.spcastClself r) v)
    ∧ (13 * 2 ^ 48 ≤ v → v < 14 * 2 ^ 48 → gives (.sptest r) 1)
    ∧ (2 ^ 52 ≤ v → gives (.sptest r) 7)
    ∧ (∀ off, off < 2 ^ 21 → v = sp 0x3FF off → gives (.sptest r) 4 ∧ gives (.spcastExplicit r) (sp me off)
      ∧ gives (.spcastTocluster r) (cl 0xFF (me % 8) off) ∧ gives (.spcastFromcluster r) v)
    ∧ (∀ off, off < 2 ^ 21 → v = sp me off → gives (.sptest r) 4 ∧ gives (.spcastSelf r) (sp 0x3FF off))
    ∧ (∀ core off, off < 2 ^ 21 → core < 576 → core / 8 ≠ me / 8 → v = sp core off → gives (.sptest r) 5 ∧ gives (.spcastSelf r) v
      ∧ gives (.spcastTocluster r) (cl (core / 8) (core % 8) off))
    ∧ (∀ m off, off < 2 ^ 21 → m < 8 → v = cl 0xFF m off → gives (.sptest r) 2 ∧ gives (.spcastFromcluster r) (sp (8 * (me / 8) + m) off)
      ∧ gives (.spcastClexplicit r) (cl (me / 8) m off))
    ∧ (∀ m off, off < 2 ^ 21 → m < 8 → v = cl (me / 8) m off → gives (.sptest r) 2 ∧ gives (.spcastClself r) (cl 0xFF m off))
    ∧ (∀ k m off, off < 2 ^ 21 → m < 8 → k < 72 → k ≠ me / 8 → v = cl k m off → gives (.sptest r) 3
      ∧ gives (.spcastFromcluster r) (sp (8 * k + m) off) ∧ gives (.spcastClself r) v)

/-! ### Objects and messages (08 R188, R189; 17 R315 to R317) -/

/-- 08 R188, R189: ROCALL and JETMSG take their queue entries; ROWAIT lands at once a word that is not OK as status 0x03 and a
result that its die's replica has applied, and otherwise waits. -/
def Obligations.ObjectInstructionsIssue : Prop :=
  ∀ (r : M) (s : State) (ps qs : List (Loc × Nat)) (l0 : Loc),
    let c := s.ctx
    let w := (c.sreg r.a).v
    let x := (c.sreg r.x).v
    let entry (op : QOp) : QEntry := { id := (c.issued * 8 + s.cur.bslot) * 256, slot := s.cur.bslot, op }
    let first := ps.head?.map (·.1)
    (Instr.WellFormed (.rocall r) → c.canUse (some r.g) [.s r.a, .s r.x, .s r.d] = true → (c.sreg r.x).pois = false → w.toNat < 2 ^ 13 →
      s.ownWindow x = true → s.accessCheck x 64 64 .load false true false = .ok ps → first = some l0 → c.ldq.length < 32 → c.stq.length < 32 →
      ∃ t, exec (.rocall r) s = .next t
        ∧ s.queued t true true { entry (.rocall r.d (w.toNat % 256) (w.toNat / 256) l0) with va := x.toNat } [.s r.d] [])
    ∧ (Instr.WellFormed (.jetmsg r) → c.canUse (some r.g) [.s r.a, .s r.x] = true → (c.sreg r.a).pois = false → (c.sreg r.x).pois = false →
      s.jetTarget w = .ok qs → s.ownWindow x = true → s.accessCheck x 64 64 .load false true false = .ok ps → first = some l0 →
      c.stq.length < 32 →
      ∃ t, exec (.jetmsg r) s = .next t
        ∧ s.queued t false true { entry (.jetmsg w.toNat l0) with locs := qs, va := w.toNat, via := s.viaOf w 1 } [] [])
    ∧ (Instr.WellFormed (.rowait r) → c.canUse (some r.g) [.s r.a, .s r.d] = true →
      let lands (v : Word) : Prop := ∃ t, exec (.rowait r) s = .next t ∧ s.onlyCtx t { c with
        arrived := c.arrived ++ [{ dest := .s r.d, slot := s.cur.bslot, val := v.setWidth 1024, wm := BitVec.allOnes 1024, pois := 0, pm := 1 }],
        marks := c.marks ++ [.s r.d] }
      let o := s.objAt (partOfKey c.owner) (w.toNat / 2 ^ 48 % 256)
      let done := o.appliedAt (dieOf s.cur.core)
      let pos := w.toNat % 2 ^ 48
      (w.toNat / 2 ^ 56 ≠ 0 → lands (BitVec.ofNat 64 (3 * 2 ^ 56 + w.toNat / 2 ^ 48 % 256 * 2 ^ 48)))
      ∧ (w.toNat / 2 ^ 56 = 0 → pos < done → done < pos + 4096 → lands (sget 0 o.results (dieOf s.cur.core * 4096 + pos % 4096)))
      ∧ (w.toNat / 2 ^ 56 = 0 → done ≤ pos → ∃ t, exec (.rowait r) s = .next t
        ∧ s.onlyCtx t { c with rowaits := c.rowaits ++ [(r.d, s.cur.bslot, w)], marks := c.marks ++ [.s r.d] }))

/-- 08 R188 and 17 R315 to R317: at the home of a log a mutating call takes the tail, its record is written there, every replay
engine is given the work and the caller gets status 0 with its position; a full ring is BUSY; an unknown object is
status 3; a call of the same object that comes first by arrival, caller core and task keeps it waiting; a read-only call goes to the replay engine of its caller's die with the tail it has sampled. -/
def Obligations.LogCalls : Prop :=
  ∀ (s : State) (i : Nat) (q : CallReq) (d : ObjectDesc),
    let o := s.objAt q.part q.obj
    let first : Prop := ∀ y : CallReq, y ∈ s.calls.eraseIdx i → y.part = q.part → y.obj = q.obj → q.bcy < y.bcy
    let at_ := max (s.now / 6) (q.bcy + 1)
    let answered (t : State) (w : Word) : Prop :=
      ∃ y, (t.ctxAt q.ctx).arrived = (s.ctxAt q.ctx).arrived ++ [y] ∧ y.dest = .s q.d ∧ y.val = w.setWidth 1024 ∧ t.calls = s.calls.eraseIdx i
    s.calls[i]? = some q →
    (s.desc q.part q.obj = none → ∀ e ∈ [Instr.rocallAppend i, .rocallReadQuery i],
      ∃ t, exec e s = .next t ∧ answered t (BitVec.ofNat 64 (3 * 2 ^ 56 + q.obj * 2 ^ 48)) ∧ t.objects = s.objects)
    ∧ (s.desc q.part q.obj = some d → d.nmeth ≤ q.method → ∀ e ∈ [Instr.rocallAppend i, .rocallReadQuery i],
      ∃ t, exec e s = .next t ∧ answered t (BitVec.ofNat 64 (3 * 2 ^ 56 + q.obj * 2 ^ 48)) ∧ t.objects = s.objects)
    ∧ (s.desc q.part q.obj = some d → q.method < d.nmeth → d.mbits.testBit q.method = true → first →
      (o.tail - o.minApplied = 4096 → ∃ t, exec (.rocallAppend i) s = .next t ∧ answered t (BitVec.ofNat 64 (1 * 2 ^ 56 + q.obj * 2 ^ 48))
        ∧ t.objects = s.objects)
      ∧ (o.tail - o.minApplied ≠ 4096 → o.tail < 2 ^ 48 → q.method < 32 →
        (∀ die, die < 4 → (s.sliceAt (12 * die)).fifo.length < 32 ∧ ∀ y ∈ (s.sliceAt (12 * die)).fifo, y.1 < at_) →
        ∃ t, exec (.rocallAppend i) s = .next t ∧ answered t (BitVec.ofNat 64 (q.obj * 2 ^ 48 + o.tail))
          ∧ (t.objAt q.part q.obj).tail = o.tail + 1 ∧ t.mem = s.mem
          ∧ (∃ b, sget? (t.objAt q.part q.obj).records (o.tail % 4096) = some b ∧ b.extractLsb' 0 48 = BitVec.ofNat 48 o.tail
            ∧ b.extractLsb' 128 384 = q.args.extractLsb' 0 384)
          ∧ ∀ die, die < 4 → (t.sliceAt (12 * die)).fifo = (s.sliceAt (12 * die)).fifo ++ [(at_, .replay q.part q.obj)]))
    ∧ (s.desc q.part q.obj = some d → q.method < d.nmeth → d.mbits.testBit q.method = true → s.callFirst i q = true →
      exec (.rocallAppend i) s = .next s)
    ∧ (s.desc q.part q.obj = some d → q.method < d.nmeth → d.mbits.testBit q.method = false →
      let sl := 12 * dieOf (q.ctx / 8)
      (s.sliceAt sl).fifo.length < 32 → (∀ y ∈ (s.sliceAt sl).fifo, y.1 < s.now / 6) →
      ∃ t n, exec (.rocallReadQuery i) s = .next t ∧ t.calls = s.calls.eraseIdx i ∧ t.objects = s.objects
        ∧ (t.sliceAt sl).fifo = (s.sliceAt sl).fifo ++ [(s.now / 6, .read q.part q.obj q.method o.tail q.args q.ctx q.d n)])
    -- the order of a FIFO is that of arrival, of one basin cycle that of the rank
    ∧ (∀ (x : Nat × JetItem) (l : List (Nat × JetItem)),
      let le (a b : Nat × JetItem) : Prop := a.1 < b.1 ∨ a.1 = b.1 ∧ a.2.rank ≤ b.2.rank
      l.Pairwise le → (insItem x l).Pairwise le ∧ ∀ y, y ∈ insItem x l ↔ y = x ∨ y ∈ l)

/-! ### The matrix unit (07) -/

/-- 07 R140, R142, R147, R151, R152: in slot 7 of a task context, each matrix instruction enters the queue of the core and marks its
accumulator empty, MMRD reads a quarter-row of a full accumulator, MMST takes its rows into the store queue; an MMA pays its
declared energy, and one that finds the queue full or its budget short freezes the core.
And 02 R26, 07 R140: a matrix instruction in slot 6 is ILLEGAL, in a handler or sluice context PRIV, and outside the task's share
FORMAT; where the core's queue is full the core freezes. -/
def Obligations.MatrixInstructionsIssue : Prop :=
  (∀ (r : M) (s : State),
    let c := s.ctx
    let acc : BitVec 2 := r.f.extractLsb' 0 2
    let seq := (c.issued * 8 + s.cur.bslot) * 256
    let queues (t : State) (op : MatOp) : Prop := t.core.matq = s.core.matq ++ [{ slot := s.cur.slot, seq := seq, op := op }]
      ∧ t.mem = s.mem ∧ t.ctx.sameRegisters c ∧ t.ctx.accEmpty = c.accEmpty ||| (1#4 <<< op.acc.toNat) ∧ t.ctx.stq = c.stq
      ∧ ∀ k, k ≠ s.key → t.ctxAt k = s.ctxAt k
    let row := (r.f.extractLsb' 6 6).toNat
    let quarter := (r.f.extractLsb' 4 2).toNat
    ((∀ k, k < 4 → (s.ctxAt (ctxKey s.cur.core k)).restart = none) → (s.matFull = true ↔ 4 ≤ s.core.matq.length)) ∧ (
    s.cur.bslot = 7 → s.cur.slot < 4 → s.isSluice = false → s.matFull = false →
    (acc.toNat < c.matrixShare →
      (Instr.WellFormed (.mmz r) → c.canUse (some r.g) [] = true → ∃ t, exec (.mmz r) s = .next t ∧ queues t (.mmz acc) ∧ t.ctx.ldq = c.ldq)
      ∧ (Instr.WellFormed (.mmwr r) → c.canUse (some r.g) [.v r.a] = true →
        ∃ t, exec (.mmwr r) s = .next t ∧ queues t (.mmwr acc row quarter (c.vreg r.a).v (c.vreg r.a).pois) ∧ t.ctx.ldq = c.ldq)
      ∧ (Instr.WellFormed (.mmld r) → c.canUse (some r.g) [.s r.a, .s r.x] = true → s.rowsVerdict r false = .go → c.ldq.length < 32 →
        ∃ t e, exec (.mmld r) s = .next t ∧ queues t (.mmld acc none) ∧ t.ctx.ldq = c.ldq ++ [e] ∧ e.op = .matrix ∧ e.id = seq)
      ∧ (Instr.WellFormed (.mmrd r) → c.canUse (some r.g) [.a acc, .v r.d] = true →
        ∃ t y, exec (.mmrd r) s = .next t ∧ s.onlyCtx t { c with arrived := c.arrived ++ [y], marks := c.marks ++ [.v r.d] }
          ∧ y.dest = .v r.d ∧ y.val = c.accQuarter acc.toNat row quarter)
      ∧ (Instr.WellFormed (.mmst r) → c.canUse (some r.g) [.s r.a, .s r.x, .a acc] = true → s.rowsVerdict r true = .go → c.stq.length < 32 →
        ∃ t e, exec (.mmst r) s = .next t ∧ s.onlyCtx t { c with stq := c.stq ++ [e] } ∧ e.id = seq
          ∧ e.op = .mmst ((List.range 64).map (c.accRow acc.toNat))
          ∧ e.rows = (List.range 64).map (fun i => ((c.sreg r.a).v + BitVec.ofNat 64 i * (c.sreg r.x).v).toNat)))
    ∧ (∀ w : MmaW, Instr.WellFormed (.mma w) → c.canUse (some w.g) ((mmaWalkers w).map FReg.w) = true → w.acc.toNat < c.matrixShare →
      s.gangFits w → s.mmaChecks w = .go → c.ldq.length < 32 →
      ∃ t q e, exec (.mma w) s = .next t ∧ queues t (.mma q) ∧ q.w = w ∧ q.wa = c.wreg w.wA ∧ q.wb = c.wreg w.wB
        ∧ q.wm = c.wreg (w.wA + 1) ∧ q.ka = c.kreg w.kA ∧ q.kb = c.kreg w.kB ∧ q.start = 0 ∧ q.energy = 0 ∧ q.resumed = false
        ∧ (w.gang = 0 → q.rank = 0 ∧ t.ctx.gangSeq = c.gangSeq)
        ∧ (w.gang ≠ 0 → q.gangNo = sget 0 c.gangSeq w.gang.toNat ∧ sget 0 t.ctx.gangSeq w.gang.toNat = q.gangNo + 1
          ∧ ∀ l ts, s.launchOf c = some l → l.members w.gang.toNat = some ts → q.rank = (ts.filter (fun x => x < c.taskid.toNat)).length)
        ∧ t.ctx.ebudget.toNat + 16 * 2 ^ w.ec.toNat = c.ebudget.toNat ∧ t.ctx.ldq = c.ldq ++ [e] ∧ e.op = .matrix ∧ e.id = seq)))
  ∧ (∀ (r : M) (w : MmaW) (s : State), s.cur.go = false →
    let trap (c : Cause) : Host.Outcome State Fault Refusal := .next (s.trapHere { cause := c, slot := some s.cur.bslot })
    let all : List Instr := [.mmz r, .mmwr r, .mmrd r, .mmld r, .mmst r]
    (s.cur.bslot = 6 → ∀ i ∈ .mma w :: all, exec i s = trap .illegal)
    ∧ (s.cur.bslot = 7 → 4 ≤ s.cur.slot ∨ s.isSluice = true → ∀ i ∈ .mma w :: all, exec i s = trap .priv)
    ∧ (s.cur.bslot = 7 → s.cur.slot < 4 → s.isSluice = false → Instr.WellFormed (.mma w) →
      (s.ctx.matrixShare ≤ w.acc.toNat ∨ ¬ s.gangFits w → exec (.mma w) s = trap .format)
      ∧ (w.acc.toNat < s.ctx.matrixShare → s.gangFits w → s.ctx.canUse (some w.g) ((mmaWalkers w).map FReg.w) = true →
        (∀ i ∈ mmaWalkers w, (s.ctx.wreg i).misaligned = false ∧ (s.ctx.wreg i).pois = false) →
        s.matFull = true ∨ s.ctx.ebudget.toNat < 16 * 2 ^ w.ec.toNat → exec (.mma w) s = .next s.frozenCycle))
    ∧ (s.cur.bslot = 7 → s.cur.slot < 4 → s.isSluice = false → s.ctx.matrixShare ≤ (r.f.extractLsb' 0 2).toNat →
      ∀ i ∈ all, i.WellFormed → exec i s = trap .format)
    ∧ (s.cur.bslot = 7 → s.cur.slot < 4 → s.isSluice = false → (r.f.extractLsb' 0 2).toNat < s.ctx.matrixShare → s.matFull = true →
      s.ctx.canUse (some r.g) [] = true → Instr.WellFormed (.mmz r) → exec (.mmz r) s = .next s.frozenCycle))


/-! ### Range instructions (15 R278 to R282) -/

/-- 15 R278 to R282: RSPLIT, RMERGE and RINV of a supervisor task take their entries in both queues, any other task takes PRIV, and
a VA that is no global one or is not aligned to a granule takes WINDOW or ALIGN. RPROBE never traps on its address: it answers with the
entry's attributes and PA, or with the cause 0x10, 0x12 or 0x16; where the RTLB has missed it asks for a walk first. -/
def Obligations.RangeInstructionsIssue : Prop :=
  ∀ (r : M) (s : State),
    let c := s.ctx
    let v := (c.sreg r.a).v.toNat
    let entry (op : QOp) : QEntry := { id := (c.issued * 8 + s.cur.bslot) * 256, slot := s.cur.bslot, op, va := v }
    let asks (i : Instr) (op : QOp) (d : List FReg) (marks : List Dest) : Prop := i.WellFormed →
      (s.supervisor = false → s.cur.go = false → exec i s = .next (s.trapHere { cause := .priv, slot := some s.cur.bslot }))
      ∧ (s.supervisor = true → c.canUse (some r.g) (.s r.a :: d) = true → (c.sreg r.a).pois = false →
        (v < 13 * 2 ^ 48 → v % 256 = 0 → c.ldq.length < 32 → c.stq.length < 32 →
          ∃ t, exec i s = .next t ∧ s.queued t true true (entry op) marks [])
        ∧ (13 * 2 ^ 48 ≤ v → s.cur.go = false →
          exec i s = .next (s.trapHere { cause := .window, va := v % 2 ^ 52, slot := some s.cur.bslot }))
        ∧ (v < 13 * 2 ^ 48 → v % 256 ≠ 0 → s.cur.go = false →
          exec i s = .next (s.trapHere { cause := .align, va := v, slot := some s.cur.bslot })))
    asks (.rsplit r) (.rsplit r.d v) [.s r.d] [.s r.d] ∧ asks (.rmerge r) (.rmerge r.d v) [.s r.d] [.s r.d] ∧ asks (.rinv r) (.rinv v) [] []
    ∧ (Instr.WellFormed (.rprobe r) → c.canUse (some r.g) [.s r.a, .s r.d] = true → (c.sreg r.a).pois = false →
      let answers (w : Nat) : Prop := ∃ t y, exec (.rprobe r) s = .next t ∧ t = { s with ctxs := t.ctxs, cores := t.cores }
        ∧ (∀ k, t.ctxAt k = if k = s.key then { c with arrived := c.arrived ++ [y], marks := c.marks ++ [.s r.d] } else s.ctxAt k)
        ∧ (∀ k, t.coreAt k = if k = s.cur.core then { s.core with missVa := none } else s.coreAt k)
        ∧ y.dest = .s r.d ∧ y.val = (BitVec.ofNat 64 w).setWidth 1024 ∧ y.pois = 0
      let bit (b : Bool) (n : Nat) : Nat := if b = true then 2 ^ n else 0
      (∀ x, s.resolve (c.sreg r.a).v = .bad x → answers (2 ^ 63 + 0x16))
      ∧ (∀ core off room, s.resolve (c.sreg r.a).v = .spad core off room → answers (2 ^ 63 + 0x16))
      ∧ (∀ g, s.resolve (c.sreg r.a).v = .global g 0 → answers (2 ^ 63 + 0x16))
      ∧ (∀ g room, s.resolve (c.sreg r.a).v = .global g room → 0 < room →
        (lookup s.core.rtlb (partOfKey c.owner) s.ptime g = none →
          (s.core.missVa = some (g / 32) → answers (2 ^ 63 + 0x10))
          ∧ (s.core.missVa ≠ some (g / 32) → s.cur.go = false → exec (.rprobe r) s = .next (s.walkCycle g)))
        ∧ (∀ x, lookup s.core.rtlb (partOfKey c.owner) s.ptime g = some x →
          let e := x.entry
          let sub := (g - 256 * e.base) / e.sub
          (c.rinvs.any e.covers = true → s.cur.go = false → exec (.rprobe r) s = .next s.frozenCycle)
          ∧ (c.rinvs.any e.covers = false →
            (e.res.getLsbD sub = false → answers (2 ^ 63 + 2 ^ 24 * sub + 256 * e.index + 0x12))
            ∧ (e.res.getLsbD sub = true →
              answers (bit e.lock 56 + e.kind * 2 ^ 54 + bit e.x 53 + bit e.w 52 + bit e.r 51 + x.pa g % 2 ^ 51))))))

/-! ### Bundles without slots, and the no-operations (03 R42; 05 R96; 06 R136; 08 R161) -/

/-- Every no-operation leaves the whole state as it is; a bundle without slots uses one advancing cycle, then idles for its HOLD
cycles, and lands nothing (03 R42). -/
def Obligations.NoOperations : Prop :=
  ∀ s : State,
    (∀ i ∈ [Instr.snop, .vnop, .fnop, .mnop], exec i s = .next s)
    ∧ ∀ b : RawBundle, s.bundle = some b → s.ctx.marks = [] → s.ctx.advances = [] → s.ctx.brbNext = none →
      ∀ i ∈ [Instr.pureDelayBundle, .nullBundle], ∃ t, exec i s = .next t ∧ t.mem = s.mem
        ∧ t.ctx = { s.ctx with hold := b.hdr.toNat / 256 % 8, bend := true, adv := s.ctx.adv + 1, issued := s.ctx.issued + 1,
                               segStart := s.ctx.segStart.or (some (s.now / 4)) }
        ∧ t.core = { s.core with busy := max s.core.busy (s.now + 4) } ∧ (∀ k, k ≠ s.key → t.ctxAt k = s.ctxAt k)

/-! ### The matrix unit's own events (07) -/

/-- 07 R140, R142, R147, R149, R151, R152, R154 to R156, R159, R160; 04 R79, R83; 20 R341: the head of the queue starts, a gang MMA
together with its partners'; a block arrives whole, in the load queue's place of its MMA; it is added into the accumulator element by
element with the exact sum of its products, a skipped row raising no flag; a block that does not translate leaves a restart record and
gives up its place in the load queue; and what lands leaves its accumulator full unless a later operation of the context names it. -/
def Obligations.MatrixEvents : Prop :=
  ∀ (s : State) (e : MatEntry) (rest : List MatEntry), s.core.matq = e :: rest →
    let u : State := { s with cur := { core := s.cur.core, slot := e.slot } }
    let c := u.ctx
    let m := s.core.mat
    let key := u.key
    let others (t : State) : Prop := t.mem = s.mem ∧ ∀ k, k ≠ key → t.ctxAt k = s.ctxAt k
    let landed (t : State) (a : BitVec 2) : Prop := t.core.matq = rest ∧ t.core.mat = {} ∧ others t
      ∧ ((∃ x ∈ rest, x.slot = e.slot ∧ x.op.acc = a) → (t.ctxAt key).accEmpty = c.accEmpty)
      ∧ ((∀ x ∈ rest, x.slot = e.slot → x.op.acc ≠ a) → ∀ k : BitVec 2,
          (t.ctxAt key).accEmpty.getLsbD k.toNat = (if k = a then false else c.accEmpty.getLsbD k.toNat))
    let free := ∀ k, k < 4 → (s.ctxAt (ctxKey s.cur.core k)).restart = none
    let began (r : MmaRec) (t : State) (core : Nat) : Prop := (t.coreAt core).matq = (s.coreAt core).matq
      ∧ (t.coreAt core).mat = { started := true, blk := r.start, energy := r.energy } ∧ (t.coreAt core).mmiss = none
    let cleared (r : MmaRec) (t : State) (k : Nat) : Prop :=
      (r.w.z = false ∨ r.start ≠ 0 ∨ r.resumed = true → t.ctxAt k = s.ctxAt k)
      ∧ (r.w.z = true → r.start = 0 → r.resumed = false → ∀ row q, row < 64 → q < 4 → (t.ctxAt k).accQuarter r.w.acc.toNat row q = 0
        ∧ ∀ j, j < 16 → (t.ctxAt k).accPoisoned r.w.acc.toNat row j = false)
    (m.started = false → s.coreStands s.cur.core = false →
      (∀ r, e.op = .mma r → (r.w.gang = 0 ∧ free) ∨ r.resumed = true → ∃ t, exec .mmaExecuteStart s = .next t ∧ others t
        ∧ began r t s.cur.core ∧ cleared r t key)
      ∧ (∀ r, e.op = .mma r → r.w.gang ≠ 0 → r.resumed = false → free →
        ((∃ p ∈ u.partners r, u.gangHead p.1 p.2 r = false) → exec .mmaExecuteStart s = .next s)
        ∧ ((∀ p ∈ u.partners r, u.gangHead p.1 p.2 r = true) → ∃ t, exec .mmaExecuteStart s = .next t ∧ t.mem = s.mem
          ∧ began r t s.cur.core ∧ ∀ p ∈ u.partners r, ∀ x q xs, (s.coreAt p.1).matq = x :: xs → x.op = .mma q → began q t p.1))
      ∧ (free → ((∃ a, e.op = .mmz a) ∨ (∃ a b, e.op = .mmld a (some b)) ∨ ∃ a i q v p, e.op = .mmwr a i q v p) →
        ∃ t, exec .mmaExecuteStart s = .next t ∧ others t ∧ t.ctxAt key = c ∧ t.core.matq = s.core.matq ∧ t.core.mat = { started := true })
      ∧ (∀ a, e.op = .mmld a none → exec .mmaExecuteStart s = .next s)
      ∧ (∀ r k, e.op = .mma r → r.resumed = false → k < 4 → (s.ctxAt (ctxKey s.cur.core k)).restart.isSome = true →
        exec .mmaExecuteStart s = .next s))
    ∧ (m.started = false → s.coreStands s.cur.core = true → exec .mmaExecuteStart s = .next s)
    ∧ (m.started = true →
      (∀ a, e.op = .mmz a → ∃ t, exec .accumulatorLand s = .next t ∧ landed t a
        ∧ ∀ row q, row < 64 → q < 4 → (t.ctxAt key).accQuarter a.toNat row q = 0
          ∧ ∀ k, k < 16 → (t.ctxAt key).accPoisoned a.toNat row k = false)
      ∧ (∀ a row q v p, e.op = .mmwr a row q v p → row < 64 → q < 4 → ∃ t, exec .accumulatorLand s = .next t ∧ landed t a
        ∧ (t.ctxAt key).accQuarter a.toNat row q = v
        ∧ (∀ i j, i < 64 → j < 4 → (i, j) ≠ (row, q) → (t.ctxAt key).accQuarter a.toNat i j = c.accQuarter a.toNat i j)
        ∧ ∀ k, k < 4 → ((t.ctxAt key).accPoisoned a.toNat row (4 * q + k) = true ↔ ∃ l, l < 8 ∧ p.getLsbD (8 * k + l) = true))
      ∧ (∀ a b, e.op = .mmld a (some b) → ∃ t, exec .accumulatorLand s = .next t ∧ landed t a
        ∧ ∀ row q, row < 64 → q < 4 →
          (t.ctxAt key).accQuarter a.toNat row q = BitVec.ofNat 1024 (pnat ((b.drop (512 * row + 128 * q)).take 128))
          ∧ ∀ k, k < 4 → (t.ctxAt key).accPoisoned a.toNat row (4 * q + k) = pany ((b.drop (512 * row + 128 * q + 32 * k)).take 32))
      ∧ (∀ r, e.op = .mma r → r.w.kb.toNat ≤ m.blk → ∃ t, exec .accumulatorLand s = .next t ∧ landed t r.w.acc
        ∧ (t.ctxAt key).acc = c.acc ∧ (t.ctxAt key).accPois = c.accPois
        ∧ (t.ctxAt key).mflags = (if r.w.nf = true then c.mflags else c.mflags ||| m.flags)
        ∧ (t.ctxAt key).eunder = (if 64 * 2 ^ r.w.ec.toNat < m.energy ∧ c.eunder ≠ BitVec.allOnes 32 then c.eunder + 1 else c.eunder)
        ∧ (r.resumed = true → (t.ctxAt key).mprog = 0 ∧ (t.ctxAt key).restart = none)
        ∧ (r.resumed = false → (t.ctxAt key).mprog = c.mprog ∧ (t.ctxAt key).restart = c.restart))
      ∧ (∀ r, e.op = .mma r → m.blk < r.w.kb.toNat → exec .accumulatorLand s = .next s)
      ∧ (∀ r : MmaRec, e.op = .mma r →
        let b := m.blk + m.blocks.length
        let x := u.matTranslate e.seq ((r.addrs b).drop m.ops.length)
        let ops := x.1.core.mat.ops
        let given (p : Loc × Nat) : Option (List PByte) := x.1.core.mat.lineOf b p.1
        let lacks (p : Loc × Nat) : Bool := (given p).isNone
        let reads := (ops.flatMap (fun o => o.2)).filter lacks
        (r.w.kb.toNat ≤ b ∨ c.matTurn e.seq = false ∨ u.matHeld e.seq (r.addrs b) = true → exec .mmaBlockArrive s = .next s)
        ∧ (b < r.w.kb.toNat → c.matTurn e.seq = true → u.matHeld e.seq (r.addrs b) = false →
          ((∃ p ∈ u.mates r, p.2 < b) → exec .mmaBlockArrive s = .next s)
          ∧ ((∀ p ∈ u.mates r, b ≤ p.2) →
            (∀ v, x.2 = some (.walk v) → exec .mmaBlockArrive s = .next (x.1.matWalk v))
            ∧ (∀ f, x.2 = some (.trap f) → exec .mmaBlockArrive s = .next x.1)
            ∧ (x.2 = none → ∀ v, x.1.partsWait ((ops.flatMap (fun o => withVas (BitVec.ofNat 64 o.1) o.2)).filter lacks) = (false, v) →
              let w := (v.publishParts reads).shareFetch r b (reads.map (fun p => p.1.line)).eraseDups
              let data := ops.map (fun o => o.2.flatMap (fun p =>
                match w.core.mat.lineOf b p.1 with | some d => (d.drop (p.1.pa % 128)).take p.2 | none => w.rdLoc p.1 p.2))
              let mrows := if r.w.sp = true then 64 else 0
              ∃ t, exec .mmaBlockArrive s = .next t ∧ t.core.mat.ops = []
                ∧ t.core.mat.blocks = w.core.mat.blocks ++ [{ a := data.take 64, m := (data.drop 64).take mrows, b := data.drop (64 + mrows) }]
                ∧ (t.ctxAt key).ldq.map QEntry.id = (if b + 1 = r.w.kb.toNat then
                    (w.ctx.ldq.filter (fun q => q.id ≠ e.seq)).map QEntry.id else w.ctx.ldq.map QEntry.id)))))
      ∧ (∀ (r : MmaRec) x xs, e.op = .mma r → m.blocks = x :: xs →
        let cols := (List.range 128).map (r.colElems x)
        let skip (i : Nat) : Bool := skipped (r.rowElems x i) cols
        let step (i j : Nat) : Nat × Flags :=
          let old := ((c.accQuarter r.w.acc.toNat i (j / 32)).extractLsb' (32 * (j % 32)) 32).toNat
          let S := blockSum (r.rowElems x i) (r.colElems x j)
          let y := (f32.num old).add 0 S.1
          let z := f32.round { rm := 0 } y.1
          (z.1, S.2 ||| y.2 ||| z.2)
        ∃ t, exec .mmaBlockEnd s = .next t ∧ others t
        ∧ t.core.mat.blk = m.blk + 1 ∧ t.core.mat.blocks = xs ∧ t.core.matq = s.core.matq
        ∧ (∀ f : Nat, t.core.mat.flags.getLsbD f = true ↔ m.flags.getLsbD f = true
          ∨ ∃ i j, i < 64 ∧ j < 128 ∧ skip i = false ∧ (step i j).2.getLsbD f = true)
        ∧ t.core.mat.energy = m.energy + (blockBound r.w * ((List.range 64).filter (fun i => !skip i)).length + 63) / 64
        ∧ (t.ctxAt key).restart = (if r.resumed = true then c.restart.map (fun q => { q with energy := t.core.mat.energy }) else c.restart)
        ∧ ∀ i j, i < 64 → j < 128 →
          ((t.ctxAt key).accQuarter r.w.acc.toNat i (j / 32)).extractLsb' (32 * (j % 32)) 32 = BitVec.ofNat 32 (step i j).1
          ∧ (r.rowPois x i = true ∨ r.colPois x j = true → (t.ctxAt key).accPoisoned r.w.acc.toNat i (j / 8) = true)
          ∧ (c.accPoisoned r.w.acc.toNat i (j / 8) = false → r.rowPois x i = false → (∀ l, l < 8 → r.colPois x (8 * (j / 8) + l) = false) →
            (t.ctxAt key).accPoisoned r.w.acc.toNat i (j / 8) = false))
      ∧ (∀ (r : MmaRec) f, e.op = .mma r → m.blocks = [] → m.blk < r.w.kb.toNat →
        (u.matTranslate e.seq ((r.addrs m.blk).drop m.ops.length)).2 = some (.trap f) →
        ∃ t, exec .mmaFault s = .next t ∧ others t ∧ t.core.matq = rest ∧ t.core.mat = {} ∧ t.core.mmiss = none
          ∧ (t.ctxAt key).ldq = c.ldq.filter (fun q => q.id ≠ e.seq)
          ∧ (t.ctxAt key).mflags = (if r.w.nf = true then c.mflags else c.mflags ||| m.flags)
          ∧ (t.ctxAt key).acc = c.acc ∧ (t.ctxAt key).accEmpty = c.accEmpty
          ∧ (t.ctxAt key).mmaTrap = some { f with slot := some 7 }
          ∧ (t.ctxAt key).restart = some { r with start := m.blk, energy := m.energy, resumed := true }
          ∧ (t.ctxAt key).mprog = BitVec.ofNat 9 (256 + 64 * r.w.acc.toNat + m.blk)))
    -- the block sum of 04 R79
    ∧ (∀ (a b : List Machine.Num) (w : Int), a.length = b.length →
      let ps := (a.zip b).map (fun x => x.1.mul x.2)
      let y := blockSum a b
      (w ≤ 0 → (∀ x ∈ a ++ b, x.exactFrom w) → y.2 = 0 ∧ y.1.exactFrom (w + w)
        ∧ y.1.inUnits (w + w) = ((a.zip b).map (fun x => x.1.inUnits w * x.2.inUnits w)).sum)
      ∧ (∀ f : Nat, (∃ p ∈ ps, p.2.getLsbD f = true) → y.2.getLsbD f = true)
      ∧ ((∃ p ∈ ps, p.1 = .inf true) → (∃ p ∈ ps, p.1 = .inf false) → y.1 = .nan false ∧ y.2 &&& fNV = fNV)
      ∧ ((∃ p ∈ ps, p.1.isNan = true) → y.1 = .nan false)
      ∧ (∀ neg, (∃ p ∈ ps, p.1 = .inf neg) → (∀ p ∈ ps, p.1 ≠ .inf (!neg) ∧ p.1.isNan = false) → y.1 = .inf neg))

/-! ### Jet cores (17) -/

/-- 17 R313: each Xjet instruction in a run that its budget allows: it reads or writes the event line, prefetches, forwards, raises a
semaphore or reads the budget and goes on at pc + 4 with one instruction more retired, or it ends the run; what the run's kind
forbids ends it with reason 4, a bad offset with 3, poison with 2, the budget with 0 and the monitor's instructions with 1. The monitor's JLOGNEXT and JLOGADV read and advance a replica's position. -/
def Obligations.XjetInstructions : Prop :=
  ∀ (x : XJ) (s : State),
    let sl := s.cur.jet
    let y := s.sliceAt sl
    (∀ r : JetRun, y.run = some r → r.count < s.budgetOf r.item →
      let a := (r.reg x.s.toNat).toNat
      let retires (i : Instr) (u : State) (q : JetRun) : Prop :=
        exec i s = .next (u.modSlice sl (fun y => { y with run := some { q with pc := r.pc + 4, count := r.count + 1 } }))
      let forbidden (i : Instr) : Prop := exec i s = .next (s.killRun sl r 4 0)
      let handler := ∃ ev, r.kind = .handler ev
      (∀ ev p jet va req line pois msg pa, r.item = .event ev p jet va req line pois msg pa → ev = .fill ∨ ev = .evict → a < 256 → a % 8 = 0 →
        pois.getLsbD (a / 32) = false → retires (.jl2rd x) s (r.set x.d.toNat (line.extractLsb' (8 * a) 64)))
      ∧ (∀ p jet va req line pois msg pa (l : L2Line), r.item = .event .msg p jet va req line pois msg pa → a < 256 → a % 8 = 0 →
        sget? s.mem.l2 (pa / 256) = some l →
        (l.pois.getLsbD (a / 32) = false → retires (.jl2rd x) s (r.set x.d.toNat (l.data.extractLsb' (8 * a) 64)))
        ∧ (l.pois.getLsbD (a / 32) = true → exec (.jl2rd x) s = .next (s.killRun sl r 2 a))
        ∧ ∃ t, exec (.jl2wr x) s = .next t ∧ (t.sliceAt sl).run = some { r with pc := r.pc + 4, count := r.count + 1 }
          ∧ (s.parts.filterMap (fun p => p.2.movedTo .copy (pa / 256 * 256 + a / 32 * 32)) = [] →
            ∃ l', sget? t.mem.l2 (pa / 256) = some l' ∧ t.mem.bytes = s.mem.bytes
              ∧ (∀ b, b < 2048 → l'.data.getLsbD b = if 8 * a ≤ b ∧ b < 8 * a + 64 then (r.reg x.t.toNat).getLsbD (b - 8 * a) else l.data.getLsbD b)
              ∧ (∀ b, b < 8 → l'.pois.getLsbD b = if b = a / 32 then false else l.pois.getLsbD b)
              ∧ ∀ k, k ≠ pa / 256 → sget? t.mem.l2 k = sget? s.mem.l2 k))
      ∧ (∀ ev, r.kind = .handler ev → (256 ≤ a ∨ a % 8 ≠ 0) →
        (ev ≠ .miss → exec (.jl2rd x) s = .next (s.killRun sl r 3 a)) ∧ (ev = .msg → exec (.jl2wr x) s = .next (s.killRun sl r 3 a))
        ∧ (ev ≠ .msg → forbidden (.jl2wr x)))
      ∧ (handler → s.jetLine r.item.part a = none → retires (.jpf x) s r)
      ∧ (handler → ∀ en l, s.jetLine r.item.part a = some (en, l) →
        l.space = .host ∨ l.space = .remote ∨ sget? s.mem.l2 (l.pa / 256) ≠ none ∨ (∃ f ∈ s.mem.fills, f.line = l.pa / 256) → retires (.jpf x) s r)
      ∧ (handler → ∀ en l, s.jetLine r.item.part a = some (en, l) → l.space ≠ .host → l.space ≠ .remote →
        sget? s.mem.l2 (l.pa / 256) = none → (∀ f ∈ s.mem.fills, f.line ≠ l.pa / 256) →
        ∃ t f, exec (.jpf x) s = .next t ∧ t.mem = { s.mem with fills := s.mem.fills ++ [f] } ∧ f.line = l.pa / 256 ∧ f.jet = en.jet
          ∧ f.cmpr = en.cmpr
          ∧ (t.sliceAt sl).run = some { r with pc := r.pc + 4, count := r.count + 1 })
      ∧ (r.kind = .handler .fill ∨ r.kind = .handler .msg → (r.reg x.t.toNat).toNat < 1024 →
        let core := (r.reg x.t.toNat).toNat
        (s.jetLine r.item.part a = none →
          retires (.jfwd x) (s.modSlice sl (fun y => { y with jfwddrop := satInc y.jfwddrop })) r)
        ∧ (∀ en l, s.jetLine r.item.part a = some (en, l) → l.space ≠ .coh ∨ s.runsLaunch r.item.part core = false
            ∨ (s.coreAt core).l1gran = 0 ∨ s.copyOf (l.pa / 128) core ≠ none →
          retires (.jfwd x) (s.modSlice sl (fun y => { y with jfwddrop := satInc y.jfwddrop })) r)
        ∧ ∀ en l, s.jetLine r.item.part a = some (en, l) → l.space = .coh → s.runsLaunch r.item.part core = true →
          (s.coreAt core).l1gran ≠ 0 → s.copyOf (l.pa / 128) core = none →
          ∃ t m, exec (.jfwd x) s = .next t ∧ t.mem = { s.mem with msgs := s.mem.msgs ++ [m] } ∧ m.kind = .gets ∧ m.line = l.pa / 128
            ∧ m.core = core)
      ∧ (handler → a < 2 ^ 14 → s.runsLaunch r.item.part (a % 1024) = true → retires (.jmsg x) (s.addSem (a % 1024) (a / 1024) 1) r)
      ∧ (handler → 2 ^ 14 ≤ a ∨ s.runsLaunch r.item.part (a % 1024) = false → forbidden (.jmsg x))
      ∧ (r.kind = .handler .fill ∨ r.kind = .handler .msg → 1024 ≤ (r.reg x.t.toNat).toNat → forbidden (.jfwd x))
      ∧ (handler → exec (.jdone x) s = .next (s.modSlice sl Slice.endRun))
      ∧ (∀ p obj m tail args k d slot, r.item = .read p obj m tail args k d slot → k ≠ deadKey →
        ∃ t w, exec (.jdone x) s = .next t ∧ (t.sliceAt sl).run = none ∧ (t.ctxAt k).arrived = (s.ctxAt k).arrived ++ [w] ∧ w.dest = .s d
          ∧ w.val = (BitVec.ofNat 64 (obj * 2 ^ 48 + a % 2 ^ 48)).setWidth 1024)
      ∧ retires (.jbudget x) s (r.set x.d.toNat (BitVec.ofNat 64 (s.budgetOf r.item - (r.count + 1))))
      ∧ (∀ p obj m tail args k d slot, r.item = .read p obj m tail args k d slot → k ≠ deadKey → a % 65536 ≤ 0xFFEF →
        ∃ t w, exec (.jundo x) s = .next t ∧ (t.sliceAt sl).run = none ∧ (t.ctxAt k).arrived = (s.ctxAt k).arrived ++ [w]
          ∧ w.val = (BitVec.ofNat 64 (2 * 2 ^ 56 + obj * 2 ^ 48 + a % 65536)).setWidth 1024)
      ∧ (∀ p obj, r.item = .replay p obj →
        let die := sl / 12
        let pos := (s.objAt p obj).appliedAt die
        ∃ t, exec (.jdone x) s = .next t ∧ (t.sliceAt sl).run = none ∧ t.mem = s.mem ∧ (t.objAt p obj).appliedAt die = pos + 1
          ∧ sget? (t.objAt p obj).results (die * 4096 + pos % 4096) = some (BitVec.ofNat 64 (obj * 2 ^ 48 + a % 2 ^ 48)))
      ∧ (∀ p obj, r.item = .replay p obj → 0xFFEF < a % 65536 → forbidden (.jundo x))
      ∧ exec (.jlognext x) s = .next (s.killRun sl r 1 0) ∧ exec (.jlogadv x) s = .next (s.killRun sl r 1 0)
      ∧ (∀ p obj, r.item = .replay p obj → r.undo = [] → a % 65536 ≤ 0xFFEF →
        let die := sl / 12
        let pos := (s.objAt p obj).appliedAt die
        ∃ t, exec (.jundo x) s = .next t ∧ (t.sliceAt sl).run = none ∧ t.mem = s.mem ∧ (t.objAt p obj).appliedAt die = pos + 1
          ∧ sget? (t.objAt p obj).results (die * 4096 + pos % 4096) = some (BitVec.ofNat 64 (2 * 2 ^ 56 + obj * 2 ^ 48 + a % 65536)))
      ∧ ((∃ b, r.kind = .method b) → forbidden (.jl2rd x) ∧ forbidden (.jl2wr x) ∧ forbidden (.jpf x) ∧ forbidden (.jfwd x) ∧ forbidden (.jmsg x))
      ∧ (handler → forbidden (.jundo x)) ∧ (r.kind = .handler .miss → forbidden (.jl2rd x) ∧ forbidden (.jfwd x)))
    ∧ (∀ r : JetRun, y.run = some r → s.budgetOf r.item ≤ r.count →
      (∀ i ∈ [Instr.jbudget x, .jdone x], exec i s = .next (s.killRun sl r 0 0))
      ∧ exec (.jlognext x) s = .next (s.killRun sl r 1 0) ∧ exec (.jlogadv x) s = .next (s.killRun sl r 1 0))
    ∧ (y.run = none →
      let part := s.monitorPart sl
      let obj := (y.mreg x.s.toNat).toNat % 256
      let o := s.objAt part obj
      let pos := o.appliedAt (sl / 12)
      (pos = o.tail → exec (.jlognext x) s = .next (s.modSlice sl (fun y => y.setMreg x.d.toNat (BitVec.allOnes 64))))
      ∧ (pos ≠ o.tail → x.d ≠ 0 → ∃ t, exec (.jlognext x) s = .next t ∧ (t.sliceAt sl).mreg x.d.toNat = BitVec.ofNat 64 pos
        ∧ mgets t.mem.bytes (jetAddr sl ((y.mreg x.t.toNat).toNat % 65536)) 64 = leBytes (sget 0 o.records (pos % 4096)).toNat 64)
      ∧ ((y.mreg x.t.toNat).toNat = pos → ∃ t, exec (.jlogadv x) s = .next t ∧ (t.objAt part obj).appliedAt (sl / 12) = pos + 1
        ∧ t.mem = s.mem ∧ t.slices = s.slices)
      ∧ ((y.mreg x.t.toNat).toNat ≠ pos → exec (.jlogadv x) s = .next (s.modSlice sl (fun y => { y with mhalt := true }))))

/-- 17 R306, R308 to R311, R316: a raised event enters the FIFO of its jet core in the order of basin cycle, messages first, and core,
or is dropped and counted; the entry at the head starts a run with its arguments in a0 to a4 and a message in its window; each step
of a run is the instruction at its pc; an instruction beyond the budget, or one that is illegal, misaligned or not allowed, ends the
run and is counted and recorded; a method that ends has been applied. -/
def Obligations.JetEvents : Prop :=
  ∀ (s : State) (sl : Nat),
    let x := s.sliceAt sl
    -- y has come after i: in a later basin cycle, or in the same one behind it
    let later (i y : Nat × JetItem) : Prop := i.1 < y.1 ∨ i.1 = y.1 ∧ i.2.rank < y.2.rank
    let entered (t : State) (i : Nat × JetItem) : Prop := ∃ a b, x.fifo = a ++ b ∧ (t.sliceAt sl).fifo = a ++ i :: b
      ∧ (∀ y ∈ a, ¬ later i y) ∧ ∀ y ∈ b.head?, later i y
    (∀ ev p jet va req line pois msg pa, JetItem.rank (.event ev p jet va req line pois msg pa) = if ev = .msg then req else 2048 + req)
    ∧ (∀ ev pa req n i, x.raisedAt ev pa req = some n → x.raised[n]? = some i →
      let first := ∃ m j, m ≠ n ∧ x.raised[m]? = some j ∧ (later j i ∨ (j.1 = i.1 ∧ j.2.rank = i.2.rank ∧ m < n))
      (first → exec (.jetEvent sl ev pa req) s = .next s)
      ∧ (¬ first → ∃ t, exec (.jetEvent sl ev pa req) s = .next t ∧ (t.sliceAt sl).raised = x.raised.eraseIdx n ∧ t.mem = s.mem
        ∧ t.now = max s.now (6 * i.1 + 6)
        ∧ (x.fifo.length < 32 → entered t i ∧ (t.sliceAt sl).jevdrop = x.jevdrop)
        ∧ (32 ≤ x.fifo.length → (t.sliceAt sl).fifo = x.fifo
          ∧ (t.sliceAt sl).jevdrop = if x.jevdrop = 0xFFFFFFFF then x.jevdrop else x.jevdrop + 1)))
    ∧ (∀ bcy ev p jet va req line pois msg pa rest h, x.run = none → x.mhalt = false →
      x.fifo = (bcy, .event ev p jet va req line pois msg pa) :: rest → s.jetHandler p jet = some h →
      ∃ t r, exec (.jetRunStart sl) s = .next t ∧ (t.sliceAt sl).fifo = rest ∧ (t.sliceAt sl).run = some r ∧ (t.sliceAt sl).mode = false
        ∧ r.count = 0 ∧ r.pc = (match ev with | .miss => h.misspc | .fill => h.fillpc | .evict => h.evictpc | .msg => h.msgpc)
        ∧ r.reg 10 = (match ev with | .miss => 0 | .fill => 1 | .evict => 2 | .msg => 3) ∧ r.reg 11 = BitVec.ofNat 64 va
        ∧ r.reg 12 = BitVec.ofNat 64 req ∧ r.reg 14 = BitVec.ofNat 64 jet ∧ (ev ≠ .msg → r.reg 13 = 0 ∧ t.mem = s.mem)
        ∧ (ev = .msg → 64 ≤ h.winsize → ∃ k, k < h.winsize / 64 ∧ r.reg 13 = BitVec.ofNat 64 (15 * 2 ^ 48 + 64 * k)
          ∧ t.mem = { s.mem with bytes := msets s.mem.bytes (jetAddr sl (h.winbase + 64 * k)) (leBytes msg.toNat 64) })
        ∧ ∀ i, i < 10 ∨ 15 ≤ i → r.reg i = 0)
    ∧ (∀ r w, x.run = some r → s.jetFetch sl r = some (4, w) → w % 128 ≠ 11 →
      let op := rvDecode w r.reg (BitVec.ofNat 64 r.pc + Config.jetPcBase)
      (∀ rd v, op = .put rd v → r.count < s.budgetOf r.item →
        exec (.jetCoreInstruction sl) s = .next (s.modSlice sl (fun y =>
          { y with run := some { r.set rd v with pc := r.pc + 4, count := r.count + 1 } })))
      ∧ (∀ rd n g a off, op = .load rd n g a → a.toNat % n = 0 → r.count < s.budgetOf r.item → s.jetPlace sl r .load a.toNat = .sram off →
        exec (.jetCoreInstruction sl) s = .next (s.modSlice sl (fun y =>
          { y with run := some { r.set rd (loaded n g (s.sram sl off n)) with pc := r.pc + 4, count := r.count + 1 } })))
      ∧ (∀ n a v off, op = .store n a v → a.toNat % n = 0 → r.count < s.budgetOf r.item → s.jetPlace sl r .store a.toNat = .sram off →
        ∃ t, exec (.jetCoreInstruction sl) s = .next t ∧ t.mem = { s.mem with bytes := msets s.mem.bytes (jetAddr sl off) (leBytes v.toNat n) }
          ∧ (t.sliceAt sl).run = some { r with pc := r.pc + 4, count := r.count + 1 })
      ∧ (∀ rd n g a l va, op = .load rd n g a → a.toNat % n = 0 → r.count < s.budgetOf r.item → s.jetPlace sl r .load a.toNat = .global l va →
        ((s.jetReady r l va).1 = true →
          exec (.jetCoreInstruction sl) s = .next ((s.jetReady r l va).2.modSlice sl (fun y =>
            { y with run := some { r.set rd (loaded n g (pnat ((s.jetReady r l va).2.rdLoc l n))) with pc := r.pc + 4, count := r.count + 1 } })))
        ∧ ((s.jetReady r l va).1 = false → exec (.jetCoreInstruction sl) s = .next (s.jetReady r l va).2))
      ∧ (∀ n a v l va, op = .store n a v → a.toNat % n = 0 → s.jetPlace sl r .store a.toNat = .global l va →
        (r.kind.mayStore = false → exec (.jetCoreInstruction sl) s = .next (s.killRun sl r 4 a.toNat))
        ∧ (r.kind.mayStore = true → r.count < s.budgetOf r.item → (s.jetReady r l va).1 = true →
          exec (.jetCoreInstruction sl) s = .next (((s.jetReady r l va).2.wrLoc l (clean (leBytes v.toNat n))).modSlice sl (fun y =>
            { y with run := some { r with pc := r.pc + 4, count := r.count + 1 } }))))
      ∧ (∀ n a, ((∃ rd g, op = .load rd n g a ∧ s.jetPlace sl r .load a.toNat = .fault) ∨ ∃ v, op = .store n a v ∧ s.jetPlace sl r .store a.toNat = .fault) →
        a.toNat % n = 0 → exec (.jetCoreInstruction sl) s = .next (s.killRun sl r 2 a.toNat))
      ∧ (∀ n a off, ((∃ rd g, op = .load rd n g a ∧ s.jetPlace sl r .load a.toNat = .sram off) ∨ ∃ v, op = .store n a v ∧ s.jetPlace sl r .store a.toNat = .sram off) →
        a.toNat % n ≠ 0 → exec (.jetCoreInstruction sl) s = .next (s.killRun sl r 3 a.toNat))
      ∧ (∀ rd tgt, op = .jump rd tgt → r.count < s.budgetOf r.item →
        let q : JetRun := { r.set rd (BitVec.ofNat 64 (r.pc + 4) + Config.jetPcBase) with pc := (tgt - Config.jetPcBase).toNat, count := r.count + 1 }
        exec (.jetCoreInstruction sl) s = .next (s.modSlice sl (fun y => { y with run := some q })))
      ∧ (op = .nop → r.count < s.budgetOf r.item →
        exec (.jetCoreInstruction sl) s = .next (s.modSlice sl (fun y => { y with run := some { r with pc := r.pc + 4, count := r.count + 1 } })))
      ∧ (∀ rd n a off, op = .lr rd n a → a.toNat % n = 0 → r.count < s.budgetOf r.item → s.jetPlace sl r .load a.toNat = .sram off →
        let old := s.sram sl off n
        let q : JetRun := { r.set rd (loaded n true old) with pc := r.pc + 4, count := r.count + 1, resv := some (a.toNat, BitVec.ofNat 64 old) }
        exec (.jetCoreInstruction sl) s = .next (s.modSlice sl (fun y => { y with run := some q })))
      ∧ (∀ rd n a v off, op = .sc rd n a v → a.toNat % n = 0 → r.count < s.budgetOf r.item → s.jetPlace sl r .store a.toNat = .sram off →
        let q : JetRun := { r.set rd 1 with pc := r.pc + 4, count := r.count + 1, resv := none }
        ((∃ w, r.resv = some (a.toNat, w)) → ∃ t, exec (.jetCoreInstruction sl) s = .next t
          ∧ t.mem = { s.mem with bytes := msets s.mem.bytes (jetAddr sl off) (leBytes v.toNat n) }
          ∧ (t.sliceAt sl).run = some { r.set rd 0 with pc := r.pc + 4, count := r.count + 1, resv := none })
        ∧ ((∀ w, r.resv ≠ some (a.toNat, w)) → exec (.jetCoreInstruction sl) s = .next (s.modSlice sl (fun y => { y with run := some q }))))
      ∧ (∀ f5 rd n a v off new, op = .amo f5 rd n a v → a.toNat % n = 0 → r.count < s.budgetOf r.item → s.jetPlace sl r .atomic a.toNat = .sram off →
        amoNew f5 n (s.sram sl off n) (v.toNat % 2 ^ (8 * n)) = some new → ∃ t, exec (.jetCoreInstruction sl) s = .next t
          ∧ t.mem = { s.mem with bytes := msets s.mem.bytes (jetAddr sl off) (leBytes new n) }
          ∧ (t.sliceAt sl).run = some { r.set rd (loaded n true (s.sram sl off n)) with pc := r.pc + 4, count := r.count + 1 })
      ∧ (∀ reason, (op = .illegal ∧ reason = 1) ∨ ((∃ rd v, op = .put rd v) ∧ s.budgetOf r.item ≤ r.count ∧ reason = 0) →
        exec (.jetRunKill sl reason) s = .next (s.killRun sl r reason 0)
        ∧ exec (.jetCoreInstruction sl) s = .next (s.killRun sl r reason 0)))
    ∧ (∀ r ev p jet va req line pois msg pa reason addr, r.item = .event ev p jet va req line pois msg pa →
      ((s.killRun sl r reason addr).sliceAt sl).run = none ∧ ((s.killRun sl r reason addr).sliceAt sl).mode = true
      ∧ ((s.killRun sl r reason addr).sliceAt sl).jkill = (if x.jkill = 0xFFFFFFFF then x.jkill else x.jkill + 1))
    ∧ (∀ r p obj low t, x.run = some r → r.item = .replay p obj → r.count < s.budgetOf r.item → s.jetNext sl r = .done t low → t = s →
      let pos := (s.objAt p obj).appliedAt (sl / 12)
      ∃ u, exec (.replayApply sl) s = .next u ∧ (u.sliceAt sl).run = none ∧ (u.objAt p obj).appliedAt (sl / 12) = pos + 1 ∧ u.mem = s.mem
        ∧ sget? (u.objAt p obj).results (sl / 12 * 4096 + pos % 4096) = some (BitVec.ofNat 64 (obj * 2 ^ 48 + low % 2 ^ 48)))
    ∧ (∀ k id rest e va m l n ps, x.msgs = (k, id) :: rest → (s.ctxAt k).stq.find? (fun e => e.id = id) = some e → e.op = .jetmsg va m →
      e.locs = (l, n) :: ps →
      let u := s.asCtx k
      (x.fifo.length < 32 → s.lineBusy (2 * (l.pa / 256)) = false → s.lineBusy (2 * (l.pa / 256) + 1) = false → s.inL2 l.pa = true →
        ∃ t i, exec (.jetmsgArrival sl) s = .next t ∧ (t.sliceAt sl).msgs = rest ∧ entered t (s.now / 6, i)
          ∧ (t.ctxAt k).stq = (s.ctxAt k).stq.filter (fun e => e.id ≠ id)
          ∧ ∃ jet, i = .event .msg (partOfKey u.ctx.owner) jet (u.canon va / 256 * 256) (k / 8 % 8192) 0 0
              (BitVec.ofNat 512 (pnat (u.rdPieces [(m, 32), (m.plus 32, 32)]))) l.pa)
      ∧ (32 ≤ x.fifo.length ∨ s.lineBusy (2 * (l.pa / 256)) = true ∨ s.lineBusy (2 * (l.pa / 256) + 1) = true →
        exec (.jetmsgArrival sl) s = .next u))

/-! ### Coherence (11) -/

/-- 10 R217; 11 R222 to R230, R232; 14 R254: what each message does at the home and at the cores, in the cases named, while its line is
free, what a request that finds its set full, a home operation and a fill do, that a dirty NC line that leaves its L1 is written to the
home, and that a message from before a reset is dropped, a response among them counted. Which way a fill takes where several may is a
free choice (log 53). -/
def Obligations.CoherenceEvents : Prop :=
  ∀ (s : State) (i : Nat) (x : Msg),
    let line := x.line
    let rest := s.mem.msgs.eraseIdx i
    let dir (t : State) : Option DirEntry := sget? t.mem.dir line
    let l1 (t : State) (c : Nat) : Option L1Line := sget? (t.coreAt c).l1 (2 * line)
    let copy (c : Nat) : Option L1Line := s.copyOf line c
    let home := s.mem.homeRd (128 * line) 128
    let sends (t : State) (l : List (MsgKind × Nat)) : Prop := ∃ ms : List Msg, t.mem.msgs = rest ++ ms ∧ ms.map (fun m => (m.kind, m.core)) = l
      ∧ ∀ m ∈ ms, m.line = line
    let is (k : MsgKind) : Prop := s.mem.msgs[i]? = some x ∧ x.kind = k ∧ s.stale x = false
    let held : Prop := (sget? s.mem.l2 (line / 2)).isSome = true
    -- no compaction copies the line, so that what is written to it is written once
    let once (pa : Nat) : Prop := s.parts.filterMap (fun p => p.2.movedTo .copy pa) = []
    let asks (t : State) (ln : Nat) : Prop := t.mem.l2 = s.mem.l2 ∧ t.mem.msgs = s.mem.msgs ∧ t.mem.dir = s.mem.dir ∧ ∃ f ∈ t.mem.fills, f.line = ln
    -- requests that find no entry, or one that lets the home's data go out: E to a lone reader and M to a writer
    (held → s.lineBusy line = false →
      (is .gets → dir s = none → (s.setOf line).length < 16 → ∃ t y, exec (.gets i) s = .next t ∧ sends t []
        ∧ dir t = some { st := .e, owner := x.core, age := s.mem.age } ∧ t.mem.age = s.mem.age + 1 ∧ l1 t x.core = some y ∧ y.st = .exclusive
        ∧ y.data = BitVec.ofNat 1024 (pnat home) ∧ t.mem.bytes = s.mem.bytes ∧ t.mem.l2 = s.mem.l2)
      ∧ (is .getm → dir s = none → (s.setOf line).length < 16 → ∃ t y, exec (.getm i) s = .next t ∧ sends t []
        ∧ dir t = some { st := .m, owner := x.core, age := s.mem.age } ∧ t.mem.age = s.mem.age + 1 ∧ l1 t x.core = some y ∧ y.st = .modified
        ∧ y.data = BitVec.ofNat 1024 (pnat home))
      ∧ (∀ e, is .gets → dir s = some e → e.st = .s → e.sharers ≠ [] → e.sharers.length < 3 → x.core ∉ e.sharers →
        ∃ t y, exec (.gets i) s = .next t ∧ sends t [] ∧ dir t = some { e with sharers := e.sharers ++ [x.core], busy := none }
          ∧ l1 t x.core = some y ∧ y.st = .shared)
      ∧ (∀ e, is .gets → dir s = some e → e.st = .s → e.sharers.length = 3 → x.core ∉ e.sharers →
        ∃ t d, exec (.gets i) s = .next t ∧ dir t = some d ∧ d.st = .sw
          ∧ ∀ k, k < 72 → (d.mask.getLsbD k = true ↔ ∃ c ∈ e.sharers ++ [x.core], c % 8192 / 8 = k)))
    ∧ (∀ e l, is .getm → s.lineBusy line = false → dir s = some e → e.st = .s → x.core ∈ e.sharers → (∀ o ∈ e.sharers, o = x.core) →
      l1 s x.core = some l → ∃ t, exec (.getm i) s = .next t ∧ sends t [] ∧ dir t = some { st := .m, owner := x.core, age := e.age }
        ∧ l1 t x.core = some { l with st := .modified })
    -- a line that L2 lacks is filled first, and is busy until then
    ∧ (¬ held → s.lineBusy line = false → dir s = none → (s.setOf line).length < 16 →
      (is .gets → ∃ t, exec (.gets i) s = .next t ∧ sends t [] ∧ dir t = some { st := .s, age := s.mem.age, busy := some (.fill x.core false) }
        ∧ ∃ f ∈ t.mem.fills, f.line = line / 2)
      ∧ (is .getm → ∃ t, exec (.getm i) s = .next t ∧ sends t [] ∧ dir t = some { st := .s, age := s.mem.age, busy := some (.fill x.core true) }
        ∧ ∃ f ∈ t.mem.fills, f.line = line / 2))
    -- requests that must take the line from others first
    ∧ (s.lineBusy line = false → ∀ e, dir s = some e →
      let others := (if e.st = .sw then (List.range 576).filter (fun c => e.mask.getLsbD (c / 8)) else e.sharers).filter (fun o => o ≠ x.core)
      (is .gets → e.st = .e ∨ e.st = .m → e.owner ≠ x.core → ∃ t, exec (.gets i) s = .next t ∧ sends t [(.fwdGets, e.owner)]
        ∧ dir t = some { e with busy := some (.fwdGets x.core) })
      ∧ (is .getm → e.st = .e ∨ e.st = .m → e.owner ≠ x.core → ∃ t, exec (.getm i) s = .next t ∧ sends t [(.fwdGetm, e.owner)]
        ∧ dir t = some { e with busy := some (.fwdGetm x.core) })
      ∧ (is .getm → e.st = .s ∨ e.st = .sw → others ≠ [] → ∃ t, exec (.getm i) s = .next t
        ∧ sends t (others.map (fun c => (.inv, c))) ∧ dir t = some { e with busy := some (.getm x.core others.length x.req) }))
    -- a request that finds its set full: the oldest entry that is not busy is recalled for it, and where all are busy it waits
    ∧ (s.lineBusy line = false → dir s = none → 16 ≤ (s.setOf line).length → ∀ q, (q = Instr.gets i ∧ is .gets) ∨ (q = Instr.getm i ∧ is .getm) →
      ((∀ y ∈ s.setOf line, y.2.busy.isSome = true) → exec q s = .next s)
      ∧ ∀ l e, (l, e) ∈ s.setOf line → e.busy = none → (∀ y ∈ s.setOf line, y.2.busy = none → y = (l, e) ∨ e.age < y.2.age) → e.holders ≠ [] →
        ∃ t ms, exec q s = .next t ∧ t.mem.msgs = rest ++ ms
          ∧ ms.map (fun m => (m.kind, m.core, m.line)) = e.holders.map (fun c => (if e.st = .e ∨ e.st = .m then .fwdRecall else .inv, c, l))
          ∧ sget? t.mem.dir l = some { e with busy := some (.recall e.holders.length x) })
    -- PUTs
    ∧ (s.lineBusy line = false →
      (∀ e, dir s = some e → e.st = .e ∨ e.st = .m → e.owner = x.core →
        (is .pute → ∃ t, exec (.pute i) s = .next t ∧ sends t [(.putAck, x.core)] ∧ dir t = none ∧ t.mem.l2 = s.mem.l2 ∧ t.mem.bytes = s.mem.bytes)
        ∧ (is .putm → held → once (128 * line) → ∃ t, exec (.putm i) s = .next t ∧ sends t [(.putAck, x.core)] ∧ dir t = none
          ∧ t.mem.bytes = s.mem.bytes ∧ t.mem.homeRd (128 * line) 128 = rdLine x.data x.pois 0 128)
        ∧ (is .putm → ¬ held → ∃ t, exec (.putm i) s = .next t ∧ asks t (line / 2)))
      ∧ ((∀ e, dir s = some e → e.owner ≠ x.core ∨ e.st = .s ∨ e.st = .sw) →
        (is .pute → ∃ t, exec (.pute i) s = .next t ∧ sends t [(.putAck, x.core)] ∧ t.mem.dir = s.mem.dir ∧ t.mem.l2 = s.mem.l2)
        ∧ (is .putm → ∃ t, exec (.putm i) s = .next t ∧ sends t [(.putAck, x.core)] ∧ t.mem.dir = s.mem.dir ∧ t.mem.l2 = s.mem.l2
          ∧ t.mem.bytes = s.mem.bytes)))
    -- forwards, invalidations and recalls at the cores
    ∧ (∀ e l c, dir s = some e → copy x.core = some l → c ≠ x.core →
      (is .fwdGets → e.busy = some (.fwdGets c) → (l.st = .modified → held ∧ once (128 * line)) → ∃ t, exec (.fwdGets i) s = .next t ∧ sends t []
        ∧ dir t = some { st := .s, sharers := [x.core, c], age := e.age }
        ∧ l1 t c = some { l with st := .shared } ∧ l1 t x.core = (l1 s x.core).map (fun _ => { l with st := .shared })
        ∧ (l.st = .modified → t.mem.homeRd (128 * line) 128 = rdLine l.data l.pois 0 128) ∧ (l.st ≠ .modified → t.mem.l2 = s.mem.l2))
      ∧ (is .fwdGetm → e.busy = some (.fwdGetm c) → ∃ t, exec (.fwdGetm i) s = .next t ∧ sends t []
        ∧ dir t = some { st := .m, owner := c, age := e.age } ∧ l1 t c = some { l with st := .modified } ∧ l1 t x.core = none)
      ∧ (l.st = .modified → ¬ held → (is .fwdGets → ∃ t, exec (.fwdGets i) s = .next t ∧ asks t (line / 2))
        ∧ (is .fwdRecall → ∃ t, exec (.fwdRecall i) s = .next t ∧ asks t (line / 2))))
    ∧ (is .inv → ∃ t, exec (.inv i) s = .next t ∧ sends t [(.ack, x.core)] ∧ l1 t x.core = none ∧ t.mem.dir = s.mem.dir
      ∧ t.mem.bytes = s.mem.bytes ∧ t.mem.l2 = s.mem.l2)
    ∧ (is .fwdRecall → held → once (128 * line) → ∃ t, exec (.fwdRecall i) s = .next t ∧ sends t [(.ack, x.core)]
      ∧ l1 t x.core = none
      ∧ (∀ l, copy x.core = some l → l.st = .modified → t.mem.homeRd (128 * line) 128 = rdLine l.data l.pois 0 128)
      ∧ (∀ l, copy x.core = some l → l.st ≠ .modified → t.mem.l2 = s.mem.l2))
    -- acknowledgements
    ∧ (∀ e, is .ack → dir s = some e →
      (∀ w, e.busy = some (.recall 1 w) → ∃ t, exec (.acknowledgement i) s = .next t ∧ sends t [] ∧ (w.line ≠ line → dir t = none)
        ∧ (let v := (s.sliceAt (homeSlice (128 * line))).sfovf
          (t.sliceAt (homeSlice (128 * line))).sfovf = if v = 0xFFFFFFFF then v else v + 1)
        ∧ (s.stale w = true → dir t = none)
        ∧ (s.stale w = false → (sget? s.mem.l2 (w.line / 2)).isSome = true → ∃ y, sget? (t.coreAt w.core).l1 (2 * w.line) = some y
          ∧ (w.kind = .getm → sget? t.mem.dir w.line = some { st := .m, owner := w.core, age := s.mem.age } ∧ y.st = .modified)
          ∧ (w.kind = .gets → sget? t.mem.dir w.line = some { st := .e, owner := w.core, age := s.mem.age } ∧ y.st = .exclusive)))
      ∧ (∀ n w, 2 ≤ n → e.busy = some (.recall n w) → ∃ t, exec (.acknowledgement i) s = .next t ∧ sends t []
        ∧ dir t = some { e with busy := some (.recall (n - 1) w) })
      ∧ (∀ n c r, 2 ≤ n → e.busy = some (.getm c n r) → ∃ t, exec (.acknowledgement i) s = .next t ∧ sends t []
        ∧ dir t = some { e with busy := some (.getm c (n - 1) r) })
      ∧ (∀ c r, e.busy = some (.getm c 1 r) → held → ∃ t y, exec (.acknowledgement i) s = .next t
        ∧ sends t [] ∧ dir t = some { st := .m, owner := c, age := e.age } ∧ l1 t c = some y ∧ y.st = .modified))
    ∧ (is .putAck → ∃ t, exec (.acknowledgement i) s = .next t ∧ sends t [] ∧ sget? (t.coreAt x.core).wb line = none ∧ t.mem.dir = s.mem.dir)
    -- messages from before a reset
    ∧ (s.mem.msgs[i]? = some x →
      (x.kind = .ack → x.hinc ≠ (s.dieAt (homeDie line)).incarnation →
        let n := (s.basinAt (homeDie line - 4)).staleRsp
        ∃ t, exec (.acknowledgement i) s = .next t ∧ sends t [] ∧ t.mem.dir = s.mem.dir
          ∧ (t.basinAt (homeDie line - 4)).staleRsp = if n = 0xFFFFFFFF then n else n + 1)
      ∧ (x.kind = .putAck → x.inc ≠ (s.dieAt (dieOf x.core)).incarnation → dieOf x.core < 4 →
        let n := (s.dieAt (dieOf x.core)).staleRsp
        ∃ t, exec (.acknowledgement i) s = .next t ∧ sends t [] ∧ t.mem.dir = s.mem.dir ∧ t.cores = s.cores
          ∧ (t.dieAt (dieOf x.core)).staleRsp = if n = 0xFFFFFFFF then n else n + 1)
      ∧ (s.stale x = true → ∀ q ∈ [(MsgKind.gets, Instr.gets i), (.getm, .getm i), (.pute, .pute i), (.putm, .putm i), (.fwdGets, .fwdGets i),
          (.fwdGetm, .fwdGetm i), (.inv, .inv i), (.fwdRecall, .fwdRecall i)], x.kind = q.1 →
        exec q.2 s = .next { s with mem := { s.mem with msgs := rest } }))
    -- home operations: an MS access and a far atomic take the line from every core and perform on what L2 holds
    ∧ (∀ (o : HomeOp) (e : QEntry) pa n,
      let l : Loc := { space := .ms, pa }
      let c := s.ctxAt o.ctx
      let w := (s.asCtx o.ctx).countedRecall (pa / 128)
      let got := w.mem.homeRd pa n
      let slice := homeSlice (pa / 128 * 128)
      e.locs = [(l, n)] → s.redirect l = l → (sget? s.mem.l2 (pa / 256)).isSome = true → s.lineBusy (pa / 128) = false → once pa →
      sget? w.mem.dir (pa / 128) = none
      ∧ (let v := (s.sliceAt slice).recalls
        (w.sliceAt slice).recalls = if (sget? s.mem.dir (pa / 128)).isNone ∨ v = 0xFFFFFFFF then v else v + 1)
      ∧ (s.homeOp i false = some (o, e) → e.done = 0 → e.got = [] →
        (∀ data pois, e.op = .store data n pois false → ∃ t, exec (.msAccess i) s = .next t ∧ t.mem.homeops = s.mem.homeops.eraseIdx i
          ∧ t.mem.bytes = w.mem.bytes ∧ t.mem.l2 = (w.mem.homeWr pa (e.partData 0)).l2 ∧ sget? t.mem.dir (pa / 128) = none
          ∧ (t.sliceAt slice).recalls = (w.sliceAt slice).recalls ∧ (t.ctxAt o.ctx).stq = c.stq.filter (fun q => q.id ≠ e.id))
        ∧ (∀ d sg, e.op = .load d n sg false → ∃ t y, exec (.msAccess i) s = .next t ∧ t.mem.homeops = s.mem.homeops.eraseIdx i
          ∧ t.mem.l2 = w.mem.l2 ∧ t.mem.bytes = w.mem.bytes ∧ sget? t.mem.dir (pa / 128) = none
          ∧ (t.sliceAt slice).recalls = (w.sliceAt slice).recalls ∧ (t.ctxAt o.ctx).arrived = c.arrived ++ [y] ∧ y.dest = .s d
          ∧ (n = 8 → y.val = (BitVec.ofNat 64 (pnat got)).setWidth 1024)))
      ∧ (s.homeOp i true = some (o, e) → ∀ op d wide xv cv, e.op = .atom op d wide true xv cv → n = (if wide then 8 else 4) →
        let bits := 8 * n
        ∃ t y, exec (.farAtomicExecute i) s = .next t ∧ t.mem.homeops = s.mem.homeops.eraseIdx i ∧ t.mem.bytes = w.mem.bytes
          ∧ t.mem.l2 = (w.mem.homeWr pa (pbytes (atomNew op bits (pnat got) (xv.toNat % 2 ^ bits) (cv.toNat % 2 ^ bits)).1 n (pany got))).l2
          ∧ sget? t.mem.dir (pa / 128) = none ∧ (t.sliceAt slice).recalls = (w.sliceAt slice).recalls
          ∧ (t.ctxAt o.ctx).arrived = c.arrived ++ [y] ∧ y.dest = .s d ∧ y.val = (BitVec.ofNat 64 (pnat got)).setWidth 1024
          ∧ (t.ctxAt o.ctx).stq = c.stq.filter (fun q => q.id ≠ e.id)))
    -- fills: into a way that the partition may use, where a full way first gives up a line
    ∧ (∀ f ecc, s.mem.fills.find? (fun y => y.line = f.line) = some f → sget false s.mem.failed (chanOf (256 * f.line)) = false →
      let stored := s.mem.rd (paKey (256 * f.line)) 256
      let inSlice := s.mem.l2.filter (fun y => lineSlice y.1 = lineSlice f.line)
      (s.bankBlocked (256 * f.line) = true → ∃ t, exec (.l2Fill f.line ecc none) s = .next t ∧ t.mem.l2 = s.mem.l2 ∧ t.mem.bytes = s.mem.bytes
        ∧ ∃ g ∈ t.mem.fills, g.line = f.line ∧ g.waited = true)
      ∧ (s.bankBlocked (256 * f.line) = false → (∀ k, k < 8 → ecc.getD k .clean = .clean) → inSlice.length < 4096 →
        ∃ t y, exec (.l2Fill f.line ecc none) s = .next t ∧ t.mem.bytes = s.mem.bytes ∧ (∀ g ∈ t.mem.fills, g.line ≠ f.line)
          ∧ sget? t.mem.l2 f.line = some y ∧ y.data = BitVec.ofNat 2048 (pnat stored) ∧ y.dirty = false ∧ y.way ∈ s.waysFor f.part
          ∧ (∀ k, k < 8 → y.pois.getLsbD k = pany ((stored.drop (32 * k)).take 32))
          ∧ ∀ k, k ≠ f.line → sget? t.mem.l2 k = sget? s.mem.l2 k)
      ∧ (s.bankBlocked (256 * f.line) = false → (∀ k, k < 8 → ecc.getD k .clean = .clean) → ∀ v z, sget? s.mem.l2 v = some z → v ≠ f.line → lineSlice v = lineSlice f.line → z.way ∈ s.waysFor f.part →
        z.dirty = false ∨ s.bankBlocked (256 * v) = false →
        ∃ t y, exec (.l2Fill f.line ecc (some v)) s = .next t ∧ sget? t.mem.l2 v = none ∧ sget? t.mem.l2 f.line = some y ∧ y.way = z.way
          ∧ (z.dirty = true → sget false s.mem.failed (chanOf (256 * v)) = false → ∀ k, k < 256 →
            mget t.mem.bytes (paKey (256 * v) + k) = z.data.extractLsb' (8 * k) 8)
          ∧ (z.dirty = false → t.mem.bytes = s.mem.bytes))
      ∧ (∀ p c, f.part = some p → (s.partAt p).config = some c → c.l2ways ≠ 0 → ∀ w, w ∈ s.waysFor f.part ↔ w < 16 ∧ c.l2ways.getLsbD w = true))
    -- the eviction of NC lines
    ∧ ∀ core ln y, sget? (s.coreAt core).l1 (2 * ln + 1) = some y → y.st = .ncDirty → s.redirect { space := .nc, pa := 128 * ln } = { space := .nc, pa := 128 * ln } →
      (s.lineBusy ln = true → exec (.ncWriteback core ln) s = .next s)
      ∧ (s.lineBusy ln = false → sget? s.mem.l2 (ln / 2) = none → ∃ t, exec (.ncWriteback core ln) s = .next t ∧ asks t (ln / 2) ∧ t.cores = s.cores)
      ∧ (s.lineBusy ln = false → (sget? s.mem.l2 (ln / 2)).isSome = true → once (128 * ln) →
        ∃ t, exec (.ncWriteback core ln) s = .next t ∧ sget? (t.coreAt core).l1 (2 * ln + 1) = none ∧ t.mem.bytes = s.mem.bytes
          ∧ t.mem.homeRd (128 * ln) 128 = rdLine y.data y.pois 0 128)

/-! ### Ranges (15) -/

/-- 15 R268, R270, R272, R273, R275 to R277, R281: a walk answers every requester of its granule, in the RTLB or the matrix range table or
as a miss, or asks for a line of the table; markers drain; a range change completes once its lease has passed and its old translations
have performed; compaction is refused with its reason, or goes on to COPY, line by line with the writes to a copied line repeated, to
FORWARD with a swap, and to DONE. -/
def Obligations.RangeEvents : Prop :=
  ∀ s : State,
    (∀ die w ws, (s.dieAt die).walks = w :: ws → (∀ x ∈ ws, x.joins w = true) →
      (∀ ln, s.walkLacks w.part w.va = some ln → ∃ t, exec (.rtlbWalkComplete die) s = .next t ∧ t.dies = s.dies ∧ t.cores = s.cores
        ∧ ((sget? s.mem.l2 ln).isSome = true ∨ ∃ f ∈ t.mem.fills, f.line = ln))
      ∧ (s.walkLacks w.part w.va = none → ∃ t, exec (.rtlbWalkComplete die) s = .next t
        ∧ (t.dieAt die).walks = [] ∧ t.mem = s.mem ∧ t.ctxs = s.ctxs
        ∧ ∀ x ∈ w :: ws,
          (x.mat = false → (t.coreAt x.core).walk = none) ∧ (x.mat = true → (t.coreAt x.core).mwalk = none)
          ∧ (∀ e, s.walk w.part w.va = some e →
            (x.mat = false → s.cachedOf w.part e ∈ (t.coreAt x.core).rtlb) ∧ (x.mat = true → s.cachedOf w.part e ∈ (t.coreAt x.core).mrt))
          ∧ ((∀ y ∈ ws, y.core ≠ w.core) → x = w →
            (∀ e, s.walk w.part w.va = some e →
              (w.mat = false → (s.coreAt w.core).rtlb.length < 64 → (t.coreAt w.core).rtlb = (s.coreAt w.core).rtlb ++ [s.cachedOf w.part e])
              ∧ (w.mat = true → (s.coreAt w.core).mrt.length < 16 → (t.coreAt w.core).mrt = (s.coreAt w.core).mrt ++ [s.cachedOf w.part e]))
            ∧ (s.walk w.part w.va = none →
              (w.mat = false → (t.coreAt w.core).missVa = some (w.va / 32)) ∧ (w.mat = true → (t.coreAt w.core).mmiss = some (w.va / 32))
              ∧ (t.coreAt w.core).rtlb = (s.coreAt w.core).rtlb ∧ (t.coreAt w.core).mrt = (s.coreAt w.core).mrt))))
    ∧ (∀ i c, s.changes[i]? = some c →
      ((∀ a ∈ c.ahead, s.jobRuns a = false) → (∀ n ∈ c.copies, ∀ j ∈ s.copyjobs, j.num = n → j.k / 64 ≠ c.part) →
        exec (.markerDrain i) s = .next { s with changes := s.changes.set i { c with drained := true } })
      ∧ ((∃ a ∈ c.ahead, s.jobRuns a = true) → exec (.markerDrain i) s = .next s)
      ∧ (c.drained = false ∨ (∃ a ∈ c.entries, s.entryWaits a = true) ∨ s.now / 9 < c.time + (s.partAt c.part).leasens.toNat →
        exec (.rangeChangeComplete i) s = .next s)
      ∧ (c.drained = true → c.complete = none → (∀ a ∈ c.entries, s.entryWaits a = false) →
        c.time + (s.partAt c.part).leasens.toNat ≤ s.now / 9 →
        let noted : State := { s with changes := s.changes.set i { c with complete := some (s.now / 9) } }
        (∀ k id, c.swap = false → c.flip = false → c.issuer = some (k, id) → ∃ t, exec (.rangeChangeComplete i) s = .next t
          ∧ t.changes = s.changes.eraseIdx i ∧ t.mem = s.mem
          ∧ (t.ctxAt k).ldq = (s.ctxAt k).ldq.filter (fun e => e.id ≠ id) ∧ (t.ctxAt k).stq = (s.ctxAt k).stq.filter (fun e => e.id ≠ id)
          ∧ (∀ j, j ≠ k → t.ctxAt j = s.ctxAt j)
          ∧ ∀ v, c.va = some v → (t.coreAt (k / 8)).rtlb = (s.coreAt (k / 8)).rtlb.filter (fun x => !x.entry.covers v)
            ∧ (t.coreAt (k / 8)).mrt = (s.coreAt (k / 8)).mrt.filter (fun x => !x.entry.covers v))
        ∧ (c.swap = true → exec (.rangeChangeComplete i) s = .next noted)
        ∧ (c.swap = false → c.flip = true →
          ((∃ r ∈ s.rounds, r.part = c.part ∧ r.flip.isSome = true) → exec (.rangeChangeComplete i) s = .next noted)
          ∧ ((∀ r ∈ s.rounds, r.part = c.part → r.flip = none) →
            exec (.rangeChangeComplete i) s = .next { s with changes := s.changes.eraseIdx i }))))
    ∧ (∀ p,
      let q := s.partAt p
      let dirAt (u : State) (pa : Nat) (b : Nat) : Option DirEntry := sget? u.mem.dir (pa / 128 + b)
      (q.cmpstate ≠ .copy → q.cmpstate ≠ .forward →
        (∀ r, s.compactable p = .error r → exec (.cmpctlGo p) s =
          .next (s.modPart p (fun q => { q with cmpstate := .refused, cmpreason := BitVec.ofNat 8 r })))
        ∧ (s.walk p q.cmpva.toNat = none → s.compactable p = .error 1)
        ∧ (∀ e, s.walk p q.cmpva.toNat = some e →
          let new := e.firstPa q.cmpoff.toNat
          let bad : Prop := extentOk new e.size = false ∨ extentsMeet (e.firstPa (e.offset * 256)) new e.size = true
          let odd : Prop := q.cmpoff.toNat % 256 ≠ 0 ∨ paWin new ≠ e.win
          (e.kind = 1 ∨ e.host = true ∨ e.remote = true ∨ e.vers = true → s.compactable p = .error 2)
          ∧ (e.kind ≠ 1 → e.host = false → e.remote = false → e.vers = false →
            (e.lock = true → s.compactable p = .error 3) ∧ (e.lock = false → bad → s.compactable p = .error 4)
            ∧ (e.lock = false → ¬ bad → odd → s.compactable p = .error 5) ∧ (e.lock = false → ¬ bad → ¬ odd → s.compactable p = .ok e)))
        ∧ (∀ e, s.compactable p = .ok e → ∃ t, exec (.cmpctlGo p) s = .next t ∧ (t.partAt p).cmpstate = .copy ∧ (t.partAt p).cmpentry = some e
          ∧ (t.partAt p).cmpnew = q.cmpoff.toNat ∧ (t.partAt p).cmplines = 0 ∧ (t.partAt p).cmpreason = 0))
      ∧ (q.cmpstate = .copy ∨ q.cmpstate = .forward → exec (.cmpctlGo p) s = .next s)
      ∧ (∀ e, q.cmpentry = some e →
        let old := e.firstPa (e.offset * 256)
        let new := e.firstPa q.cmpnew
        let i := q.cmplines
        (∀ st pa, q.movedTo st pa = if q.cmpstate = st ∧ old ≤ pa ∧ pa < old + min e.size (256 * i) then some (new + (pa - old)) else none)
        ∧ (q.cmpstate = .copy → i < e.size / 256 →
          firstWait [s.lineWait (old + 256 * i), s.lineWait (new + 256 * i)] = .ready → ∃ t, exec (.compactionSwap p) s = .next t
            ∧ (t.partAt p).cmpstate = .copy ∧ (t.partAt p).cmplines = i + 1 ∧ t.changes = s.changes
            ∧ (∀ b, b < 2 → dirAt t (old + 256 * i) b = none ∧ dirAt t (new + 256 * i) b = none)
            ∧ (q.cmpnew % 256 = 0 → old ≠ new → (∀ b, b < 2 → dirAt s (old + 256 * i) b = none ∧ dirAt s (new + 256 * i) b = none
                ∧ s.parts.filterMap (fun x => x.2.movedTo .copy (new + 256 * i + 128 * b)) = []
                ∧ ∀ a ∈ [old, new], s.parts.findSome? (fun x => x.2.movedTo .forward (a + 256 * i + 128 * b)) = none) →
              (∀ b, b < 2 → t.mem.homeRd (new + 256 * i + 128 * b) 128 = s.mem.homeRd (old + 256 * i + 128 * b) 128)
              ∧ t.mem.bytes = s.mem.bytes ∧ ∀ k, k ≠ new / 256 + i → sget? t.mem.l2 k = sget? s.mem.l2 k))
        ∧ (q.cmpstate = .copy → e.size / 256 ≤ i →
          (∀ k, k < 2 * (e.size / 256) → s.lineBusy (old / 128 + k) = false ∧ sget? s.mem.dir (old / 128 + k) = none) →
          ∃ t c, exec (.compactionSwap p) s = .next t ∧ (t.partAt p).cmpstate = .forward ∧ (t.partAt p).cmplines = i ∧ t.changes = s.changes ++ [c]
            ∧ c.part = p ∧ c.swap = true ∧ c.complete = none ∧ c.time = s.now / 9 ∧ c.va = some (e.base * 256) ∧ c.len = e.size)
        ∧ (q.cmpstate = .forward →
          ((∀ c ∈ s.changes, c.part = p → c.swap = true → c.complete = none) → exec (.compactionDone p) s = .next s)
          ∧ ((∃ c ∈ s.changes, c.part = p ∧ c.swap = true ∧ c.complete.isSome = true) → ∃ t, exec (.compactionDone p) s = .next t
            ∧ (t.partAt p).cmpstate = .done ∧ (t.partAt p).cmpentry = none
            ∧ t.changes = s.changes.filter (fun c => !(c.part = p && c.swap && c.complete.isSome))))))
    -- a write to a line that has been copied is repeated at the new line; an access to an extent that is forwarded goes to the new one
    ∧ (∀ pa a l, s.parts.filterMap (fun x => x.2.movedTo .copy pa) = [a] → sget? s.mem.dir (a / 128) = none →
      s.homeWr pa l = { s with mem := (((s.mem.homeWr pa l).storeTo pa).homeWr a l).storeTo a })
    ∧ ∀ (l : Loc) a, s.parts.findSome? (fun x => x.2.movedTo .forward l.pa) = some a → l.space = .coh ∨ l.space = .nc ∨ l.space = .ms →
      s.redirect l = { space := .ms, pa := a }

/-! ### Jobs at work (08 R177, R178, R182, R183) -/

/-- 08 R172, R176 to R179, R181 to R183; 09 R203; 16 R284, R285, R289, R290: a granule of a job is read whole and then written, and its
stream grows by it; what does not translate, or a poisoned index, faults the job; a segment of an AWR becomes a contribution; a target
whose bytes are all written is completed: its full/empty bits, its semaphore, its handler's arrival, and with the last one the job's
word for its card and for the ENGWAITs on it; a chunk of an SLX that a member has received whole signals it. What a remote package
answers for a forwarded handle is free (log 14). -/
def Obligations.JobEvents : Prop :=
  ∀ (s : State) (n : Nat) (j : Job), sget? s.ctx.jobs n = some j → j.st = .active → j.seq = n →
    let u : State := { s with freeIx := s.freeIx + 1 }
    let b := sget 0 j.streams 0
    let total := cardTotal j.card
    let esz := cardEsz j.card
    let moving : Prop := j.kind ∈ [.copy, .put, .get, .gather, .scatter, .scadd]
    let faulted (t : State) (cause : Byte) (x : TrapInfo) : Prop := ∃ k, sget? t.ctx.jobs n = some k ∧ k.st = .faulted ∧ k.cause = cause
      ∧ k.card = j.card ∧ k.streams = j.streams ∧ t.mem = s.mem ∧ t.ctx.deferred = s.ctx.deferred ++ [x]
      ∧ t.ctx.engwaits = s.ctx.engwaits.filter (fun e => e.2.2.1 ≠ n)
    (moving ∨ j.kind = .awr → s.jobHeld j = true → exec (.jobGranuleWrite n) s = .next s)
    ∧ (moving → s.jobHeld j = false → ∀ task pos, s.readyStreams j = [(task, pos)] →
      let at_ := sget 0 j.streams pos
      let m := if j.multicast then (match s.memberAt task with | .here k => some k | _ => none) else none
      let elems := (granuleElems j.card at_).take (256 / esz)
      (∀ f, j.retile = true → at_ = 0 → u.retileRow j = .error f → j.phaser = none → ∃ t, exec (.jobGranuleWrite n) s = .next t
        ∧ faulted t (if f.1 = 0x3FF then 0xFF else BitVec.ofNat 8 f.1) { cause := .copyFault, aux := f.1, deferred := true, va := f.2 })
      ∧ (j.retile = false ∨ at_ ≠ 0 ∨ (∃ x, u.retileRow j = .ok x) → ∀ x, u.partsWait (u.indexParts j elems) = (false, x) →
        let y := x.recallsMs (x.indexParts j elems)
        (∀ f, y.jobMoves j m elems = .error (.fault f) → exec (.jobGranuleWrite n) s = .next (y.copyFault j f))
        ∧ (∀ va pa, y.jobMoves j m elems = .error (.poisonedIndex va pa) → j.phaser = none → ∃ t k, exec (.jobGranuleWrite n) s = .next t
          ∧ sget? t.ctx.jobs n = some k ∧ k.st = .faulted ∧ k.cause = 0x20 ∧ t.ctx.asyncf.getLsbD 5 = true
          ∧ t.ctx.deferred = y.ctx.deferred ++ [{ cause := .poisonConsume, deferred := true, va, pa := some pa }])
        ∧ (∀ moves f, y.jobMoves j m elems = .ok moves → y.retilePad j at_ = .error f → exec (.jobGranuleWrite n) s = .next (y.copyFault j f))
        ∧ (∀ moves pad, y.jobMoves j m elems = .ok moves → y.retilePad j at_ = .ok pad →
          (∀ v, y.partsWait (moves.flatMap (fun x => withVas x.sva x.src ++ withVas x.dva x.dst) ++ withVas 0 pad) = (true, v) →
            exec (.jobGranuleWrite n) s = .next v)
          ∧ ∀ v, y.partsWait (moves.flatMap (fun x => withVas x.sva x.src ++ withVas x.dva x.dst) ++ withVas 0 pad) = (false, v) →
            let w := v.publishParts (moves.flatMap (fun x => x.src))
            let zeros := clean (List.replicate (pad.foldl (fun n p => n + p.2) 0) 0)
            ∃ t, exec (.jobGranuleWrite n) s = .next t
              ∧ (j.kind ≠ .scadd → t.mem = ((w.applyMoves moves).wrPieces pad zeros).mem)
              ∧ (j.kind = .scadd → t.mem = ((w.scaddGranule j moves).wrPieces pad zeros).mem)
              ∧ (t.ctxAt s.key).sameRegisters w.ctx
              ∧ ∃ k, sget? (t.ctxAt s.key).jobs n = some k ∧ k.st = .active ∧ k.card = j.card
                ∧ sget 0 k.streams pos = at_ + elems.length * esz ∧ ∀ i, i ≠ pos → sget 0 k.streams i = sget 0 j.streams i)))
    ∧ (j.multicast = false → s.readyStreams j = if b < total then [(0, 0)] else [])
    ∧ (j.kind = .awr → s.jobHeld j = false →
      let fault (t : State) : Prop := faulted t 0x32 { cause := .bucketErr, deferred := true, va := j.cardVa % 2 ^ 52 }
      let cnt := (cardCounts j.card).headD 0
      (s.findSet (partOfKey s.ctx.owner) (bucketHandle j.card) = none → j.phaser = none →
        ∃ t, exec (.jobGranuleWrite n) s = .next t ∧ fault t)
      ∧ ∀ bd (x : BucketSet), s.findSet (partOfKey s.ctx.owner) (bucketHandle j.card) = some (bd, x) →
        let g := 2 ^ x.seglog2
        let segs := (cnt + g - 1) / g
        let first := bucketOff j.card / g
        let here (i : Nat) : Prop := first + i ∉ j.answered
          ∧ ∀ c ∈ (s.basinAt bd).inbound, ¬ (c.ctx = s.key ∧ c.job = n ∧ c.seg = first + i)
        let reads (lo k : Nat) : Except JobFault (List Move) := s.awrMoves j ((List.range k).map (fun i => lo + i))
        (x.fwd = true → j.sent = 0 → j.phaser = none → ∀ moves v, reads 0 cnt = .ok moves →
          s.partsWait (moves.flatMap (fun x => withVas x.sva x.src)) = (false, v) →
          ∃ t k, exec (.jobGranuleWrite n) s = .next t ∧ sget? t.ctx.jobs n = some k
            ∧ ((k.st = .faulted ∧ k.cause = 0x32)
              ∨ (k.st = .active ∧ k.sent = 1 ∧ sget 0 k.streams 0 = total ∧ ∃ r, 6 ≤ r ∧ r ≤ 16 ∧ k.progress = (cnt + 2 ^ r - 1) / 2 ^ r)))
        ∧ (x.fwd = false → awrRangeOk x (bucketOff j.card) cnt (bucketId j.card) = false → j.phaser = none →
          ∃ t, exec (.jobGranuleWrite n) s = .next t ∧ fault t)
        ∧ (x.fwd = false → awrRangeOk x (bucketOff j.card) cnt (bucketId j.card) = true →
          ((∀ i, i < segs → ¬ here i) → exec (.jobGranuleWrite n) s = .next s)
          ∧ ∀ i, i < segs → here i → (∀ i', i' < i → ¬ here i') →
            let k := min g (cnt - i * g)
            (∀ f, reads (i * g) k = .error f → exec (.jobGranuleWrite n) s = .next (s.copyFault j f))
            ∧ ∀ moves v, reads (i * g) k = .ok moves → s.partsWait (moves.flatMap (fun x => withVas x.sva x.src)) = (false, v) →
              ∃ t c, exec (.jobGranuleWrite n) s = .next t ∧ (t.basinAt bd).inbound = (v.basinAt bd).inbound ++ [c]
                ∧ c.handle = bucketHandle j.card ∧ c.round = bucketRound j.card ∧ c.id = bucketId j.card ∧ c.seg = first + i
                ∧ c.part = partOfKey s.ctx.owner ∧ c.ctx = s.key ∧ c.job = n ∧ c.data.length = k ∧ c.bcy = s.now / 6))
    ∧ (∀ f, j.phaser = none → ∃ k, sget? (s.copyFault j f).ctx.jobs n = some k ∧ k.st = .faulted
      ∧ k.cause = (if f.1 = 0x3FF then 0xFF else BitVec.ofNat 8 f.1) ∧ k.streams = j.streams
      ∧ (s.copyFault j f).ctx.deferred = s.ctx.deferred ++ [{ cause := .copyFault, aux := f.1, deferred := true, va := f.2 }])
    -- completion of the one target that a job has left
    ∧ (∀ task, s.jobTargets j = [task] → j.finished = [] →
      (moving ∨ j.kind = .slx → j.multicast = false → s.completable j = if total ≤ b then [(task, 0)] else [])
      ∧ (j.kind = .awr → j.multicast = false → s.completable j = if s.awrDone j = true then [(task, 0)] else [])
      ∧ (s.completable j = [] → exec (.jobComplete n) s = .next s)
      ∧ (s.completable j = [(task, 0)] → ∀ core x, s.completionCore j task = some core → u.writeRecord j = .ok (true, x) →
        x.completionCore j task = some core →
        let v := x.takeArrivals core x.ctx.owner 16
        let status : Nat := if j.poisoned.isSome then 4 else if j.dup then 3 else 0
        let word : Word := BitVec.ofNat 64 (j.progressWord % 2 ^ 40 * 2 ^ 16 + j.cause.toNat * 256 + status)
        (cardHv j.card = true → 16 ≤ (v.coreAt core).inq.length → exec (.jobComplete n) s = .next s)
        ∧ (cardHv j.card = false ∨ (v.coreAt core).inq.length < 16 → j.phaser = none →
          ∃ t, exec (.jobComplete n) s = .next t ∧ t.mem.bytes = v.mem.bytes ∧ t.mem.l2 = v.mem.l2
            ∧ (∀ k, sget false t.mem.full k = if (0, k) ∈ j.lines then true else sget false v.mem.full k)
            ∧ sget? t.ctx.jobs n = none ∧ (∀ k, k ≠ n → sget? t.ctx.jobs k = sget? v.ctx.jobs k)
            ∧ (∀ i, (t.coreAt core).sem i = if cardSemv j.card = true ∧ j.kind ≠ .slx ∧ i = cardSem j.card then
                (if (v.coreAt core).sem i = 0xFFFF then 0xFFFF else (v.coreAt core).sem i + 1) else (v.coreAt core).sem i)
            ∧ (cardHv j.card = false → (t.coreAt core).inq = (v.coreAt core).inq)
            ∧ (cardHv j.card = true → ∃ a, (t.coreAt core).inq = insArrival a (v.coreAt core).inq ∧ a.hidx = cardHidx j.card ∧ a.bytes = total
              ∧ a.sender = v.ctx.taskid.toNat ∧ a.senderCore = s.cur.core % 8192 ∧ a.word = BitVec.ofNat 32 (cardWord j.card) ∧ a.cycle = s.now / 4)
            ∧ (v.ctx.kept = [] → t.ctx.kept = [(j.cardVa, n, word)])
            ∧ (∀ y, j.poisoned = some y → t.ctx.deferred = v.ctx.deferred ++ [{ cause := .poisonConsume, deferred := true, va := y.1, pa := some y.2 }])
            ∧ (j.poisoned = none → t.ctx.deferred = v.ctx.deferred)
            ∧ t.ctx.engwaits = v.ctx.engwaits.filter (fun e => e.2.2.1 ≠ n)
            ∧ t.ctx.arrived.map (fun a => (a.dest, a.slot, a.val)) = v.ctx.arrived.map (fun a => (a.dest, a.slot, a.val))
              ++ (v.ctx.engwaits.filter (fun e => e.2.2.1 = n)).map (fun e => (.s e.1, e.2.1, word.setWidth 1024)))))
    ∧ (j.retile = false → u.writeRecord j = .ok (true, u))
    ∧ (j.retile = true → ∀ stack row ps x, u.retileRow j = .ok (stack, row) →
      u.jobAccess j true (BitVec.ofNat 64 (cardRegion j.card 3).base) 64 = .ok ps →
      u.partsWait (withVas (BitVec.ofNat 64 (cardRegion j.card 3).base) ps) = (false, x) →
      let rec64 : List Byte := leBytes 0xB5 1 ++ leBytes 1 1 ++ leBytes (match esz with | 4 => 0x0101 | 2 => 0x0102 | _ => 0x0103) 2 ++ leBytes stack 1
        ++ leBytes (match esz with | 4 => 0 | 2 => 1 | _ => 2 + cardKflags j.card / 4) 1 ++ leBytes 0 2 ++ leBytes (cardElems j.card) 8
        ++ leBytes row 4 ++ leBytes ((cardElems j.card + 256 / esz - 1) / (256 / esz)) 4 ++ leBytes (cardRegion j.card 1).base 8 ++ leBytes 0 32
      u.writeRecord j = .ok (true, x.wrPieces ps (clean rec64)))
    ∧ (j.kind = .slx → s.jobHeld j = false → ∀ task key, s.jobTargets j = [task] → s.memberAt task = .here key →
      let len := (cardCounts j.card).headD 0 * esz
      let stop := (b / len + 1) * len
      let w := u.chunkGranules n 0 key (len / 256 + 2) stop
      b < total → 0 < len →
      ((w.activeJob n).map (fun k => sget 0 k.streams 0) = some stop → exec (.slxChunkDeliver n) s = .next (w.addSem (key / 8) (cardSem j.card) 1))
      ∧ ((w.activeJob n).map (fun k => sget 0 k.streams 0) ≠ some stop → exec (.slxChunkDeliver n) s = .next w))

/-! ### The sequencer (09; 03 R57; 05 R103, R104; 19 R325) -/

/-- 03 R57; 09 R195 to R200; 14 R258; 22 R358: the prefetch engine expands the segment that the core waits for into the half that it may
use; the chosen segment starts from a half with its waits taken, is given up where they do not hold, stops the core at a safe entry that
a stop waits for, or, as a trap handler, waits for the record of its trap; a ready handler is chosen before tasks; a segment's end
follows its exit action, and one that ran past twice its count is counted and told. -/
def Obligations.SequencerEvents : Prop :=
  ∀ s : State,
    let k := s.core
    (∀ slot va, k.running = none → k.chosen = some slot → (s.atSlot slot).ctx.phase = .pending va → k.holdsSeg va = none →
      let u := s.atSlot slot
      ∀ half, half < 2 →
        (k.ended = some (decide (half = 0)) → exec (.segmentExpansion half va) s = .next s)
        ∧ (k.ended = none ∨ k.ended = some (decide (half = 1)) →
          (∀ ln v, u.expandWait va = .fill ln v → ∃ t, exec (.segmentExpansion half va) s = .next t ∧ t.cores = s.cores ∧ t.ctxs = s.ctxs
            ∧ t.mem.l2 = s.mem.l2 ∧ ((sget? s.mem.l2 ln).isSome = true ∨ ∃ f ∈ t.mem.fills, f.line = ln))
          ∧ (u.expandWait va = .ready → ∃ t, exec (.segmentExpansion half va) s = .next t ∧ t.ctxs = s.ctxs
            ∧ (half = 0 → t.core.h0 = u.expand va ∧ t.core.h1 = k.h1) ∧ (half = 1 → t.core.h1 = u.expand va ∧ t.core.h0 = k.h0)
            ∧ t.core.running = none ∧ t.core.chosen = some slot)))
    ∧ (∀ half va, half < 2 → k.running.isSome = true → k.ended = some (decide (half = 1)) → exec (.segmentExpansion half va) s = .next s)
    ∧ (∀ slot va (h : Half), k.running = none → k.stopped = false → k.frozen = false → k.chosen = some slot →
      (s.atSlot slot).ctx.phase = .pending va → k.holdsSeg va = some h → h.fault = none → h.hdr.handler = (s.atSlot slot).isHandler →
      (s.atSlot slot).startsTrap h.va = false → k.stopReq = true → h.hdr.safeEntry = true →
      ∃ t, exec .segmentStart s = .next t ∧ t.core.stopped = true ∧ t.core.running = none ∧ t.core.chosen = some slot ∧ t.ctxs = s.ctxs)
    ∧ (∀ slot va (h : Half), k.running = none → k.stopped = false → k.frozen = false → k.chosen = some slot →
      (s.atSlot slot).ctx.phase = .pending va → k.holdsSeg va = some h → h.fault = none → h.hdr.waits = [] →
      (s.atSlot slot).startsTrap h.va = true → k.stopReq = false →
      ((∃ x ∈ s.dev.logq, x.log = some (partOfKey (s.atSlot slot).ctx.owner)) →
        ∃ t, exec .segmentStart s = .next t ∧ t.core.running = none ∧ t.core.chosen = some slot ∧ t.ctxs = s.ctxs)
      ∧ ((∀ x ∈ s.dev.logq, x.log ≠ some (partOfKey (s.atSlot slot).ctx.owner)) →
        ∃ t, exec .segmentStart s = .next t ∧ t.core.running = some slot ∧ (t.ctxAt (ctxKey s.cur.core slot)).phase = .running
          ∧ (t.ctxAt (ctxKey s.cur.core slot)).hdr = h.hdr))
    ∧ (∀ slot va (h : Half), k.running = none → k.stopped = false → k.frozen = false → k.stopReq = false → k.chosen = some slot →
      (s.atSlot slot).ctx.phase = .pending va → k.holdsSeg va = some h → h.fault = none → h.hdr.handler = (s.atSlot slot).isHandler →
      distinct (h.hdr.waits.map (·.1)) = true → (s.atSlot slot).startsTrap h.va = false →
      let key := ctxKey s.cur.core slot
      (k.met h.hdr.waits = false → ∃ t, exec .segmentStart s = .next t ∧ t.core = { k with chosen := none } ∧ t.ctxs = s.ctxs ∧ t.mem = s.mem)
      ∧ (k.met h.hdr.waits = true → ∃ t, exec .segmentStart s = .next t ∧ t.core.running = some slot ∧ t.mem = s.mem
        ∧ (∀ n, (t.core.sem n).toNat + ((h.hdr.waits.filter (fun w => w.1 = n)).map (·.2)).sum = (k.sem n).toNat)
        ∧ t.ctxAt key = { s.ctxAt key with
            hdr := h.hdr, body := h.bundles, pc := 0, act := .none, sel := false, nexted := false, segStart := none, hold := 0, bend := false,
            branch := none, phase := .running }
        ∧ ∀ j, j ≠ key → t.ctxAt j = s.ctxAt j))
    ∧ (s.isSluice = false → ∀ h l, k.active.filter s.eligible = h :: l → k.hrun < k.hmax.toNat →
      s.choose.1 = some h ∧ s.choose.2.core = { k with hrun := k.hrun + 1 })
    ∧ (s.isSluice = false → k.active.filter s.eligible = [] → ∀ c, [0, 1, 2, 3].filter s.eligible = [c] → 0 < s.deficit c →
      s.choose.1 = some c ∧ s.choose.2.deficit c = min (s.deficit c) 4096 - s.declared c ∧ s.choose.2.core.hrun = 0)
    ∧ (∀ x, s.ctx.segStart = some x → (s.overran = true ↔ 2 * s.ctx.hdr.cycles < s.now / 4 - x))
    ∧ (s.ctx.phase = .draining → s.ctx.pend = [] → s.overran = true → ∃ t, exec .segmentEnd s = .next t
      ∧ t.core.overruns = (if k.overruns < 0xFFFFFFFF then k.overruns + 1 else k.overruns)
      ∧ (t.partAt (partOfKey s.ctx.owner)).telemetry = (s.partAt (partOfKey s.ctx.owner)).telemetry ++ [(1, s.cur.core)])
    ∧ (s.ctx.phase = .draining → s.ctx.pend ≠ [] → exec .segmentEnd s = .next s)
    ∧ (s.ctx.phase = .draining → s.ctx.pend = [] → s.overran = false →
      let c := s.ctx
      let p := if c.sel then c.hdr.next1 else c.hdr.next0
      let ends (d : Ctx) : Prop := ∃ t, exec .segmentEnd s = .next t ∧ s.mem = t.mem ∧ t.ctx = d ∧ t.core.running ≠ some s.cur.slot
        ∧ ∀ j, j ≠ s.key → t.ctxAt j = s.ctxAt j
      (c.act = .none → p ≠ 0 → ends { c with phase := .pending p })
      ∧ (c.act = .none → p = 0 → c.retstack = [] → s.cur.slot < 4 → ends { c with phase := .retiring 0 0 })
      ∧ (c.act = .none → p = 0 → c.retstack = [] → 4 ≤ s.cur.slot → ends { c with phase := .ending })
      ∧ (∀ r l, c.act = .none → p = 0 → c.retstack = r :: l → r ≠ 0 → ends { c with phase := .pending r, retstack := l })
      ∧ (∀ va, c.act = .call va → ends { c with phase := .pending va, retstack := p :: c.retstack })
      ∧ (∀ r l, c.act = .ret → c.retstack = r :: l → r ≠ 0 → ends { c with phase := .pending r, retstack := l })
      ∧ (c.act = .finish → ends { c with phase := .retiring 0 0 })
      ∧ (c.act = .exit → (c.sreg 1).pois = false → ends { c with phase := .retiring ((c.sreg 1).v.setWidth 32) 0 })
      ∧ (c.act = .exit → (c.sreg 1).pois = true → ends { c with phase := .retiring 0xFFFFFFFF 3 })
      ∧ (c.act = .hdone → ends { c with phase := .ending }))

/-- 19 R325; 20 R342; 05 R104; 09 R193, R194, R204, R207: at a bundle boundary the oldest deferred trap is delivered before an MMA's
fault and that before the bundle's first failing check; a task that nothing holds retires with its status, an activation ends with its
table entry's increment, and a waiting task is dispatched, in ascending order on each core, to the lowest free context of its core with
the program's scratch image. -/
def Obligations.TaskEvents : Prop :=
  ∀ s : State,
    let c := s.ctx
    (c.phase = .running → c.hold = 0 → c.bend = false → c.phwait = [] →
      (∀ a t l, c.frame = none → c.deferred = a ++ t :: l → (∀ x ∈ a, x.deferred = false) →
        (t.deferred = true ∨ (a = [] ∧ ∀ x ∈ l, x.deferred = false)) →
        exec .trapDelivery s = .next ((s.modCtx (fun c => { c with deferred := a ++ l ++ c.mmaTrap.toList, mmaTrap := none })).trapHere t))
      ∧ (∀ t, c.deferred = [] ∨ c.frame ≠ none → c.mmaTrap = some t →
        exec .trapDelivery s = .next ((s.modCtx (fun c => { c with mmaTrap := none })).trapHere t))
      ∧ (∀ b t, c.deferred = [] ∨ c.frame ≠ none → c.mmaTrap = none → s.bundle = some b → s.bundleVerdict b = .trap t →
        exec .trapDelivery s = .next (s.trapHere t)))
    ∧ (c.phase = .running → c.hold ≠ 0 ∨ c.bend = true ∨ c.phwait ≠ [] → exec .trapDelivery s = .next s)
    ∧ (∀ status disp, c.phase = .retiring status disp → s.mayLeave = false → exec .taskRetire s = .next s)
    ∧ (∀ status disp u, c.phase = .retiring status disp → s.mayLeave = true → s.publishWait = some u → exec .taskRetire s = .next u)
    ∧ (∀ status disp l, c.phase = .retiring status disp → s.mayLeave = true → s.isSluice = false → s.publishWait = none →
      (s.fctxAt c.owner).launch = some l →
      ∃ t m, exec .taskRetire s = .next t ∧ t.ctx = { ebudget := c.ebudget, eunder := c.eunder, asyncf := c.asyncf }
        ∧ (t.fctxAt c.owner).launch = some m ∧ m.state c.taskid.toNat = .retired status disp
        ∧ (∀ k, k ≠ c.taskid.toNat → m.state k = l.state k) ∧ t.core.running ≠ some s.cur.slot)
    ∧ (∀ l h, c.phase = .ending → s.mayLeave = true → s.publishWait = none → s.core.inq = [] → (s.fctxAt c.owner).launch = some l → l.handlers[c.hindex]? = some h →
      ∃ t, exec .handlerDormant s = .next t ∧ t.ctx.phase = .free ∧ s.cur.slot ∉ t.core.active
        ∧ ∀ n, t.core.sem n = if h.2.getLsbD 4 = true ∧ n = h.2.toNat % 16 ∧ s.core.sem n ≠ 0xFFFF then s.core.sem n + 1 else s.core.sem n)
    ∧ ∀ k task core j l, (s.fctxAt k).launch = some l → s.inPlace k = true → l.waiting task = true → l.ending = none → l.unitOf task = [task] →
      sget? l.assigned task = some core → l.delivered.getLsbD (core / 144) = true → s.freeSlot core l.nteam = some j → l.held = [] →
      let p := l.par
      let key := ctxKey core j
      let first : Prop := ∃ a ∈ l.assigned, l.waiting a.1 = true ∧ a.2 = core ∧ (l.unitOf a.1).headD 0 < task
      (first → exec (.taskDispatch k task) s = .next s)
      ∧ (¬ first → ∃ t, exec (.taskDispatch k task) s = .next t
        ∧ (t.ctxAt key).phase = .pending p.entry ∧ (t.ctxAt key).taskid = BitVec.ofNat 20 task
        ∧ (t.ctxAt key).coord = BitVec.ofNat 60 (task % p.fx + task / p.fx % p.fy * 2 ^ 20 + task / (p.fx * p.fy) * 2 ^ 40)
        ∧ (t.ctxAt key).team = BitVec.ofNat 5 (4 * l.nteam + j) ∧ (t.ctxAt key).launchid = p.launchid ∧ (t.ctxAt key).owner = k
        ∧ (∀ i, (t.ctxAt key).sreg i = {}) ∧ (∀ i, (t.ctxAt key).vreg i = {}) ∧ (∀ i, (t.ctxAt key).wreg i = {})
        ∧ (t.ctxAt key).matrixShare = p.matrix ∧ (t.ctxAt key).sliceBase = j * p.slice ∧ (t.ctxAt key).sliceSize = p.scratch
        ∧ (t.ctxAt key).privBase = p.privb ∧ (t.ctxAt key).privSize = p.priv
        ∧ (t.ctxAt key).asyncf = (s.ctxAt key).asyncf ∧ (∀ i, i ≠ key → t.ctxAt i = s.ctxAt i)
        ∧ (∀ i, i < p.scratch → mget t.mem.bytes (spadAddr core (j * p.slice) + i) = (s.fctxAt k).image.getD i 0)
        ∧ ∃ m, (t.fctxAt k).launch = some m ∧ m.state task = .resident core j)

/-! ### The command rings (14) -/

/-- 14 R242 to R248; 16 R286, R298, R303: a word with one command in slot 1 issues where its form, its condition and its block hold: it
advances HEAD (JUMP sets it, STOP stops the ring) and schedules its deliveries at the skewed times; WAITQ, SLUICE, ROUND and FENCEP
wait; a block that must first come from DRAM is awaited; an illegal form or block stops the ring with its cause, word and slot. -/
def Obligations.RingCommands : Prop :=
  ∀ (s : State) (k kind mask pay : Nat) (w : List Byte),
    let f := s.fctxAt k
    let part := k / 64
    let va := f.pbase.toNat + 64 * pay
    let c : CmdSlot := { slot := 1, kind := kind, mask := mask, pay := pay }
    let dies := (List.range 4).filter (fun d => mask / 2 ^ d % 2 = 1)
    let word := f.head.toNat % f.cpsize.toNat
    let adv : FCtx := { f with head := BitVec.ofNat 24 ((word + 1) % f.cpsize.toNat), cmdno := f.cmdno + 1 }
    let issues (i : Instr) (g : FCtx) (l : List Payload) : Prop := ∃ t, exec i s = .next t ∧ t.fctxAt k = g ∧ t.mem = s.mem ∧ t.ctxs = s.ctxs
      ∧ t.deliveries = s.deliveries ++ l.flatMap (fun p => dies.map (fun d =>
          { due := s.now / 9 + (sget 0 (s.dieAt d).skew kind).toNat, die := d, kind := kind, k := k, num := f.cmdno, word := word,
            slot := 1, body := p }))
    let stops (i : Instr) (x : Stop) : Prop := exec i s = .next (match x with
      | .cause c => s.cmdFault k word 1 c
      | .wait q => (s.waitFor (some part) q).getD s)
    f.wordPending = true → s.block part (f.cpbase.toNat + 16 * word) 16 = .ok w → fieldAt w 3 1 = 0 →
    slotsOf w = [c, { slot := 2, kind := 0, mask := 0, pay := 0 }, { slot := 3, kind := 0, mask := 0, pay := 0 }] → mask < 16 →
    (kind = 1 → mask ≠ 0 → pay < 2 ^ 28 → f.launch = none →
      (∀ l, s.parseLaunch k va (BitVec.ofNat 4 mask) = .ok l → issues (.launch k) { adv with launch := some l } [.launch])
      ∧ (∀ x, s.parseLaunch k va (BitVec.ofNat 4 mask) = .error x → stops (.launch k) x))
    ∧ (kind = 2 → mask = 1 → pay < 2 ^ 20 → 16 ≤ pay →
      let have_ := sget 0 f.csem (pay % 16)
      (pay / 16 ≤ have_.toNat → issues (.waitq k) { adv with csem := smod 0 f.csem (pay % 16) (fun v => v - BitVec.ofNat 32 (pay / 16)) } [])
      ∧ (have_.toNat < pay / 16 → exec (.waitq k) s = .next s))
    ∧ (kind = 3 → mask = 1 → pay < 2 ^ 20 → 16 ≤ pay → issues (.sigq k) adv [.sigq (pay % 16) (pay / 16)])
    ∧ (kind = 4 → mask ≠ 0 → pay < 2 ^ 28 →
      (f.launch = none → exec (.sluice k) s = .next s)
      ∧ (∀ l v n, f.launch = some l → s.parseSluice part va = .ok (v, n) →
        issues (.sluice k) { adv with sluiceCmds := f.sluiceCmds ++ [{ num := f.cmdno, va := v, csem := n, waiting := BitVec.ofNat 4 mask }] }
          [.sluice f.cmdno])
      ∧ (∀ l x, f.launch = some l → s.parseSluice part va = .error x → stops (.sluice k) x))
    ∧ (mask ∈ [1, 2, 4, 8] → pay < 2 ^ 28 →
      (kind = 5 → ∀ p, s.parseCpyp part va = .ok p → issues (.cpyp k) adv [p])
      ∧ (kind = 5 → ∀ x, s.parseCpyp part va = .error x → stops (.cpyp k) x)
      ∧ (kind = 6 → ∀ p, s.parseBkcfg part va (dieOfMask mask) = .ok p → issues (.bkcfg k) adv [p])
      ∧ (kind = 6 → ∀ x, s.parseBkcfg part va (dieOfMask mask) = .error x → stops (.bkcfg k) x)
      ∧ (kind = 7 → ∀ p, s.parseBasin part va (dieOfMask mask) = .ok p → issues (.basin k) adv [p])
      ∧ (kind = 7 → ∀ x, s.parseBasin part va (dieOfMask mask) = .error x → stops (.basin k) x))
    ∧ (kind = 8 → mask = 1 → pay < 2 ^ 28 →
      (s.roundWaits part va = true → exec (.round k) s = .next s)
      ∧ (s.roundWaits part va = false → ∀ r h, s.parseRound k va = .ok (r, h) → ∃ t, exec (.round k) s = .next t ∧ t.fctxAt k = adv
        ∧ t.ctxs = s.ctxs ∧ t.rounds.map (fun x => (x.k, x.num, x.handles)) = s.rounds.map (fun x => (x.k, x.num, x.handles)) ++ [(r.k, f.cmdno, r.handles)]
        ∧ t.deliveries.length = s.deliveries.length + 1)
      ∧ (s.roundWaits part va = false → ∀ x, s.parseRound k va = .error x → stops (.round k) x))
    ∧ (kind = 9 → mask = 1 → pay < 2 → (s.quietCmds k = true → issues (.fencep k) adv []) ∧ (s.quietCmds k = false → exec (.fencep k) s = .next s))
    ∧ (kind = 10 → mask = 1 → 1 ≤ pay → pay < 2048 → issues (.hostint k) adv [.hostint pay])
    ∧ (kind = 11 → mask = 1 → pay < f.cpsize.toNat → issues (.jump k) { adv with head := BitVec.ofNat 24 pay } [])
    ∧ (kind = 11 → mask = 1 → f.cpsize.toNat ≤ pay → stops (.jump k) (.cause .format))
    ∧ (kind = 12 → mask = 1 → pay = 0 → issues (.stop k) { adv with cstate := .stopped } [])
    ∧ (kind = 12 → mask = 1 → pay ≠ 0 → stops (.stop k) (.cause .format))

/-- 14 R244, R245, R247, R249, R252: a delivery takes effect at its time, or late and counted; a launch, a sluice program and a copy
complete: the launch's record is written, and each signals its semaphore. -/
def Obligations.Deliveries : Prop :=
  ∀ s : State,
    (∀ i d, s.deliveries[i]? = some d → (∀ e ∈ s.deliveries, e.before d = false) →
      (d.body = .launch → s.waitFor none (s.launchWait d.k d.die) = none) →
      let late := decide (d.due < s.now / 9)
      ∃ t, exec (.slotDelivery i) s = .next t ∧ t.now = max s.now (9 * d.due) ∧ t.deliveries = s.deliveries.eraseIdx i
        ∧ (t.fctxAt d.k).skewlate = (if late = true ∧ (s.fctxAt d.k).skewlate ≠ 0xFFFFFFFF then (s.fctxAt d.k).skewlate + 1 else (s.fctxAt d.k).skewlate)
        ∧ (∀ n c, d.body = .sigq n c → ∀ j, sget 0 (t.fctxAt d.k).csem j =
            if j = n then satAdd (sget 0 (s.fctxAt d.k).csem n) c else sget 0 (s.fctxAt d.k).csem j)
        ∧ (∀ l, d.body = .launch → (s.fctxAt d.k).launch = some l → d.die < 4 → ∃ m, (t.fctxAt d.k).launch = some m
          ∧ m.delivered.getLsbD d.die = true ∧ m.tasks = l.tasks)
        ∧ (∀ stack h x, d.body = .bkcfg stack h x → ∃ y, t.setAt stack h = some y ∧ y.segs = [] ∧ y.round = x.round ∧ y.bucket = x.bucket)
        ∧ (∀ stack h, d.body = .bkrelease stack h → t.setAt stack h = none ∧ t.mem = s.mem)
        ∧ (∀ stack h p, d.body = .basin stack h p → sget? (t.basinAt stack).progs h = some p ∧ t.mem = s.mem
          ∧ (t.partAt (d.k / 64)).pmr2 = extendMr (s.partAt (d.k / 64)).pmr2 (p.words.flatMap (fun w => leBytes w.toNat 8)))
        ∧ (∀ n, d.body = .round n → ∀ r ∈ t.rounds, r.k = d.k → r.num = n → r.arrived = true)
        ∧ (∀ v, d.body = .hostint v → s.dev.pcieUp = true → (t.fctxAt d.k).msix = (s.fctxAt d.k).msix ++ [v])
        ∧ (∀ src dst len c, d.body = .cpyp src dst len c → ∃ j, t.copyjobs = s.copyjobs ++ [j] ∧ j.src = src ∧ j.dst = dst ∧ j.len = len
          ∧ j.done = 0 ∧ j.csem = c ∧ j.tissue = t.now / 9))
    ∧ (∀ i d t, s.deliveries[i]? = some d → (∀ e ∈ s.deliveries, e.before d = false) → d.body = .launch →
      s.waitFor none (s.launchWait d.k d.die) = some t → exec (.slotDelivery i) s = .next t)
    ∧ (∀ k l, (s.fctxAt k).launch = some l → l.ending.isSome = true ∨ s.launchDone k l = true → s.canWrite l.crecLocs = true →
      let n := l.par.csem
      ∃ t, exec (.launchComplete k) s = .next t ∧ t.mem = (s.wrPieces l.crecLocs (clean (l.record (s.now / 9)))).mem
        ∧ (t.fctxAt k).launch = none ∧ t.ctxs = s.ctxs
        ∧ ∀ j, sget 0 (t.fctxAt k).csem j = if l.par.csemv = true ∧ j = n then satAdd (sget 0 (s.fctxAt k).csem n) 1 else sget 0 (s.fctxAt k).csem j)
    ∧ (∀ k c, (s.fctxAt k).sluiceCmds.find? (fun c => c.waiting = 0) = some c → ∃ t, exec (.sluiceComplete k) s = .next t
      ∧ (t.fctxAt k).sluiceCmds = (s.fctxAt k).sluiceCmds.filter (fun x => x.num ≠ c.num) ∧ t.mem = s.mem
      ∧ ∀ j, sget 0 (t.fctxAt k).csem j = if c.csem = some j then satAdd (sget 0 (s.fctxAt k).csem j) 1 else sget 0 (s.fctxAt k).csem j)
    ∧ ∀ i j, s.copyjobs[i]? = some j →
      (j.len ≤ j.done → ∃ t, exec (.cpypComplete i) s = .next t ∧ t.copyjobs = s.copyjobs.eraseIdx i ∧ t.mem = s.mem
        ∧ ∀ n, sget 0 (t.fctxAt j.k).csem n = if j.csem = some n then satAdd (sget 0 (s.fctxAt j.k).csem n) 1 else sget 0 (s.fctxAt j.k).csem n)
      ∧ (∀ src dst, j.done < j.len → s.copyPieces j.copies .load (j.src + j.done) = some src →
        s.copyPieces j.copies .store (j.dst + j.done) = some dst →
        let w := s.waitFor (some (j.k / 64)) (firstWait [s.agentWait (j.src + j.done) src, s.agentWait (j.dst + j.done) dst])
        let v := s.recallsMs src
        (w = none → ∃ t, exec (.cpypComplete i) s = .next t ∧ t.mem = (v.wrPieces dst (v.rdPieces src)).mem
          ∧ t.copyjobs = s.copyjobs.set i { j with done := j.done + 256 })
        ∧ ∀ t, w = some t → exec (.cpypComplete i) s = .next t)
      ∧ (j.done < j.len → s.copyPieces j.copies .load (j.src + j.done) = none → ∃ t, exec (.cpypComplete i) s = .next t ∧ t.mem = s.mem
        ∧ t.copyjobs = s.copyjobs.eraseIdx i ∧ (t.fctxAt j.k).cstate = .faulted ∧ (t.fctxAt j.k).ccause = 0x30
        ∧ (t.fctxAt j.k).cword = BitVec.ofNat 24 j.word ∧ (t.fctxAt j.k).cslot = BitVec.ofNat 2 j.slot)

/-! ### Contexts of a partition (14 R242, R253, R257 to R262) -/

/-- 14 R242, R253, R257 to R261; 23 R370: GO, HALT and KILL; a slice that ends asks every core to stop, or begins anew where no other
entry is runnable; at the limit the cores freeze; the next context takes the cores, and its slice starts with budgets refilled; a
refill adds the effective rate, at least 1, up to CEIL. -/
def Obligations.ContextEvents : Prop :=
  ∀ s : State,
    (∀ k, let f := s.fctxAt k
      (f.cstate = .running → exec (.cctlGo k) s = .next s)
      ∧ (f.cstate ≠ .running → (∃ n, n < 23 ∧ f.cpsize.toNat = 2 ^ (n + 2)) → f.cpbase.toNat % 64 = 0 → ∃ t, exec (.cctlGo k) s = .next t
        ∧ t = { s with fctxs := t.fctxs } ∧ t.fctxAt k = { f with cstate := .running, ccause := 0 } ∧ ∀ j, j ≠ k → t.fctxAt j = s.fctxAt j)
      ∧ (f.cstate ≠ .running → (∀ n, n < 23 → f.cpsize.toNat ≠ 2 ^ (n + 2)) ∨ f.cpbase.toNat % 64 ≠ 0 → ∃ t, exec (.cctlGo k) s = .next t
        ∧ t = { s with fctxs := t.fctxs } ∧ t.fctxAt k = { f with cstate := .faulted, ccause := 0x03 } ∧ ∀ j, j ≠ k → t.fctxAt j = s.fctxAt j)
      ∧ (∃ t, exec (.cctlHalt k) s = .next t ∧ t = { s with fctxs := t.fctxs } ∧ (∀ j, j ≠ k → t.fctxAt j = s.fctxAt j)
        ∧ t.fctxAt k = { f with cstate := match f.cstate with | .running => .stopped | .stopped => .stopped | .faulted => .faulted })
      ∧ (∀ l, f.launch = some l → l.ending = none → ∃ t m, exec (.cctlKill k) s = .next t ∧ (t.fctxAt k).launch = some m ∧ m.ending = some 2
        ∧ m.tasks = l.tasks.filter (fun e => e.2.done) ∧ (t.fctxAt k).sluiceCmds = []
        ∧ ∀ c ∈ l.cores, ∀ j, j < 8 → (t.ctxAt (ctxKey (s.baseOf k + c) j)).phase = .free))
    ∧ (∀ p k start e, (s.partAt p).resident = some k → (s.fctxAt k).since = some start → (s.fctxAt k).entry = some e →
      (s.partAt p).expired = none → (s.partAt p).swapping = none → s.eunderSum p - (s.fctxAt k).eunder0 ≤ e.underlim →
      let x := start + 1000 * e.slice
      (∃ t, exec (.sliceExpiry p) s = .next t ∧ t.now = max s.now (9 * x) ∧ t.dev.refills = max s.dev.refills (t.now / 9000) ∧ t.mem = s.mem)
      ∧ (s.nextAfter p (k % 64) = none → ∃ t, exec (.sliceExpiry p) s = .next t ∧ (t.fctxAt k).since = some x ∧ (t.partAt p).expired = none
        ∧ t.cores = s.cores ∧ t.now = max s.now (9 * x))
      ∧ (∀ n, s.nextAfter p (k % 64) = some n → ∃ t, exec (.sliceExpiry p) s = .next t ∧ (t.partAt p).expired = some (x + 1000 * e.plimit)
        ∧ (∀ c ∈ s.stoppers p k, (t.coreAt c).stopReq = true)
        ∧ ∀ c, c ∉ s.stoppers p k → t.coreAt c = s.coreAt c))
    ∧ (∀ p k x, (s.partAt p).resident = some k → (s.partAt p).expired = some x → ∃ t, exec (.forcedFreeze p) s = .next t
      ∧ t.now = max s.now (9 * x) ∧ t.mem = s.mem
      ∧ ∀ c ∈ s.stoppers p k, c ∉ s.dev.lost → s.freezable c = true → (s.coreAt c).stopped = true ∨ (t.coreAt c).frozen = true)
    ∧ (∀ p, (s.partAt p).swapping = none →
      let u := s.refilled
      (∀ k, (s.partAt p).resident = none → u.firstRunnable p = some k → exec (.contextSwap p) s = .next (u.swapIn p k))
      ∧ (∀ r x, (s.partAt p).resident = some r → (s.partAt p).expired = some x → (∀ c ∈ u.stoppers p r, u.still c = true) →
        let w := u.waitFor none (firstWait ((u.stoppers p r).map u.emptyWait))
        (∀ k, u.nextAfter p (r % 64) = some k → w = none → exec (.contextSwap p) s = .next ((u.swapOut p r).swapIn p k))
        ∧ (∀ k t, u.nextAfter p (r % 64) = some k → w = some t → exec (.contextSwap p) s = .next t)
        ∧ (u.nextAfter p (r % 64) = none → ∃ t, exec (.contextSwap p) s = .next t ∧ (t.partAt p).expired = none ∧ (t.partAt p).resident = some r
          ∧ t.mem = s.mem ∧ ∀ c ∈ u.stoppers p r, (t.coreAt c).stopReq = false ∧ (t.coreAt c).stopped = false ∧ (t.coreAt c).frozen = false)))
    ∧ (∀ p k, let t := s.swapIn p k
      t.partAt p = { s.partAt p with resident := some k, swapping := some k, expired := none, swapAt := s.now / 9 }
      ∧ ∀ c ∈ s.partCores p, (t.coreAt c).resident = some k
        ∧ (t.coreAt c).hmax = BitVec.ofNat 4 (((s.fctxAt k).entry.map (fun e => e.hmax)).getD 8))
    ∧ (∀ p k, (s.partAt p).swapping = some k → (∀ c ∈ s.stoppers p k, s.againWait c = none) →
      let late := decide (s.wholly p k = false) || decide ((s.partAt p).swapAt + 12000 < s.now / 9)
      let u := ({ s with now := if late = true then max s.now (9 * ((s.partAt p).swapAt + 12001)) else s.now } : State).refilled
      ∃ t, exec (.swapInComplete p) s = .next t ∧ (t.partAt p).swapping = none ∧ t.now = u.now
      ∧ (t.fctxAt k).since = some (t.now / 9)
      ∧ (t.partAt p).swaplate = (if late = true ∧ (s.partAt p).swaplate ≠ 0xFFFFFFFF then (s.partAt p).swaplate + 1 else (s.partAt p).swaplate)
      ∧ ∀ x ∈ s.taskKeys p, (t.ctxAt x).ebudget.toNat = min ((u.ctxAt x).ebudget.toNat + u.refillUnits k) (((s.fctxAt k).entry.map (fun e => e.ceil)).getD 0)
        % 2 ^ 32)
    ∧ (∀ p k c t, (s.partAt p).swapping = some k → (s.stoppers p k).find? (fun c => (s.againWait c).isSome) = some c → s.againWait c = some t →
      exec (.swapInComplete p) s = .next t)
    ∧ ∃ t, exec .weirRefill s = .next t ∧ t.now = max s.now (9000 * (s.dev.refills + 1)) ∧ t.mem = s.mem
      ∧ ∀ a b p q k, s.parts = a ++ [(p, q)] ++ b → q.resident = some k → q.swapping = none → ∀ x ∈ s.taskKeys p,
        (∀ e ∈ a ++ b, x ∉ s.taskKeys e.1) →
        (t.ctxAt x).ebudget.toNat = min ((s.ctxAt x).ebudget.toNat + max ((s.fctxAt k).rate * s.dev.pscale.toNat / 256) 1)
          (((s.fctxAt k).entry.map (fun e => e.ceil)).getD 0) % 2 ^ 32

/-! ### Basin dies (16) -/

/-- 16 R288 to R290: a contribution of the open round is taken once: it counts, joins the segment's value and, as the last one, queues
the segment; a second one of its id is rejected and counted; one of the next round is held; any other is stale and faults its job. -/
def Obligations.Contributions : Prop :=
  ∀ (s : State) (b i : Nat) (c : Contribution), (s.basinAt b).inbound[i]? = some c → (s.basinAt b).comesFirst i c = false →
    let y := s.basinAt b
    let key := c.part * 4096 + c.handle
    let u := ({ s with now := max s.now (6 * (c.bcy + 1)) } : State).takeInbound b i
    ∀ x, s.setAt b key = some x →
      let g := x.seg c.seg
      let data := padElems x.segsize (min x.segsize (x.elems - x.segsize * c.seg)) c.data
      (c.round = x.round → c.id ∈ g.bitmap → ∃ t, exec (.bucketContribution b i) s = .next t ∧ (t.basinAt b).inbound = y.inbound.eraseIdx i
        ∧ (t.basinAt b).duprej = (if y.duprej = 0xFFFFFFFF then y.duprej else y.duprej + 1) ∧ t.mem = s.mem
        ∧ ∃ z, t.setAt b key = some z ∧ z.segs = x.segs ∧ z.dups = x.dups + 1)
      ∧ (c.round = x.round → c.id ∉ g.bitmap → x.mode = 0 → ∃ t z, exec (.bucketContribution b i) s = .next t
        ∧ (t.basinAt b).inbound = y.inbound.eraseIdx i ∧ t.setAt b key = some z
        ∧ (z.seg c.seg).cnt = g.cnt + 1 ∧ (z.seg c.seg).bitmap = g.bitmap ++ [c.id] ∧ (z.seg c.seg).poisonf = (g.poisonf || c.data.any (·.2))
        ∧ (g.cnt = 0 → t.mem = (u.setSegValue b x c.seg data).mem)
        ∧ (g.cnt ≠ 0 → t.mem = (u.setSegValue b x c.seg (addElems (u.segValue b x c.seg) data).1).mem)
        ∧ (g.cnt + 1 = x.expect → (z.seg c.seg).st = .queued ∧ (t.basinAt b).queue = y.queue ++ [(key, c.seg)])
        ∧ (g.cnt + 1 ≠ x.expect → (z.seg c.seg).st = g.st ∧ (t.basinAt b).queue = y.queue)
        ∧ ∀ j, j ≠ c.seg → z.seg j = x.seg j)
      ∧ (c.round ≠ x.round → c.round = (x.round + 1) % 256 → ∃ t, exec (.bucketContribution b i) s = .next t ∧ t.mem = s.mem
        ∧ (t.basinAt b).inbound = (if c.held then y.inbound else y.inbound.set i { c with held := true })
        ∧ (t.basinAt b).bkheld = (if c.held = true ∨ y.bkheld = 0xFFFFFFFF then y.bkheld else y.bkheld + 1) ∧ t.setAt b key = some x)
      ∧ (c.round ≠ x.round → c.round ≠ (x.round + 1) % 256 → ∃ t, exec (.bucketContribution b i) s = .next t ∧ t.mem = s.mem
        ∧ (t.basinAt b).inbound = y.inbound.eraseIdx i ∧ (t.basinAt b).bkstale = (if y.bkstale = 0xFFFFFFFF then y.bkstale else y.bkstale + 1)
        ∧ ∀ j, sget? (s.ctxAt c.ctx).jobs c.job = some j → j.st = .active → j.seq = c.job → ∃ k, sget? (t.ctxAt c.ctx).jobs c.job = some k ∧ k.st = .faulted
          ∧ (t.ctxAt c.ctx).deferred = (s.ctxAt c.ctx).deferred ++ [{ cause := .bucketErr, deferred := true, va := j.cardVa % 2 ^ 52 }])

/-- 16 R293 to R295, R299, R300, R302: a queued segment starts on a free engine with its row numbers in z0 to z8; a word issues, or
halts the engine with its reason; results and rows land; a run that halts leaves its segment DONE or FAILED and its engine free; a run
past its engine time gives way and is kept whole. -/
def Obligations.BasinEngineEvents : Prop :=
  ∀ (s : State) (b e : Nat),
    let g := s.engineAt b e
    let y := s.basinAt b
    (∀ q x, e < 4 → g.run = none → y.nextQueued (fun _ => true) = some q → y.saved = [] → s.setAt b q.1 = some x → (x.seg q.2).poisonf = false →
      ∃ t z, exec (.basinRunStart b e) s = .next t ∧ t.mem = s.mem ∧ (t.engineAt b e).run = some q ∧ t.setAt b q.1 = some z ∧ (z.seg q.2).st = .running
        ∧ (t.basinAt b).queue = y.queue.filter (fun r => r ≠ q) ∧ (t.engineAt b e).retired = 0 ∧ (t.engineAt b e).halt = none
        ∧ ((sget {} (t.engineAt b e).z 7).get 0 = x.segsize * q.2 % 2 ^ 32) ∧ (sget {} (t.engineAt b e).z 8).get 0 = x.round % 2 ^ 32)
    ∧ (∀ q x, e < 4 → g.run = none → y.nextQueued (fun _ => true) = some q → y.saved = [] → s.setAt b q.1 = some x → (x.seg q.2).poisonf = true →
      ∃ t z, exec (.basinRunStart b e) s = .next t ∧ t.engineAt b e = g ∧ t.setAt b q.1 = some z ∧ (z.seg q.2).st = .poisoned)
    ∧ (∀ r x, g.run = some r → s.setAt b r.1 = some x → g.inflight = [] → g.strq = [] → g.halt = none → g.halting = false → g.saving = false →
      let words := ((sget? y.progs (x.part * 256 + x.prog)).map (·.words)).getD []
      let pc := g.nextpc.getD g.pc
      let halts (h : HaltReason) : Prop := ∃ t, exec (.basinWord b e) s = .next t ∧ t.mem = s.mem ∧ t.engineAt b e = { g with halt := some h }
      (words.length ≤ pc → halts .bpc)
      ∧ (∀ w, words[pc]? = some w → x.budget ≤ g.retired → halts .btime)
      ∧ (∀ w, words[pc]? = some w → g.retired < x.budget → wordOk w = true → g.stalls (movesOf w) = false →
        (∀ h, ({ g with pc := pc, nextpc := none } : Engine).issue x (Config.arb s.freeIx) w = .error h → halts h)
        ∧ (∀ g2 fl uf, ({ g with pc := pc, nextpc := none } : Engine).issue x (Config.arb s.freeIx) w = .ok (g2, fl, uf) →
          ∃ t, exec (.basinWord b e) s = .next t ∧ t.mem = s.mem ∧ t.engineAt b e = { g2 with bcy := g2.bcy + 1 }
            ∧ ∃ z, t.setAt b r.1 = some z ∧ z.flags = x.flags ||| fl ∧ z.uf = x.uf + uf)))
    ∧ (∀ (x : BucketSet) free (w : Word) m, movesOf w = [m] → m.src < 0x40 →
      let v := sget {} g.b m.src
      let old := sget {} g.b m.dst
      let lets (l : Nat) : Bool := match m.guard with | 0 => true | 1 => g.g0.getLsbD l | 2 => !g.g0.getLsbD l | _ => g.g1.getLsbD l
      let bad (l : Nat) : Bool := match m.guard with | 0 => false | 1 => g.g0p.getLsbD l | 2 => g.g0p.getLsbD l | _ => g.g1p.getLsbD l
      (m.dst < 0x40 → ∃ g2, g.issue x free w = .ok (g2, 0, 0) ∧ g2.pc = g.pc + 1 ∧ g2.retired = g.retired + 1 ∧ g2.units = g.units
        ∧ (∀ l, l < 64 → (sget {} g2.b m.dst).get l = (if lets l = true then v.get l else old.get l)
          ∧ (sget {} g2.b m.dst).bad l = (if lets l = true then v.bad l || bad l else old.bad l)) ∧ ∀ j, j ≠ m.dst → sget {} g2.b j = sget {} g.b j)
      ∧ (∀ u lat, (u, lat) ∈ [(0, 3), (1, 3), (2, 4), (3, 2), (4, 2), (5, 1), (8, 8), (9, 8), (10, 12)] → m.guard = 0 → m.dst = 0x82 + 4 * u →
        let p := g.port u
        let n (a : Nat) := f32.num a
        ∃ g2 fl r, g.issue x free w = .ok (g2, fl, 0) ∧ g2.inflight = g.inflight ++ [r] ∧ r.unit = u ∧ r.due = g.bcy + lat
        ∧ r.eff = .value
        ∧ ∀ l, l < 64 → r.val.bad l = ((decide (u ∈ [0, 1, 2, 3, 4, 10]) && p.x.bad l) || (decide (u = 2) && p.y.bad l) || v.bad l)
          ∧ r.val.get l = match u with
            | 0 => (fp32 (Machine.Num.add 0 (n (p.x.get l)) (n (v.get l)))).1
            | 1 => (fp32 ((n (p.x.get l)).mul (n (v.get l)))).1
            | 2 => (fp32 (Machine.Num.fma 0 false false (n (p.x.get l)) (n (p.y.get l)) (n (v.get l)))).1
            | 3 => (f32.minmax false false (p.x.get l) (v.get l)).1
            | 4 => (f32.minmax true false (p.x.get l) (v.get l)).1
            | 5 => if (n (v.get l)).isNan = true then f32.canon else v.get l % 2 ^ 31
            | 8 => (fp32 (n (v.get l)).rsqrt).1
            | 9 => (fp32 (n (v.get l)).sqrt).1
            | _ => (fp32 ((n (p.x.get l)).quot (n (v.get l)))).1))
    ∧ (∀ r, g.inflight = [r] → g.strq = [] → r.eff = .cmp false → r.due ≤ g.bcy → ∃ t, exec (.basinUnitResultLand b e) s = .next t
      ∧ (t.engineAt b e).g1 = g.g1 ∧ (t.engineAt b e).g0p = r.val.pois ∧ ∀ l, l < 64 → (t.engineAt b e).g0.getLsbD l = decide (r.val.get l ≠ 0))
    ∧ (∀ n o d r x, g.inflight = [] → g.strq = [(n, o, 0, d)] → g.run = some r → s.setAt b r.1 = some x →
      let row := g.base + o
      let pa := (rowLoc b row).pa
      s.lineBusy (pa / 128) = false → s.lineBusy (pa / 128 + 1) = false →
      ((∀ q ∈ g.ldrq, q.2 = o → n ≤ q.1) → ∃ t, exec (.basinUnitResultLand b e) s = .next t ∧ (t.engineAt b e).strq = []
        ∧ t.mem = (s.wrRow b row 0 ((List.range 64).flatMap (fun l => pbytes (d.get l) 4 (d.bad l)))).mem)
      ∧ ((∃ q ∈ g.ldrq, q.2 = o ∧ q.1 < n) → ∃ t, exec (.basinUnitResultLand b e) s = .next t ∧ t.engineAt b e = g ∧ t.mem = s.mem))
    ∧ (∀ r, g.inflight = [r] → g.strq = [] → r.eff = .value →
      (r.due ≤ g.bcy → ∃ t, exec (.basinUnitResultLand b e) s = .next t ∧ t.mem = s.mem ∧ (t.engineAt b e).inflight = []
        ∧ ((t.engineAt b e).port r.unit).r = r.val)
      ∧ (g.bcy < r.due → ∃ t, exec (.basinUnitResultLand b e) s = .next t ∧ t.engineAt b e = g))
    ∧ (∀ n o rest, g.ldrq = (n, o) :: rest → (∀ w ∈ g.strq, w.2.1 = o → n ≤ w.1) →
      let pa := (rowLoc b (g.base + o)).pa
      s.lineBusy (pa / 128) = false → s.lineBusy (pa / 128 + 1) = false →
      (s.inL2 pa = false → exec (.ldrRowLand b e) s = .next (s.askFill { line := pa / 256, part := (s.runSet b g).map (fun x => x.2.2.part) }))
      ∧ (s.inL2 pa = true → ∃ t, exec (.ldrRowLand b e) s = .next t ∧ t.mem = s.mem ∧ (t.engineAt b e).ldrq = rest
        ∧ (t.engineAt b e).ldr = g.ldr ++ [lanesOfRow (s.rdRow b (g.base + o))]))
    ∧ (∀ r x, g.run = some r → s.setAt b r.1 = some x → g.inflight = [] → g.strq = [] →
      (g.halting = true → g.halt = none → g.ldrq = [] → ∃ t z, exec (.basinRunHalt b e) s = .next t ∧ t.engineAt b e = {} ∧ t.mem = s.mem
        ∧ t.setAt b r.1 = some z ∧ (z.seg r.2).st = .done)
      ∧ (∀ h, g.halt = some h → ∃ t z, exec (.basinRunHalt b e) s = .next t ∧ t.engineAt b e = {} ∧ t.setAt b r.1 = some z ∧ (z.seg r.2).st = .failed)
      ∧ (∀ q z, y.nextQueued (fun z => z.part ≠ x.part) = some q → s.setAt b q.1 = some z → (z.seg q.2).poisonf = false → g.halt = none →
        g.halting = false → s.bquant x.part ≤ g.bcy → g.ldrq = [] → ∃ t, exec (.basinSaveMode b e) s = .next t ∧ t.mem = s.mem
          ∧ (t.basinAt b).saved = y.saved ++ [g] ∧ (t.engineAt b e).run = some q))
    ∧ ∀ h rest r x, e < 4 → g.run = none → y.nextQueued (fun _ => true) = none → y.saved = h :: rest → h.run = some r → s.setAt b r.1 = some x →
      let w := s.rowWindow x.part b
      let back : Engine := { h with saving := false, bcy := 0, base := w.1, limit := w.2 }
      ∃ t, exec (.basinRunStart b e) s = .next t ∧ t.mem = s.mem ∧ t.engineAt b e = back ∧ (t.basinAt b).saved = rest

/-- 16 R301, R303 to R305; 15 R274: a row of another package is written for the ROUND it belongs to, or held; an acknowledgement
takes one row off the count; once a ROUND has all it waits for, ROUND<0> flips and the change places its markers; when the flip has
completed, the record is written, the sets go to the next round and the semaphores are signalled. -/
def Obligations.RoundEvents : Prop :=
  ∀ s : State,
    (∀ r : GatherRow, r.offset < 12 * 2 ^ 36 → r.offset % 256 = 0 →
      let b := (hbmPlace r.offset).1
      (s.roundOf r = none → ∃ t, exec (.allgatherRowReceive r) s = .next t ∧ t.mem = s.mem ∧ (t.basinAt b).heldRows = (s.basinAt b).heldRows ++ [r])
      ∧ (∀ i, s.roundOf r = some i → ∃ t, exec (.allgatherRowReceive r) s = .next t
        ∧ t.mem = (s.wrRow b ((hbmPlace r.offset).2 / 256) 0 ((lineBytes r.data 0 256).zipIdx.map (fun y => (y.1, r.pois.getLsbD (y.2 / 32))))).mem
        ∧ (t.rounds[i]?.map (·.rxdone)) = (s.rounds[i]?.map (fun x => x.rxdone + 1))
        ∧ (t.rounds[i]?.map (·.gathered)) = (s.rounds[i]?.map (fun x => x.gathered ++ [(b, (hbmPlace r.offset).2 / 256)]))
        ∧ ∀ j, j ≠ i → t.rounds[j]? = s.rounds[j]?))
    ∧ (∀ b k x, (s.basinAt b).sets.filter (fun x => x.2.agout ≠ 0) = [(k, x)] → s.setAt b k = some x → ∃ t z,
      exec (.allgatherAcknowledgement b) s = .next t ∧ t.mem = s.mem ∧ t.setAt b k = some z ∧ z = { x with agout := x.agout - 1 })
    ∧ ∀ i r, s.rounds[i]? = some r →
      (r.flip = none → s.roundReady r = true → s.flipping r.part = false → ∃ t c, exec (.roundBarrier i) s = .next t
        ∧ (t.partAt r.part).round = !(s.partAt r.part).round ∧ t.changes = s.changes ++ [c] ∧ c.part = r.part ∧ c.flip = true ∧ c.complete = none
        ∧ c.time = s.now / 9 ∧ t.rounds = s.rounds.set i { r with flip := some (s.now / 9) }
        ∧ t.mem = (r.gathered.foldl (fun (u : State) x => u.aliasRows x.1 x.2 1) ((s.roundSets r).foldl (fun (u : State) x => u.aliasSet x.1 x.2.2) s)).mem)
      ∧ (r.flip = none → s.roundReady r = false → exec (.roundBarrier i) s = .next s)
      ∧ (∀ f c, r.flip = some f → s.changes.find? (fun c => c.part = r.part && c.flip && c.complete.isSome) = some c → s.canWrite r.recLocs = true →
        r.handles = [] → r.semv = false → ∃ t, exec (.roundBarrierComplete i) s = .next t ∧ t.rounds = s.rounds.eraseIdx i
          ∧ t.changes = s.changes.filter (fun d => !(d.part = r.part && d.flip && d.complete.isSome))
          ∧ t.mem = (s.wrPieces r.recLocs (clean (roundRecord r [] (c.complete.getD 0)))).mem
          ∧ ∀ n, sget 0 (t.fctxAt r.k).csem n = if r.csem = some n then satAdd (sget 0 (s.fctxAt r.k).csem n) 1 else sget 0 (s.fctxAt r.k).csem n)
      ∧ (∀ f c h x, r.flip = some f → s.changes.find? (fun c => c.part = r.part && c.flip && c.complete.isSome) = some c → s.canWrite r.recLocs = true →
        r.handles = [h] → s.setAt h.1 h.2 = some x → ∃ t z, exec (.roundBarrierComplete i) s = .next t ∧ t.rounds = s.rounds.eraseIdx i
          ∧ t.setAt h.1 h.2 = some z ∧ z.round = (r.n + 1) % 256 ∧ z.segs = [] ∧ z.dups = 0 ∧ z.flags = 0 ∧ z.started = false)

/-! ### Registers reached from outside (00 R7; 14 R255; 19 R339; 21 R346, R350, R352; 23 R360, R367, R368, R370) -/

/-- 00 R7; 14 R242, R246, R247, R255; 19 R339; 21 R346, R350, R352; 23 R367, R368, R370: a read answers the register's value and clears it where its
code is RC; what a function is not bound to reads as zero and ignores writes; a write replaces the field that it may write, clamped or
with its reserved codes stored as 0; the side-band port reads telemetry and writes PCAP alone. -/
def Obligations.RegisterAccesses : Prop :=
  ∀ (s : State) (who : Requester),
    let answers (i : Instr) (x : List Byte) (t : State) : Prop := exec i s = .next t ∧ t.dev.answers = { who, data := x } :: s.dev.answers
      ∧ t.mem = s.mem ∧ t.ctxs = s.ctxs ∧ t.cores = s.cores
    let keeps (a : RegAddr) (x : Nat) : Prop := exec (.registerReadClear who a) s = .next (s.answer who (leBytes x 8))
    -- reads
    (s.reachable who = true →
      (∀ a, regExists a = false ∨ s.mayAccess who a = false → keeps a 0)
      ∧ (∀ b, b < 12 → s.mayAccess who (.basin b .duprej) = true →
        ∃ t, answers (.registerReadClear who (.basin b .duprej)) (leBytes (s.basinAt b).duprej.toNat 8) t
          ∧ t.basinAt b = { s.basinAt b with duprej := 0 } ∧ ∀ j, j ≠ b → t.basinAt j = s.basinAt j)
      ∧ (∀ b, b < 12 → s.mayAccess who (.basin b .mth) = true → ∃ t, answers (.registerReadClear who (.basin b .mth))
        (leBytes (s.basinAt b).mth.toNat 8) t ∧ ∀ j, t.basinAt j = s.basinAt j)
      ∧ (∀ b pc, b < 12 → pc < 64 → s.mayAccess who (.basin b (.chan pc .arrayCe)) = true →
        let ch := chanNo b pc
        (∃ t, answers (.registerReadClear who (.basin b (.chan pc .arrayCe))) (leBytes (s.chanAt ch).arrayCe.toNat 8) t
          ∧ t.chanAt ch = { s.chanAt ch with arrayCe := 0 })
        ∧ keeps (.basin b (.chan pc .pcfailed)) (if sget false s.mem.failed ch = true then 1 else 0))
      ∧ (∀ l d, l < 28 → d < 4 → d ∈ linkEnds l → s.mayAccess who (.die d (.chan l .linkCe)) = true →
        ∃ t, answers (.registerReadClear who (.die d (.chan l .linkCe))) (leBytes ((s.link l).ce d).toNat 8) t
          ∧ ∀ e, (t.link l).ce e = if e = d then 0 else (s.link l).ce e)
      ∧ (∀ x, x < 48 → s.mayAccess who (.slice x .jkill) = true →
        ∃ t, answers (.registerReadClear who (.slice x .jkill)) (leBytes (s.sliceAt x).jkill.toNat 8) t
          ∧ t.sliceAt x = { s.sliceAt x with jkill := 0 } ∧ ∀ j, j ≠ x → t.sliceAt j = s.sliceAt j)
      ∧ (∀ k, k < 2048 → s.mayAccess who (.ctx k .skewlate) = true →
        ∃ t, answers (.registerReadClear who (.ctx k .skewlate)) (leBytes (s.fctxAt k).skewlate.toNat 8) t
          ∧ t.fctxAt k = { s.fctxAt k with skewlate := 0 } ∧ ∀ j, j ≠ k → t.fctxAt j = s.fctxAt j)
      ∧ (∀ k, k < 2048 → s.mayAccess who (.ctx k .head) = true → keeps (.ctx k .head) (s.fctxAt k).head.toNat)
      ∧ (s.mayAccess who (.dev .capevt) = true → ∃ t, answers (.registerReadClear who (.dev .capevt)) (leBytes s.dev.capevt.toNat 8) t
        ∧ t.dev = { s.dev with capevt := 0, answers := t.dev.answers })
      ∧ (s.mayAccess who (.dev .pscale) = true → keeps (.dev .pscale) s.dev.pscale.toNat)
      ∧ (s.mayAccess who (.dev .fwsvn) = true → keeps (.dev .fwsvn) s.dev.fwsvn.toNat))
    -- who may reach what
    ∧ (∀ f k r, (∀ e, (s.fctxAt k).entry = some e → e.valid = true → e.func ≠ f) → s.mayAccess (.function f) (.ctx k r) = false)
    ∧ (∀ f, f ≠ 0 → ∀ r : DevReg, s.mayAccess (.function f) (.dev r) = false)
    ∧ (∀ k r, s.mayAccess .sideband (.ctx k r) = false)
    -- writes
    ∧ (∀ a v, regExists a = false ∨ s.mayAccess who a = false ∨ who = .sideband ∧ a ≠ .dev .pcap → exec (.registerWrite who a v) s = .next s)
    ∧ (∀ k v, k < 2048 → s.mayAccess who (.ctx k .tail) = true → who ≠ .sideband →
      let f := s.fctxAt k
      let writes (r : CtxReg) (g : FCtx) : Prop := ∃ t, exec (.registerWrite who (.ctx k r) v) s = .next t ∧ t = { s with fctxs := t.fctxs }
        ∧ t.fctxAt k = g ∧ ∀ j, j ≠ k → t.fctxAt j = s.fctxAt j
      writes .tail { f with tail := v.setWidth 24 } ∧ writes .pbase { f with pbase := v.setWidth 52 }
      ∧ (f.cstate = .stopped → writes .cpbase { f with cpbase := v.setWidth 52 } ∧ writes .cpsize { f with cpsize := v.setWidth 25 })
      ∧ (f.cstate ≠ .stopped → writes .cpbase f ∧ writes .cpsize f)
      ∧ ∀ n, n < 16 → ∃ t, exec (.registerWrite who (.ctx k (.csem n)) v) s = .next t
        ∧ ∀ i, sget 0 (t.fctxAt k).csem i = if i = n then satAdd (v.setWidth 32) (f.incsOf (s.now / 9) n) else sget 0 f.csem i)
    ∧ (∀ p v, p < 32 → s.dev.pcieUp = true →
      (∃ t, exec (.registerWrite (.function 0) (.part p .rtbase) v) s = .next t
        ∧ (t.partAt p).rtbase = if (s.partAt p).resident = none ∧ (s.partAt p).swapping = none then v.setWidth 51 else (s.partAt p).rtbase)
      ∧ (∃ t, exec (.registerWrite (.function 0) (.part p .cmpoff) v) s = .next t ∧ (t.partAt p).cmpoff = v)
      ∧ ∃ t, exec (.registerWrite (.function 0) (.part p (.log .elhead)) v) s = .next t
        ∧ t.partAt p = { s.partAt p with log := { (s.partAt p).log with head := v.setWidth 16 } })
    ∧ (∀ d (v : Word), d < 16 → s.dev.pcieUp = true →
      exec (.registerWrite (.function 0) (.die d .reset) v) s = if v.getLsbD 0 = true then exec (.dieReset d) s else .next s)
    ∧ (∀ i (v : Word), i < 704 → s.dev.pcieUp = true → exec (.registerWrite (.function 0) (.dev (.island i)) v) s
      = .next { s with dev := { s.dev with islandRaw := sset s.dev.islandRaw i (v.setWidth 4) } })
    ∧ (∀ v, let clamped := BitVec.ofNat 16 (min 3600 (max 1200 (v.toNat % 65536)))
      let puts (i : Instr) (x : Bool) : Prop :=
        exec i s = .next { s with dev := { s.dev with pcapNext := some (clamped, s.now / 9, x) } }
      puts (.pcapWrite .sideband v) true ∧ puts (.sidebandPcapAccess (some v)) true
      ∧ ((∀ y, s.dev.pcapNext ≠ some (y, s.now / 9, true)) → puts (.pcapWrite (.function 0) v) false)
      ∧ (∀ y, s.dev.pcapNext = some (y, s.now / 9, true) → exec (.pcapWrite (.function 0) v) s = .next s)
      ∧ ∀ f, f ≠ 0 → exec (.pcapWrite (.function f) v) s = .next s)
    ∧ (∀ d v,
      (d < 12 → ∃ t, exec (.scrubperWrite d false v) s = .next t ∧ t = { s with basins := t.basins }
        ∧ t.basinAt d = { s.basinAt d with scrubper := BitVec.ofNat 16 (max 60 (v.toNat % 65536)) } ∧ ∀ j, j ≠ d → t.basinAt j = s.basinAt j)
      ∧ (d < 4 → ∃ t, exec (.scrubperWrite d true v) s = .next t ∧ t = { s with dies := t.dies }
        ∧ t.dieAt d = { s.dieAt d with scrubper := BitVec.ofNat 16 (max 60 (v.toNat % 65536)) } ∧ ∀ j, j ≠ d → t.dieAt j = s.dieAt j)
      ∧ (d < 12 → ∃ t, exec (.mthWrite d v) s = .next t ∧ t = { s with basins := t.basins }
        ∧ t.basinAt d = { s.basinAt d with mth := BitVec.ofNat 16 (max 64 (v.toNat % 65536)) } ∧ ∀ j, j ≠ d → t.basinAt j = s.basinAt j)
      ∧ (12 ≤ d → exec (.mthWrite d v) s = .fault .noSuchUnit))
    ∧ (∀ v, (∃ t, exec (.funcmodeWrite (.function 0) v) s = .next t ∧ t = { s with dev := { s.dev with funcmode := t.dev.funcmode } }
        ∧ (∀ i, i = 3 ∨ i = 7 ∨ i = 11 → t.dev.funcmode.getLsbD i = v.getLsbD i)
        ∧ (t.dev.funcmode.extractLsb' 0 3).toNat = (if v.toNat % 8 < 4 then v.toNat % 8 else 0)
        ∧ (t.dev.funcmode.extractLsb' 4 3).toNat = (if v.toNat / 16 % 8 < 4 then v.toNat / 16 % 8 else 0)
        ∧ (t.dev.funcmode.extractLsb' 8 3).toNat = (if v.toNat / 256 % 8 < 3 then v.toNat / 256 % 8 else 0))
      ∧ exec (.funcmodeWrite .sideband v) s = .next s ∧ ∀ f, f ≠ 0 → exec (.funcmodeWrite (.function f) v) s = .next s)
    -- the side-band port
    ∧ (∀ b, b < 12 → ∃ t, exec (.sidebandTelemetryRead (.basin b .bkheld)) s = .next t ∧ t.basinAt b = { s.basinAt b with bkheld := 0 }
      ∧ t.dev.answers = { who := .sideband, data := leBytes (s.basinAt b).bkheld.toNat 8 } :: s.dev.answers)
    ∧ (∀ c, c < 576 → exec (.sidebandTelemetryRead (.overruns c)) s = .next (s.answer .sideband (leBytes (s.coreAt c).overruns 8)))
    ∧ (∀ k r, exec (.sidebandTelemetryRead (.ctx k r)) s = .next (s.answer .sideband (leBytes 0 8)))
    ∧ (∀ i, (s.dev.log.size.toNat ≤ i → exec (.sidebandErrlogRead i) s = .next (s.answer .sideband []))
      ∧ (i < s.dev.log.size.toNat →
        let ps := pieces (s.dev.log.base.toNat + 64 * i) 64 64
        let w := s.waitFor (some 0) (s.vaWait 0 .load ps)
        (∀ b, w = none → s.readVa 0 .load ps = .ok b → exec (.sidebandErrlogRead i) s = .next (s.answer .sideband (pvals b)))
        ∧ (∀ e, w = none → s.readVa 0 .load ps = .error e → exec (.sidebandErrlogRead i) s = .next (s.answer .sideband []))
        ∧ ∀ t, w = some t → exec (.sidebandErrlogRead i) s = .next t))
    ∧ exec (.sidebandPcapAccess none) s = .next (s.answer .sideband (leBytes s.dev.pcap.toNat 2))

/-! ### Reliability events (10 R218; 11 R232; 19 R336 to R339; 21 R344 to R352) -/

/-- 10 R218; 11 R232; 19 R336, R338, R339; 21 R344, R346, R347, R350 to R353: retries and replays are counted, the eighth failed retry makes a channel
FAILED and the sixteenth failed replay begins a retrain; a link that has not retrained in 50 µs is lost with the launches that use it;
their tasks are frozen and keep their registers; ACTs count per row, an alert at the threshold resets the rows near it and blocks the
bank for tRFM, in which its requests wait and are counted once; a die reset counts; a core with an error moves to its cluster's spare
or is lost; a gated bank wakes cleared. Which end of a link replays is free (log 43). -/
def Obligations.RasEvents : Prop :=
  ∀ s : State,
    (∀ u pc, unitOk u pc = true →
      let ch := chanNo u pc
      let c := s.chanAt ch
      (∃ t, exec (.tsvifRetry u pc true) s = .next t ∧ t.chanAt ch = { c with tsvifCe := satInc c.tsvifCe, retries := 0 } ∧ t.mem = s.mem)
      ∧ (c.retries < 7 → ∃ t, exec (.tsvifRetry u pc false) s = .next t ∧ t.chanAt ch = { c with retries := c.retries + 1 } ∧ t.mem = s.mem)
      ∧ (7 ≤ c.retries → ∃ t, exec (.tsvifRetry u pc false) s = .next t ∧ t.chanAt ch = { c with retries := 0 }
        ∧ sget false t.mem.failed ch = true))
    ∧ (∀ u pc bank row, bankOk u pc bank row = true →
      let b := s.basinAt u
      let ch := chanNo u pc
      let key := bankKey pc bank
      let acts (t : State) (r : Nat) : Nat := sget 0 (t.basinAt u).acts (actKey pc bank r)
      (sget? b.blocked key = none → sget? b.alertDue key = none →
        let first := s.mem.fills.find? (fun f => inBank u key f && rowOf (f.line * 256) % 2 ^ 17 = row)
        ∃ t, exec (.dramAct u pc bank row) s = .next t ∧ acts t row = acts s row + 1 ∧ t.mem = s.mem
        ∧ (∀ j, j ≠ actKey pc bank row → sget 0 (t.basinAt u).acts j = sget 0 b.acts j)
        ∧ sget? (t.basinAt u).alertDue key = if s.mthOf u ≤ acts s row + 1 then some (row, first) else none)
      ∧ (sget? b.blocked key = none → sget? b.alertDue key ≠ none → exec (.dramAct u pc bank row) s = .next s)
      ∧ (sget? b.blocked key ≠ none →
        let new (f : FillReq) : Bool := inBank u key f && !f.waited
        ∃ t, exec (.dramAct u pc bank row) s = .next t
        ∧ t.chanAt ch = { s.chanAt ch with bankBackoff := satAdd (s.chanAt ch).bankBackoff (s.mem.fills.filter new).length }
        ∧ t.mem.fills = s.mem.fills.map (fun f => if new f = true then { f with waited := true } else f)
        ∧ t.mem.bytes = s.mem.bytes ∧ acts t row = acts s row)
      ∧ (∀ r f, sget? b.alertDue key = some (r, f) → r ≠ row → exec (.rowAlert u pc bank row) s = .next s)
      ∧ (sget? b.alertDue key = none → exec (.rowAlert u pc bank row) s = .next s)
      ∧ (∀ f, sget? b.alertDue key = some (row, f) → f = none ∨ s.askedRow u key row = none → ∃ t, exec (.rowAlert u pc bank row) s = .next t
        ∧ t.chanAt ch = { s.chanAt ch with alerts := satInc (s.chanAt ch).alerts } ∧ sget? (t.basinAt u).alertDue key = none
        ∧ sget? (t.basinAt u).blocked key = some (s.now / 9 + Config.trfm ch)
        ∧ (∀ r, r < 2 ^ 15 → acts t r = if r ≤ row + 2 ∧ row ≤ r + 2 then 0 else acts s r))
      ∧ (∀ x, row = 0 → sget? b.blocked key = some x → ∃ t, exec (.trfmExpiry u pc bank) s = .next t ∧ t.now = max s.now (9 * x)
        ∧ sget? (t.basinAt u).blocked key = none ∧ t.mem = s.mem)
      ∧ (∃ t, exec (.regularRefresh u pc bank row) s = .next t ∧ acts t row = 0 ∧ t.mem = s.mem
        ∧ ∀ j, j ≠ actKey pc bank row → sget 0 (t.basinAt u).acts j = sget 0 b.acts j))
    ∧ (∀ u pc bank row, bankOk u pc bank row = false → exec (.dramAct u pc bank row) s = .fault .noSuchUnit)
    ∧ (∀ u, unitOk u 0 = true →
      let n := (s.basinAt u).scrubnext
      let pc := n / rowsOf u
      let bank := n % rowsOf u / 2 ^ 15
      let total := rowsOf u * chansOf u
      let span := (if u < 12 then s.scrubPeriod u false else s.scrubPeriod (u - 12) true) * 60 * 10 ^ 9 * 9
      (sget false s.mem.failed (chanNo u pc) = true → ∃ t, exec (.patrolScrubRow u []) s = .next t ∧ t.mem = s.mem
        ∧ (t.basinAt u).scrubnext = (pc + 1) * rowsOf u % total)
      ∧ (sget false s.mem.failed (chanNo u pc) = false → (∀ line, s.lineBusy line = false) → sget? (s.basinAt u).alertDue (bankKey pc bank) = none →
        (sget? (s.basinAt u).blocked (bankKey pc bank) = none → ∃ t, exec (.patrolScrubRow u []) s = .next t ∧ t.mem = s.mem
          ∧ (t.basinAt u).scrubnext = (n + 1) % total ∧ t.now = max s.now ((s.basinAt u).scrubdue / total)
          ∧ (t.basinAt u).scrubdue = (s.basinAt u).scrubdue + span
          ∧ sget 0 (t.basinAt u).acts (actKey pc bank (n % 2 ^ 15)) = sget 0 (s.basinAt u).acts (actKey pc bank (n % 2 ^ 15)) + 1)
        ∧ (sget? (s.basinAt u).blocked (bankKey pc bank) ≠ none → ∃ t, exec (.patrolScrubRow u []) s = .next t ∧ t.mem = s.mem
          ∧ (t.basinAt u).scrubnext = n ∧ (t.basinAt u).scrubWaited = true)))
    ∧ (∀ l, l < 28 →
      let x := s.link l
      let replayed (t : State) : Prop := ∃ d ∈ linkEnds l, ∀ e, (t.link l).ce e = if e = d then satInc (x.ce d) else x.ce e
      (x.st ≠ .up → ∀ g, exec (.linkReplay l g) s = .next s)
      ∧ (x.st = .up →
        (∃ t, exec (.linkReplay l true) s = .next t ∧ replayed t ∧ (t.link l).replays = 0 ∧ (t.link l).st = .up ∧ t.mem = s.mem)
        ∧ (x.replays < 15 → ∃ t, exec (.linkReplay l false) s = .next t ∧ t.mem = s.mem ∧ replayed t ∧ (t.link l).replays = x.replays + 1
          ∧ (t.link l).st = .up)
        ∧ (15 ≤ x.replays → ∃ t, exec (.linkReplay l false) s = .next t ∧ replayed t ∧ (t.link l).replays = 0
          ∧ (t.link l).st = .retraining (s.now / 9)))
      ∧ (∀ b, x.st = .retraining b →
        (∃ t, exec (.linkRetrained l) s = .next t ∧ t.link l = { x with st := .up } ∧ t.mem = s.mem)
        ∧ ∃ t, exec (.linkRetrainTimeout l) s = .next t ∧ t.now = max s.now (9 * (b + 50000)) ∧ t.link l = { x with st := .failed }
          ∧ ∀ k e, (s.fctxAt k).launch = some e → e.ending = none → e.links.contains l = true → ∃ m, (t.fctxAt k).launch = some m ∧ m.ending = some 1
            ∧ ∀ c ∈ e.cores, c < 576 → ∀ j, j < 8 →
              let y := ctxKey (s.baseOf k + c) j
              (t.ctxAt y).s = (s.ctxAt y).s ∧ (t.ctxAt y).v = (s.ctxAt y).v ∧ (t.ctxAt y).acc = (s.ctxAt y).acc ∧ (t.ctxAt y).pc = (s.ctxAt y).pc
                ∧ ((t.ctxAt y).phase = .free ↔ (s.ctxAt y).phase = .free) ∧ ((s.ctxAt y).phase ≠ .free → (t.ctxAt y).jobs = [])))
    ∧ (∀ die, die < 16 →
      let x := s.dieAt die
      (∀ b, x.lastReset = some b → s.now / 9 < b + 100000 → exec (.dieReset die) s = .next s)
      ∧ ((∀ b, x.lastReset = some b → b + 100000 ≤ s.now / 9) → ∃ t, exec (.dieReset die) s = .next t
        ∧ (t.dieAt die).incarnation = x.incarnation + 1 ∧ (t.dieAt die).lastReset = some (s.now / 9)
        ∧ (die < 4 → ∀ c, 144 * die ≤ c → c < 144 * die + 144 → (t.coreAt c).l1 = [] ∧ (t.coreAt c).wb = [] ∧ (t.coreAt c).rtlb = [])))
    ∧ (∀ core, core < 576 → s.freezable core = true → core ∉ s.dev.lost →
      (∀ t, s.dev.spareUsed.getLsbD (core / 8) = false → s.waitFor none (s.emptyWait core) = some t → exec (.coreRepair core true []) s = .next t)
      ∧ (s.dev.spareUsed.getLsbD (core / 8) = false → s.waitFor none (s.emptyWait core) = none → ∃ t, exec (.coreRepair core true []) s = .next t
        ∧ sget? t.dev.coremap core = some 8 ∧ t.dev.spareUsed.getLsbD (core / 8) = true ∧ t.dev.lost = s.dev.lost ∧ (t.coreAt core).l1 = []
        ∧ ∀ k, (t.ctxAt k).s = (s.ctxAt k).s ∧ (t.ctxAt k).v = (s.ctxAt k).v ∧ (t.ctxAt k).w = (s.ctxAt k).w ∧ (t.ctxAt k).acc = (s.ctxAt k).acc
          ∧ (t.ctxAt k).pc = (s.ctxAt k).pc ∧ (t.ctxAt k).phase = (s.ctxAt k).phase)
      ∧ (∀ readable bad, readable = false ∨ s.dev.spareUsed.getLsbD (core / 8) = true → ∃ t, exec (.coreRepair core readable bad) s = .next t
        ∧ (t.coreAt core).frozen = true ∧ t.dev.lost = s.dev.lost ++ [core] ∧ t.dev.coremap = s.dev.coremap))
    ∧ (∀ core bank, bank < 8 →
      ((s.coreAt core).gated.getLsbD bank = false → exec (.scratchpadBankWake core bank) s = .next s)
      ∧ ((s.coreAt core).gated.getLsbD bank = true → ∃ t, exec (.scratchpadBankWake core bank) s = .next t
        ∧ (∀ j, j < 8 → (t.coreAt core).gated.getLsbD j = ((s.coreAt core).gated.getLsbD j && decide (j ≠ bank)))
        ∧ (∀ a, mget t.mem.bytes a =
            if spadAddr core (bank * 2 ^ 18) ≤ a ∧ a < spadAddr core ((bank + 1) * 2 ^ 18) then 0 else mget s.mem.bytes a)
        ∧ t.mem.l2 = s.mem.l2 ∧ t.ctxs = s.ctxs))

/-! ### Boot, power and the host (10 R214; 14 R254; 16 R289; 23 R360 to R367, R370) -/

/-- 00 R5, R8; 23 R360 to R363, R367 to R370: power-up and a device reset leave the reset state with the boot ROM measured, BOOTGO starts
verification, whose checks fail in the order of their codes or start the firmware and extend MR1; a power window measures, moves
PSCALE and the steps of the core islands by the cap, and takes over a written PCAP; an interrupt that waits is posted when the PCIe
link comes up. That State.reset stands before the boot ROM has
started, and that a reset drops what HBM held, are the model's choices (log 20). -/
def Obligations.BootAndPower : Prop :=
  ∀ s : State,
    let fresh (t : State) : Prop := t.now = 0 ∧ t.ctxs = [] ∧ t.cores = [] ∧ t.fctxs = [] ∧ t.parts = [] ∧ t.basins = [] ∧ t.slices = []
      ∧ t.dev.bootstat = 0 ∧ t.dev.funcmode = 0 ∧ t.dev.pcap = 3600 ∧ t.dev.pscale = 256 ∧ t.dev.mr1 = 0 ∧ t.mem.l2 = [] ∧ t.mem.dir = []
      ∧ ∀ a, mget t.mem.bytes a = if 2 ^ 50 ≤ a ∧ a < 2 ^ 60 then mget s.mem.bytes a else 0
    let h := s.window 0 256
    let len := leNat ((h.drop 8).take 4)
    let body := s.window 256 len
    let refuses (c : Byte) : Prop := exec .bootVerifyComplete s = .next { s with dev := { s.dev with verifying := false, bootstat := c } }
    (s.dev.powered = true → exec .powerUp s = .next s)
    ∧ (∃ t, (s.dev.powered = false → exec .powerUp s = .next t) ∧ exec .sidebandDeviceReset s = .next t ∧ fresh t ∧ t.dev.powered = true
      ∧ t.dev.mr0 = extendMr 0 Config.bootRom)
    ∧ (∃ t, exec .powerOff s = .next t ∧ fresh t ∧ t.dev.powered = false ∧ t.dev.mr0 = 0)
    ∧ (s.dev.bootstat ≠ 0x80 → s.dev.verifying = false → exec .bootgo s = .next { s with dev := { s.dev with verifying := true, bootstat := 0x40 } })
    ∧ (s.dev.bootstat = 0x80 ∨ s.dev.verifying = true → exec .bootgo s = .next s)
    ∧ (s.dev.verifying = false → exec .bootVerifyComplete s = .next s)
    ∧ (s.dev.verifying = true →
      (leNat (h.take 4) ≠ 0x5A465731 → refuses 0x01) ∧ (len = 0 ∨ 2 ^ 26 - 256 < len → refuses 0x01)
      ∧ (leNat (h.take 4) = 0x5A465731 → 1 ≤ len → len ≤ 2 ^ 26 - 256 → leNat (h.drop 183) = 0 →
        let pub := (h.drop 12).take 57
        let svn := leNat ((h.drop 4).take 4)
        (shake256 pub 32 ≠ leBytes Config.keyDigest.toNat 32 → refuses 0x02)
        ∧ (shake256 pub 32 = leBytes Config.keyDigest.toNat 32 →
          (svn < Config.minSvn → refuses 0x03)
          ∧ (Config.minSvn ≤ svn →
            let good := edVerify Config.ed448Cofactored pub (h.take 69 ++ body) ((h.drop 69).take 114)
            (good = false → refuses 0x04)
            ∧ (good = true → ∃ t, exec .bootVerifyComplete s = .next t ∧ t.dev.bootstat = 0x80 ∧ t.dev.verifying = false ∧ t.mem = s.mem
              ∧ t.dev.mr1 = extendMr s.dev.mr1 body ∧ t.dev.mr0 = s.dev.mr0 ∧ t.dev.fwsvn = BitVec.ofNat 8 svn
              ∧ ∀ i ∈ [648, 649, 650, 651], (t.dev.island i).gated = false)))))
    ∧ exec .sidebandBootRead s = .next (s.answer .sideband [s.dev.bootstat, s.dev.fwsvn])
    ∧ (∃ t, exec (.pcieLinkChange false) s = .next t ∧ t = { s with dev := { s.dev with pcieUp := false } })
    ∧ (∀ k n, s.dev.pcieUp = false → s.dev.intwait = [(k, n)] → ∃ t, exec (.pcieLinkChange true) s = .next t ∧ t.dev.pcieUp = true
      ∧ t.dev.intwait = [] ∧ t.dev.logq = [] ∧ (t.fctxAt k).msix = (s.fctxAt k).msix ++ [n] ∧ ∀ j, j ≠ k → t.fctxAt j = s.fctxAt j)
    ∧ ∀ pwr : BitVec 16,
      let above := decide (s.dev.pcap.toNat < pwr.toNat)
      let under := decide (pwr.toNat < s.dev.pcap.toNat - s.dev.pcap.toNat / 16)
      let runs (i : Nat) : Bool := decide (i < 648) && !(s.dev.island i).gated
      let slowable : Prop := ∃ i, runs i = true ∧ (s.dev.island i).step ≠ 0
      let two := decide (s.dev.funcmode.toNat / 256 % 8 = 2)
      ∃ t, exec (.powerWindow pwr) s = .next t ∧ t.dev.pwr = pwr ∧ t.dev.windows = s.dev.windows + 1
      ∧ t.now = max s.now (900000 * (s.dev.windows + 1))
      ∧ t.dev.pcap = (match s.dev.pcapNext with | some x => x.1 | none => s.dev.pcap) ∧ t.dev.pcapNext = none
      ∧ t.dev.refills = max s.dev.refills (t.now / 9000)
      ∧ t.dev.capevt = (if above = true ∧ s.dev.capevt ≠ 0xFFFFFFFF then s.dev.capevt + 1 else s.dev.capevt)
      ∧ (s.dev.funcmode.getLsbD 11 = false → 32 ≤ s.dev.pscale.toNat → s.dev.pscale.toNat ≤ 256 →
        let slows : Prop := above = true ∧ slowable ∧ (two = true ∨ s.dev.pscale.toNat = 32)
        (slows → t.dev.pscale = s.dev.pscale ∧ ∀ i, t.dev.island i =
          if runs i = true then { s.dev.island i with step := BitVec.ofNat 4 ((s.dev.island i).step.toNat - 1) } else s.dev.island i)
        ∧ (above = true → ¬ slows → t.dev.pscale.toNat = max (s.dev.pscale.toNat - 32) 32 ∧ ∀ i, t.dev.island i = s.dev.island i)
        ∧ (above = false → under = false → t.dev.pscale = s.dev.pscale ∧ ∀ i, t.dev.island i = s.dev.island i)
        ∧ (under = true → above = false → t.dev.pscale.toNat = min (s.dev.pscale.toNat + 16) 256 ∧ ∀ i, t.dev.island i =
          if runs i = true ∧ s.dev.pscale = 256 then { s.dev.island i with step := BitVec.ofNat 4 (min ((s.dev.island i).step.toNat + 1) 15) }
          else s.dev.island i))
      ∧ (s.dev.funcmode.getLsbD 11 = true →
        t.dev.pscale.toNat = (match s.dev.pscaleRaw with | some x => min 256 (max 32 x.toNat) | none => s.dev.pscale.toNat)
        ∧ ∀ i x, s.dev.islandRaw = [(i, x)] → ∀ j, t.dev.island j = if j = i then { s.dev.island i with step := x } else s.dev.island j)

/-- 23 R364 to R366: the firmware, once it runs, answers every SPDM request; a certificate ends with the identity's public key, a
challenge's response with a signature of the identity key, and measurements with the blocks that the requester sees, each register
whole. What else stands in a response, the certificate's octets among it, is open, and the encodings of the algorithms are SPDM's own
(logs 21, 46). -/
def Obligations.Attestation : Prop :=
  ∀ (s : State) (who : Requester) (n m : Nat),
    let tells (i : Instr) (kind : Nat) (tail : List Byte → List Byte) : Prop :=
      let o := Config.spdmOctets kind s.freeIx
      exec i s = .next (({ s with freeIx := s.freeIx + 1 } : State).answer who (o ++ tail o))
    let all := [Instr.getVersion who n, .getCapabilities who n, .negotiateAlgorithms who n, .getDigests who n, .getCertificate who n,
                .challenge who n, .getMeasurements who n m]
    let chain := Config.certificate ++ edPublic (identitySeed s.dev.fwsvn)
    let block (i : Nat) (x : BitVec 512) : List Byte := leBytes i 1 ++ leBytes x.toNat 64
    (s.dev.bootstat ≠ 0x80 → ∀ i ∈ all, exec i s = .next s)
    ∧ (s.dev.bootstat = 0x80 → s.reachable who = true →
      tells (.getVersion who n) (0x84 + 256 * n) (fun _ => []) ∧ tells (.getCapabilities who n) (0xE1 + 256 * n) (fun _ => [])
      ∧ tells (.negotiateAlgorithms who n) (0xE3 + 256 * n) (fun _ => leBytes 0x800 4 ++ leBytes 0x20 4 ++ leBytes 1 4)
      ∧ tells (.getDigests who n) (0x81 + 256 * n) (fun _ => sha3512 chain)
      ∧ tells (.getCertificate who n) (0x82 + 256 * n) (fun _ => chain)
      ∧ tells (.challenge who n) (0x83 + 256 * n) (fun o => edSign (identitySeed s.dev.fwsvn) o)
      ∧ (who = .sideband →
        (m = 1 → tells (.getMeasurements who n m) (0xE0 + 256 * n) (fun _ => block 1 s.dev.mr0))
        ∧ (m = 2 → tells (.getMeasurements who n m) (0xE0 + 256 * n) (fun _ => block 2 s.dev.mr1))
        ∧ (m = 0xFF → tells (.getMeasurements who n m) (0xE0 + 256 * n) (fun _ => block 1 s.dev.mr0 ++ block 2 s.dev.mr1))
        ∧ (m = 3 → tells (.getMeasurements who n m) (0xE0 + 256 * n) (fun _ => [])))
      ∧ (∀ f p, who = .function f → f ≠ 0 → s.boundTo f = some p →
        (m = 3 → tells (.getMeasurements who n m) (0xE0 + 256 * n) (fun _ => block 3 (s.partAt p).pmr0))
        ∧ (m = 0xFF → tells (.getMeasurements who n m) (0xE0 + 256 * n) (fun _ => block 1 s.dev.mr0 ++ block 2 s.dev.mr1
          ++ block 3 (s.partAt p).pmr0 ++ block 4 (s.partAt p).pmr1 ++ block 5 (s.partAt p).pmr2))
        ∧ (m = 4 → tells (.getMeasurements who n m) (0xE0 + 256 * n) (fun _ => block 4 (s.partAt p).pmr1))
        ∧ (m = 5 → tells (.getMeasurements who n m) (0xE0 + 256 * n) (fun _ => block 5 (s.partAt p).pmr2)))
      ∧ ∀ p, who = .function 0 → p < 32 →
        (m = 8 * p + 3 → tells (.getMeasurements who n m) (0xE0 + 256 * n) (fun _ => block 3 (s.partAt p).pmr0))
        ∧ (m = 8 * p + 4 → tells (.getMeasurements who n m) (0xE0 + 256 * n) (fun _ => block 4 (s.partAt p).pmr1))
        ∧ (m = 8 * p + 5 → tells (.getMeasurements who n m) (0xE0 + 256 * n) (fun _ => block 5 (s.partAt p).pmr2)))

/-- 10 R214; 14 R254 to R256; 16 R289; 23 R360, R361: inbound writes and reads go through the partition's ranges or to the boot window,
or to registers, poisoned ones poison what they write, and all wait for their lines; another package loads and stores window 000; a partition's configuration is taken whole or
refused whole. What of an inbound request does not translate is the model's choice (log 22). -/
def Obligations.HostTraffic : Prop :=
  ∀ s : State,
    (s.dev.pcieUp = false → ∀ va p n (d : List Byte), exec (.inboundMemoryTlp va p n d) s = .next s ∧ exec (.inboundPoisonedTlp va p d) s = .next s)
    ∧ (s.dev.pcieUp = true → ∀ (va p n : Nat) (d : List Byte), d ≠ [] →
      let off := va - 0x10000000
      let boot : Prop := p = 34 ∧ 0x10000000 ≤ va ∧ va < 0x14000000
      (boot → s.dev.bootstat ≠ 0x80 → off + d.length ≤ 2 ^ 26 →
        ∀ i bad, (i, bad) ∈ [(Instr.inboundMemoryTlp va p n d, false), (.inboundPoisonedTlp va p d, true)] →
        exec i s = .next { s with mem := s.mem.wr (bootAddr off) (d.map (fun b => (b, bad))) })
      ∧ (boot → s.dev.bootstat ≠ 0x80 → off + n ≤ 2 ^ 26 → exec (.inboundMemoryTlp va p n []) s = .next (s.answer (.function 0) (s.window off n)))
      ∧ (boot → s.dev.bootstat = 0x80 → exec (.inboundMemoryTlp va p n d) s = .next s
        ∧ exec (.inboundMemoryTlp va p n []) s = .next (s.answer (.function 0) (List.replicate n 0)))
      ∧ (∀ f k r, p = 32 + 8 * f → f ≤ 256 → k < 2048 → (s.fctxs.map (·.1)).find? (s.bound f) = some k → ctxRegAt va = some r →
        exec (.inboundMemoryTlp va p 8 []) s = exec (.registerReadClear (.function f) (.ctx k r)) s
        ∧ exec (.inboundMemoryTlp va p n d) s = exec (.registerWrite (.function f) (.ctx k r) (BitVec.ofNat 64 (leNat d))) s)
      ∧ (∀ r, p = 34 → devRegAt va = some r → exec (.inboundMemoryTlp va p 8 []) s = exec (.registerReadClear (.function 0) (.dev r)) s
        ∧ exec (.inboundMemoryTlp va p n d) s = exec (.registerWrite (.function 0) (.dev r) (BitVec.ofNat 64 (leNat d))) s)
      ∧ (p < 32 →
        let w := s.waitFor (some p) (s.vaWait p .store (pieces va d.length d.length))
        (∀ l, w = none → s.locsVa p .store (pieces va d.length d.length) = .ok l →
          exec (.inboundMemoryTlp va p n d) s = .next (s.wrPieces l (clean d))
          ∧ exec (.inboundPoisonedTlp va p d) s = .next (s.wrPieces l (d.map (fun b => (b, true)))))
        ∧ (∀ e, w = none → s.locsVa p .store (pieces va d.length d.length) = .error e → exec (.inboundMemoryTlp va p n d) s = .next s)
        ∧ ∀ t, w = some t → exec (.inboundMemoryTlp va p n d) s = .next t ∧ exec (.inboundPoisonedTlp va p d) s = .next t)
      ∧ (p < 32 →
        let w := s.waitFor (some p) (s.vaWait p .load (pieces va n n))
        (∀ l, w = none → s.locsVa p .load (pieces va n n) = .ok l →
          exec (.inboundMemoryTlp va p n []) s = .next (s.answer (.function 0) (pvals (s.rdPieces l))))
        ∧ (∀ e, w = none → s.locsVa p .load (pieces va n n) = .error e →
          exec (.inboundMemoryTlp va p n []) s = .next (s.answer (.function 0) (List.replicate n 0)))
        ∧ ∀ t, w = some t → exec (.inboundMemoryTlp va p n []) s = .next t))
    ∧ (∀ (off n : Nat) (d : List Byte) (bad : Bool),
      let m := if d = [] then n else d.length
      let l := windowPlaces off m
      let w := s.waitFor none (firstWait (l.map (fun p => s.locWait p.1)))
      (d ≠ [] → off + m ≤ 12 * 2 ^ 36 → w = none →
        exec (.remotePackageRequest off n d bad none) s = .next (s.wrPieces l (d.map (fun b => (b, bad)))))
      ∧ (d = [] → off + m ≤ 12 * 2 ^ 36 → w = none →
        exec (.remotePackageRequest off n d bad none) s = .next (s.answer (.function 0) (pvals (s.rdPieces l))))
      ∧ (∀ t, off + m ≤ 12 * 2 ^ 36 → w = some t → exec (.remotePackageRequest off n d bad none) s = .next t)
      ∧ (12 * 2 ^ 36 < off + m → exec (.remotePackageRequest off n d bad none) s = .next s))
    ∧ (∀ p (c : PartConfig),
      (32 ≤ p ∨ s.dev.pcieUp = false ∨ (s.partAt p).resident.isSome = true ∨ (s.partAt p).swapping.isSome = true ∨ s.clustersApart p c = false ∨ tableLegal c = false ∨ s.contextsLegal p c = false →
        exec (.partitionConfiguration p c) s = .next s)
      ∧ (p < 32 → s.dev.pcieUp = true → (s.partAt p).resident = none → (s.partAt p).swapping = none → s.clustersApart p c = true →
        s.contextsLegal p c = true → tableLegal c = true → c.handlers = [] → c.objects = [] → s.tableBusy c = false →
        let u := s.loadTable p c
        u.waitFor (some p) (u.configWait p c) = none →
        ∃ t, exec (.partitionConfiguration p c) s = .next t ∧ (t.partAt p).config = some c ∧ (t.partAt p).rtbase = BitVec.ofNat 51 c.rtbase
          ∧ (t.partAt p).rtcap = BitVec.ofNat 17 c.rtcap ∧ (t.partAt p).rtn = BitVec.ofNat 17 c.table.length
          ∧ (t.partAt p).leasens = BitVec.ofNat 16 c.leasens ∧ (t.partAt p).pmr0 = extendMr 0 (Config.configOctets c)
          ∧ (t.partAt p).pmr1 = 0 ∧ (t.partAt p).pmr2 = 0
          ∧ (∀ i, 652 ≤ i → i < 700 → (t.dev.island i).gated = false)
          ∧ (∀ x ∈ coresOf c.clusters, sget (x % 8) s.dev.coremap x < 9 → (t.dev.island (s.islandOf x)).gated = true)
          ∧ (∀ x ∈ c.contexts, t.fctxAt (p * 64 + x.1) = { entry := some x.2, rate := x.2.rate })
          ∧ ∀ k, k / 64 ≠ p → t.fctxAt k = s.fctxAt k))

/-! ### Encodings (03, 17 R313) -/

/-- 03 R40, R41, R45 to R54; 05, closing program; 06 R114; 08 R169; 17 R313: the words that the spec spells out, and words put together
from its tables, decode to the instructions they stand for, and unassigned opcodes are ILLEGAL. -/
def Obligations.DecodesSpecWords : Prop :=
  decodeSlot 0 0xA4000702 = .ok (.loop { g := ⟨0, false⟩, c := 7, tgt := 2 })
  ∧ decodeSlot 0 0x80021406 = .ok (.cmpi { g := ⟨0, false⟩, d := 2, a := 5, ta := false, cc := 0, imm := 6 })
  ∧ decodeSlot 1 0x14081470 = .ok (.div { g := ⟨0, false⟩, d := 8, a := 5, b := 7, ta := false, tb := false })
  ∧ decodeSlot 0 0xA1000006 = .ok (.br { g := ⟨2, false⟩, tgt := 6 })
  ∧ decodeSlot 0 0xBC000700 = .ok (.trap { g := ⟨0, false⟩, code := 7 })
  ∧ decodeSlot 0 0x04092000 = .ok (.add { g := ⟨0, false⟩, d := 9, a := 8, b := 0, ta := false, tb := false })
  ∧ decodeSlot 1 0xB8000000 = .ok (.yieldEnd ⟨0, false⟩)
  ∧ decodeSlot 0 0xC0040200 = .ok (.mfs { g := ⟨0, false⟩, d := 4, sreg := 0x20 })
  ∧ decodeSlot 0 0xC4090050 = .ok (.mts { g := ⟨0, false⟩, src := 9, sreg := 5, ta := false })
  ∧ decodeSlot 2 0x095A44821060 = .ok (.vfma ⟨2, 5, 5, false, 2, 9, 1, 2, 3, false, false, false, false⟩)
  ∧ decodeSlot 5 0x06A00310 = .ok (.fexp2 { w := 2, et := 5, rm := 0, nf := false, m := 0, d := 3, a := 4, ta := false })
  ∧ decodeSlot 6 0x1004524602000008 = .ok (.atomAdd { g := ⟨0, false⟩, fn := 1, d := 5, a := 9, x := 6, ta := false, tb := false, f := 8 })
  ∧ decodeSlot 7 0x020C414000000010 = .ok (.ld { g := ⟨0, false⟩, fn := 3, d := 4, a := 5, x := 0, ta := false, tb := false, f := 16 })
  ∧ decodeSlot 7 0x601FA00026002400 = .ok (.mma ⟨⟨0, false⟩, 7, 7, 1, 0, 0, 0, 2, 3, 0, 0, 4, true, false, false⟩)
  ∧ decodeXjet 0x0003028B = some (.jl2rd { d := 5, s := 6, t := 0 })
  ∧ (∀ n w, n < 2 → w.toNat / 2 ^ 26 % 64 ∈ [36, 37, 38, 39] ∨ 51 ≤ w.toNat / 2 ^ 26 % 64 → decodeSlot n w = .error .illegal)
  ∧ (∀ n w, 2 ≤ n → n < 5 → 42 ≤ w.toNat / 2 ^ 41 % 128 → decodeSlot n w = .error .illegal)
  ∧ (∀ w, w.toNat / 2 ^ 26 % 64 = 9 ∨ 17 ≤ w.toNat / 2 ^ 26 % 64 → decodeSlot 5 w = .error .illegal)
  ∧ ∀ n w, n = 6 ∨ n = 7 → w.toNat / 2 ^ 57 ∈ [11, 12, 13, 14, 15, 26, 27, 28, 29, 30, 31, 45, 46, 47, 54, 55] ∨ 61 ≤ w.toNat / 2 ^ 57 →
    decodeSlot n w = .error .illegal

/-- 03 R45 to R54, R60; 17 R313: decoding and encoding agree for every instruction with a word: the words that decode to a slot
instruction are exactly its encoding, where it is well-formed, and so for an Xjet instruction, whose unused register fields are zero. -/
def Obligations.RoundTrip : Prop :=
  ∀ i : Instr,
    (∀ w, decodeScalar w = .ok i ↔ encScalar i = some w ∧ i.WellFormed) ∧ (∀ w, decodeVector w = .ok i ↔ encVector i = some w ∧ i.WellFormed)
    ∧ (∀ w, decodeSpecial w = .ok i ↔ encSpecial i = some w ∧ i.WellFormed)
    ∧ (∀ w, decodeMemory w = .ok i ↔ encMemory i = some w ∧ i.WellFormed)
    ∧ ∀ w, decodeXjet w = some i ↔ encXjet i = some w ∧ i.WellFormed

/-! ### The step (03 R41, R60, R61; 09 R199; 23 R361) -/

/-- 03 R40, R41, R57, R60, R61; 05 R104; 17 R313; 19 R325; 23 R361: where a core's running context stands at a bundle whose bytes are
those of one slot, the step runs the decoded instruction and ends the issue, or freezes, asks for a walk or traps as the checks say; a
jet core's step runs the Xjet instruction at its pc; an event of the agenda is its own execution; and where no order from outside says
who moves, one of the agents that can does. What the core's cycle does before the issue stands in the premises: arrivals take dormant
contexts, due refills are made, and divider results land. -/
def Obligations.StepRunsDecoded : Prop :=
  (∀ (off n : Nat) (body : List Byte) (w : Word), n < 8 → leNat ((body.drop off).take 2) = 2 ^ n →
    leNat ((body.drop (off + 2)).take (slotBytes n)) = w.toNat →
    bundleAt body off = { off, hdr := BitVec.ofNat 16 (2 ^ n), slots := [(n, w)] })
  ∧ (∀ (s : State) (rest : List Turn) (c k : Nat) (b : RawBundle), s.agenda = .core c :: rest → s.dev.bootstat = 0x80 → c < 576 →
    s.coreStands c = false →
    let a : State := { s with agenda := rest, now := max s.now (s.coreAt c).busy, cur := { core := c } }
    let d : State := (match a.core.resident with | some q => a.takeArrivals c q 16 | none => a).refilled.landDividers
    d.core.running = some k →
    let u : State := { d with cur := { core := c, slot := k } }
    u.core.stopped = false → u.bankStops = false → u.ctx.pend = [] → u.ctx.phase = .running → u.ctx.phwait = [] → u.ctx.hold = 0 → u.ctx.bend = false →
    u.ctx.nextDeferred = none → u.ctx.mmaTrap = none → u.bundle = some b →
    ∃ v : State, v.ctxAt u.key = u.ctx ∧ (∀ j, v.ctxAt j = u.ctxAt j) ∧ (∀ j, v.coreAt j = u.coreAt j)
      ∧ v = { u with ctxs := v.ctxs, cores := v.cores }
      ∧ (∀ n i, v.bundleVerdict b = .go [(n, i)] → ∃ t, exec i { v with cur := { core := c, slot := k, bslot := n, go := true } } = .next t
        ∧ step s = .next ({ t with cur := { t.cur with bslot := 0, go := false } }.finishIssue b.hdr))
      ∧ (v.bundleVerdict b = .freeze → step s = .next v.frozenCycle)
      ∧ (∀ va, v.bundleVerdict b = .walk va → step s = .next (v.walkCycle va))
      ∧ (∀ x, v.bundleVerdict b = .trap x → step s = .next (v.trapHere x)))
  ∧ (∀ (s : State) (rest : List Turn) (sl w : Nat) (r : JetRun) (i : Instr), s.agenda = .jet sl :: rest → s.dev.bootstat = 0x80 → sl < 48 →
    let u : State := { s with agenda := rest, cur := { jet := sl } }
    (s.sliceAt sl).run = some r → u.jetFetch sl r = some (4, w) → decodeXjet (BitVec.ofNat 32 w) = some i → step s = exec i u)
  ∧ (∀ (s : State) (rest : List Turn) (i : Instr), s.agenda = .event i :: rest →
    (moveKind i = .firmware → s.dev.bootstat = 0x80 → step s = exec i { s with agenda := rest })
    ∧ (moveKind i = .firmware → s.dev.bootstat ≠ 0x80 → step s = .next { s with agenda := rest })
    ∧ (moveKind i = .control → s.dev.powered = true → step s = exec i { s with agenda := rest }))
  ∧ (∀ s : State, s.agenda = [] → s.dev.bootstat = 0x80 → s.moves ≠ [] → ∃ m ∈ s.moves, step s = m { s with freeIx := s.freeIx + 1 })
  ∧ ∀ (s : State) (rest : List Turn) (c k : Nat) (i : Instr), s.agenda = .onCtx c k i :: rest → s.dev.bootstat = 0x80 → k < 8 → c < 8192 →
    c ∉ s.dev.lost → moveKind i = .ctx → step s = exec i { s with agenda := rest, cur := { core := c, slot := k } }

/-! ### Reset (00 R3, R8; 02 R25, R31) -/

/-- 00 R3, R8; 02 R24, R25, R31; 14 R242; 15 R263; 16; 21 R350, R352; 23 R361, R368, R370: what reset leaves. Where the spec gives a
register no reset value, zero is the model's choice (log 3), and so is what memory reads (log 2). -/
def Obligations.ResetState : Prop :=
  let s := State.reset
  s.now = 0 ∧ s.mem.bytes.wf = true ∧ (∀ a, mget s.mem.bytes a = 0) ∧ s.mem.l2 = [] ∧ s.mem.dir = [] ∧ s.mem.pois = []
  ∧ (∀ k, let c := s.ctxAt k
    (∀ i, c.sreg i = { v := 0, full := true, pois := false }) ∧ (∀ i, i ≠ 0 → (c.preg i).v = false ∧ (c.preg i).pois = false) ∧ (c.preg 0).v = true
    ∧ (∀ i, (c.vreg i).v = 0 ∧ (c.vreg i).full = true ∧ (c.vreg i).pois = 0)
    ∧ (∀ a row q, c.accQuarter a row q = 0) ∧ c.accEmpty = 0 ∧ c.vflg = 0 ∧ c.mflags = 0 ∧ c.rmode = 0 ∧ c.ebudget = 0
    ∧ c.trapcause = 0 ∧ c.retstack = [] ∧ c.phase = .free)
  ∧ (∀ k, (s.coreAt k).hmax = 8 ∧ (∀ n, (s.coreAt k).sem n = 0) ∧ (s.coreAt k).qstat = 0 ∧ (s.coreAt k).running = none)
  ∧ (∀ k, (s.fctxAt k).cstate = .stopped ∧ (s.fctxAt k).head = 0 ∧ (s.fctxAt k).tail = 0 ∧ (s.fctxAt k).entry = none
    ∧ ∀ n, sget 0 (s.fctxAt k).csem n = 0)
  ∧ (∀ p, (s.partAt p).leasens = 8000 ∧ (s.partAt p).rtn = 0 ∧ (s.partAt p).round = false ∧ (s.partAt p).resident = none)
  ∧ (∀ b, (s.basinAt b).scrubper = 1440 ∧ (s.basinAt b).mth = 2048 ∧ (s.basinAt b).sets = [] ∧ (s.basinAt b).progs = [])
  ∧ (∀ d, (s.dieAt d).incarnation = 0 ∧ (s.dieAt d).scrubper = 1440)
  ∧ (∀ x, (s.sliceAt x).run = none ∧ (s.sliceAt x).fifo = [])
  ∧ s.dev.bootstat = 0 ∧ s.dev.funcmode = 0 ∧ s.dev.pcap = 3600 ∧ s.dev.pscale = 256 ∧ s.dev.mr0 = 0 ∧ s.dev.mr1 = 0 ∧ s.dev.lost = []
  ∧ ∀ i, (s.dev.island i).gated = decide (i < 700)

/-! ### Frames and the memory's form -/

/-- 02 R24, R33, R34; 08 R161: the frame of every slot instruction as it issues: memory, the registers on which results land, the
accumulators, flags and trap registers keep their values, since results land later; nothing outside the issuing context, its core
and the phasers changes, and of other contexts nothing unless the instruction changes a phaser's members. -/
def Obligations.SlotEffectsFrame : Prop :=
  ∀ (i : Instr) (m : SlotSem) (s t : State), semOf i = some m → s.cur.go = true ∨ s.passes i m → exec i s = .next t →
    t.mem = s.mem ∧ t.now = s.now ∧ t.cur = s.cur ∧ t.fctxs = s.fctxs ∧ t.parts = s.parts ∧ t.basins = s.basins ∧ t.slices = s.slices
    ∧ t.dies = s.dies ∧ t.dev = s.dev ∧ t.objects = s.objects ∧ t.deliveries = s.deliveries
    ∧ (∀ k, (t.ctxAt k).sameRegisters (s.ctxAt k) ∧ (t.ctxAt k).pc = (s.ctxAt k).pc ∧ (t.ctxAt k).phase = (s.ctxAt k).phase)
    ∧ (∀ c, c ≠ s.cur.core → t.coreAt c = s.coreAt c) ∧ (∀ n, t.core.sem n = s.core.sem n)
    ∧ ((∀ r, i ≠ .phreg r ∧ i ≠ .phdrop r ∧ i ≠ .cpabort r) → ∀ k, k ≠ s.key → t.ctxAt k = s.ctxAt k)

/-- The byte memory keeps its canonical form under every slot instruction, whether it issues, freezes or traps (a trap may write an
error record, 21 R347): addresses strictly rising and no entry that equals what an unlisted address reads as. -/
def Obligations.SlotsKeepMemoryForm : Prop :=
  ∀ (i : Instr) (m : SlotSem) (s t : State), semOf i = some m → s.mem.bytes.wf = true → exec i s = .next t → t.mem.bytes.wf = true

/-- The byte memory keeps its canonical form under every step, whoever moves: what a store, a landing granule, an eviction, a scrub, a
record, a reset or the host's traffic writes. -/
def Obligations.StepsKeepMemoryForm : Prop :=
  ∀ s t : State, s.mem.bytes.wf = true → step s = .next t → t.mem.bytes.wf = true
end
end

