-- ==== Sys2Proof/Laws/State.lean ====
section
/-! SUPPORT. What each update of the state leaves in each field of it, and the laws of its sparse maps. -/

namespace Sys2Proof.Machine

/-! ### Sparse maps -/

@[simp] theorem sget_sset_same {α : Type} (d : α) (m : SMap α) (k : Nat) (v : α) : sget d (sset m k v) k = v := by
  induction m with
  | nil => simp [sset, sget]
  | cons e m ih =>
    obtain ⟨j, w⟩ := e
    simp only [sset]
    split
    · simp [sget]
    · split
      · simp [sget]
      · rename_i h1 h2
        have : j ≠ k := fun h => h2 h.symm
        simp [sget, this, ih]

theorem sget_sset_ne {α : Type} (d : α) (m : SMap α) (k j : Nat) (v : α) (h : j ≠ k) : sget d (sset m k v) j = sget d m j := by
  induction m with
  | nil => simp [sset, sget, Ne.symm h]
  | cons e m ih =>
    obtain ⟨i, w⟩ := e
    simp only [sset]
    split
    · simp [sget, Ne.symm h]
    · split
      · rename_i h1 h2
        subst h2
        simp [sget, Ne.symm h]
      · simp only [sget]
        split <;> simp_all

@[simp] theorem sget_some_sset_same {α : Type} (m : SMap α) (k : Nat) (v : α) : sget? (sset m k v) k = some v := by
  induction m with
  | nil => simp [sset, sget?]
  | cons e m ih =>
    obtain ⟨j, w⟩ := e
    simp only [sset]
    split
    · simp [sget?]
    · split
      · simp [sget?]
      · rename_i h1 h2
        have : j ≠ k := fun h => h2 h.symm
        simp [sget?, this, ih]

@[simp] theorem sget_smod_same {α : Type} (d : α) (m : SMap α) (k : Nat) (f : α → α) : sget d (smod d m k f) k = f (sget d m k) := by
  simp [smod]

theorem sget_smod_ne {α : Type} (d : α) (m : SMap α) (k j : Nat) (f : α → α) (h : j ≠ k) : sget d (smod d m k f) j = sget d m j := by
  simp [smod, sget_sset_ne _ _ _ _ _ h]

/-! ### Fields of the state -/

/-! `State.setCtxAt` -/

@[simp] theorem State.setCtxAt_now (s : State) (k : Nat) (c : Ctx) : (s.setCtxAt k c).now = s.now := rfl
@[simp] theorem State.setCtxAt_agenda (s : State) (k : Nat) (c : Ctx) : (s.setCtxAt k c).agenda = s.agenda := rfl
@[simp] theorem State.setCtxAt_cur (s : State) (k : Nat) (c : Ctx) : (s.setCtxAt k c).cur = s.cur := rfl
@[simp] theorem State.setCtxAt_freeIx (s : State) (k : Nat) (c : Ctx) : (s.setCtxAt k c).freeIx = s.freeIx := rfl
@[simp] theorem State.setCtxAt_ctxs (s : State) (k : Nat) (c : Ctx) : (s.setCtxAt k c).ctxs = sset s.ctxs k c := rfl
@[simp] theorem State.setCtxAt_cores (s : State) (k : Nat) (c : Ctx) : (s.setCtxAt k c).cores = s.cores := rfl
@[simp] theorem State.setCtxAt_mem (s : State) (k : Nat) (c : Ctx) : (s.setCtxAt k c).mem = s.mem := rfl
@[simp] theorem State.setCtxAt_phasers (s : State) (k : Nat) (c : Ctx) : (s.setCtxAt k c).phasers = s.phasers := rfl
@[simp] theorem State.setCtxAt_dies (s : State) (k : Nat) (c : Ctx) : (s.setCtxAt k c).dies = s.dies := rfl
@[simp] theorem State.setCtxAt_parts (s : State) (k : Nat) (c : Ctx) : (s.setCtxAt k c).parts = s.parts := rfl
@[simp] theorem State.setCtxAt_fctxs (s : State) (k : Nat) (c : Ctx) : (s.setCtxAt k c).fctxs = s.fctxs := rfl
@[simp] theorem State.setCtxAt_deliveries (s : State) (k : Nat) (c : Ctx) : (s.setCtxAt k c).deliveries = s.deliveries := rfl
@[simp] theorem State.setCtxAt_copyjobs (s : State) (k : Nat) (c : Ctx) : (s.setCtxAt k c).copyjobs = s.copyjobs := rfl
@[simp] theorem State.setCtxAt_changes (s : State) (k : Nat) (c : Ctx) : (s.setCtxAt k c).changes = s.changes := rfl
@[simp] theorem State.setCtxAt_rounds (s : State) (k : Nat) (c : Ctx) : (s.setCtxAt k c).rounds = s.rounds := rfl
@[simp] theorem State.setCtxAt_basins (s : State) (k : Nat) (c : Ctx) : (s.setCtxAt k c).basins = s.basins := rfl
@[simp] theorem State.setCtxAt_slices (s : State) (k : Nat) (c : Ctx) : (s.setCtxAt k c).slices = s.slices := rfl
@[simp] theorem State.setCtxAt_objects (s : State) (k : Nat) (c : Ctx) : (s.setCtxAt k c).objects = s.objects := rfl
@[simp] theorem State.setCtxAt_calls (s : State) (k : Nat) (c : Ctx) : (s.setCtxAt k c).calls = s.calls := rfl
@[simp] theorem State.setCtxAt_dev (s : State) (k : Nat) (c : Ctx) : (s.setCtxAt k c).dev = s.dev := rfl

/-! `State.setCtx` -/

@[simp] theorem State.setCtx_now (s : State) (c : Ctx) : (s.setCtx c).now = s.now := rfl
@[simp] theorem State.setCtx_agenda (s : State) (c : Ctx) : (s.setCtx c).agenda = s.agenda := rfl
@[simp] theorem State.setCtx_cur (s : State) (c : Ctx) : (s.setCtx c).cur = s.cur := rfl
@[simp] theorem State.setCtx_freeIx (s : State) (c : Ctx) : (s.setCtx c).freeIx = s.freeIx := rfl
@[simp] theorem State.setCtx_ctxs (s : State) (c : Ctx) : (s.setCtx c).ctxs = sset s.ctxs s.key c := rfl
@[simp] theorem State.setCtx_cores (s : State) (c : Ctx) : (s.setCtx c).cores = s.cores := rfl
@[simp] theorem State.setCtx_mem (s : State) (c : Ctx) : (s.setCtx c).mem = s.mem := rfl
@[simp] theorem State.setCtx_phasers (s : State) (c : Ctx) : (s.setCtx c).phasers = s.phasers := rfl
@[simp] theorem State.setCtx_dies (s : State) (c : Ctx) : (s.setCtx c).dies = s.dies := rfl
@[simp] theorem State.setCtx_parts (s : State) (c : Ctx) : (s.setCtx c).parts = s.parts := rfl
@[simp] theorem State.setCtx_fctxs (s : State) (c : Ctx) : (s.setCtx c).fctxs = s.fctxs := rfl
@[simp] theorem State.setCtx_deliveries (s : State) (c : Ctx) : (s.setCtx c).deliveries = s.deliveries := rfl
@[simp] theorem State.setCtx_copyjobs (s : State) (c : Ctx) : (s.setCtx c).copyjobs = s.copyjobs := rfl
@[simp] theorem State.setCtx_changes (s : State) (c : Ctx) : (s.setCtx c).changes = s.changes := rfl
@[simp] theorem State.setCtx_rounds (s : State) (c : Ctx) : (s.setCtx c).rounds = s.rounds := rfl
@[simp] theorem State.setCtx_basins (s : State) (c : Ctx) : (s.setCtx c).basins = s.basins := rfl
@[simp] theorem State.setCtx_slices (s : State) (c : Ctx) : (s.setCtx c).slices = s.slices := rfl
@[simp] theorem State.setCtx_objects (s : State) (c : Ctx) : (s.setCtx c).objects = s.objects := rfl
@[simp] theorem State.setCtx_calls (s : State) (c : Ctx) : (s.setCtx c).calls = s.calls := rfl
@[simp] theorem State.setCtx_dev (s : State) (c : Ctx) : (s.setCtx c).dev = s.dev := rfl

/-! `State.modCtxAt` -/

@[simp] theorem State.modCtxAt_now (s : State) (k : Nat) (f : Ctx → Ctx) : (s.modCtxAt k f).now = s.now := rfl
@[simp] theorem State.modCtxAt_agenda (s : State) (k : Nat) (f : Ctx → Ctx) : (s.modCtxAt k f).agenda = s.agenda := rfl
@[simp] theorem State.modCtxAt_cur (s : State) (k : Nat) (f : Ctx → Ctx) : (s.modCtxAt k f).cur = s.cur := rfl
@[simp] theorem State.modCtxAt_freeIx (s : State) (k : Nat) (f : Ctx → Ctx) : (s.modCtxAt k f).freeIx = s.freeIx := rfl
@[simp] theorem State.modCtxAt_ctxs (s : State) (k : Nat) (f : Ctx → Ctx) : (s.modCtxAt k f).ctxs = sset s.ctxs k (f (s.ctxAt k)) := rfl
@[simp] theorem State.modCtxAt_cores (s : State) (k : Nat) (f : Ctx → Ctx) : (s.modCtxAt k f).cores = s.cores := rfl
@[simp] theorem State.modCtxAt_mem (s : State) (k : Nat) (f : Ctx → Ctx) : (s.modCtxAt k f).mem = s.mem := rfl
@[simp] theorem State.modCtxAt_phasers (s : State) (k : Nat) (f : Ctx → Ctx) : (s.modCtxAt k f).phasers = s.phasers := rfl
@[simp] theorem State.modCtxAt_dies (s : State) (k : Nat) (f : Ctx → Ctx) : (s.modCtxAt k f).dies = s.dies := rfl
@[simp] theorem State.modCtxAt_parts (s : State) (k : Nat) (f : Ctx → Ctx) : (s.modCtxAt k f).parts = s.parts := rfl
@[simp] theorem State.modCtxAt_fctxs (s : State) (k : Nat) (f : Ctx → Ctx) : (s.modCtxAt k f).fctxs = s.fctxs := rfl
@[simp] theorem State.modCtxAt_deliveries (s : State) (k : Nat) (f : Ctx → Ctx) : (s.modCtxAt k f).deliveries = s.deliveries := rfl
@[simp] theorem State.modCtxAt_copyjobs (s : State) (k : Nat) (f : Ctx → Ctx) : (s.modCtxAt k f).copyjobs = s.copyjobs := rfl
@[simp] theorem State.modCtxAt_changes (s : State) (k : Nat) (f : Ctx → Ctx) : (s.modCtxAt k f).changes = s.changes := rfl
@[simp] theorem State.modCtxAt_rounds (s : State) (k : Nat) (f : Ctx → Ctx) : (s.modCtxAt k f).rounds = s.rounds := rfl
@[simp] theorem State.modCtxAt_basins (s : State) (k : Nat) (f : Ctx → Ctx) : (s.modCtxAt k f).basins = s.basins := rfl
@[simp] theorem State.modCtxAt_slices (s : State) (k : Nat) (f : Ctx → Ctx) : (s.modCtxAt k f).slices = s.slices := rfl
@[simp] theorem State.modCtxAt_objects (s : State) (k : Nat) (f : Ctx → Ctx) : (s.modCtxAt k f).objects = s.objects := rfl
@[simp] theorem State.modCtxAt_calls (s : State) (k : Nat) (f : Ctx → Ctx) : (s.modCtxAt k f).calls = s.calls := rfl
@[simp] theorem State.modCtxAt_dev (s : State) (k : Nat) (f : Ctx → Ctx) : (s.modCtxAt k f).dev = s.dev := rfl

/-! `State.modCtx` -/

@[simp] theorem State.modCtx_now (s : State) (f : Ctx → Ctx) : (s.modCtx f).now = s.now := rfl
@[simp] theorem State.modCtx_agenda (s : State) (f : Ctx → Ctx) : (s.modCtx f).agenda = s.agenda := rfl
@[simp] theorem State.modCtx_cur (s : State) (f : Ctx → Ctx) : (s.modCtx f).cur = s.cur := rfl
@[simp] theorem State.modCtx_freeIx (s : State) (f : Ctx → Ctx) : (s.modCtx f).freeIx = s.freeIx := rfl
@[simp] theorem State.modCtx_ctxs (s : State) (f : Ctx → Ctx) : (s.modCtx f).ctxs = sset s.ctxs s.key (f s.ctx) := rfl
@[simp] theorem State.modCtx_cores (s : State) (f : Ctx → Ctx) : (s.modCtx f).cores = s.cores := rfl
@[simp] theorem State.modCtx_mem (s : State) (f : Ctx → Ctx) : (s.modCtx f).mem = s.mem := rfl
@[simp] theorem State.modCtx_phasers (s : State) (f : Ctx → Ctx) : (s.modCtx f).phasers = s.phasers := rfl
@[simp] theorem State.modCtx_dies (s : State) (f : Ctx → Ctx) : (s.modCtx f).dies = s.dies := rfl
@[simp] theorem State.modCtx_parts (s : State) (f : Ctx → Ctx) : (s.modCtx f).parts = s.parts := rfl
@[simp] theorem State.modCtx_fctxs (s : State) (f : Ctx → Ctx) : (s.modCtx f).fctxs = s.fctxs := rfl
@[simp] theorem State.modCtx_deliveries (s : State) (f : Ctx → Ctx) : (s.modCtx f).deliveries = s.deliveries := rfl
@[simp] theorem State.modCtx_copyjobs (s : State) (f : Ctx → Ctx) : (s.modCtx f).copyjobs = s.copyjobs := rfl
@[simp] theorem State.modCtx_changes (s : State) (f : Ctx → Ctx) : (s.modCtx f).changes = s.changes := rfl
@[simp] theorem State.modCtx_rounds (s : State) (f : Ctx → Ctx) : (s.modCtx f).rounds = s.rounds := rfl
@[simp] theorem State.modCtx_basins (s : State) (f : Ctx → Ctx) : (s.modCtx f).basins = s.basins := rfl
@[simp] theorem State.modCtx_slices (s : State) (f : Ctx → Ctx) : (s.modCtx f).slices = s.slices := rfl
@[simp] theorem State.modCtx_objects (s : State) (f : Ctx → Ctx) : (s.modCtx f).objects = s.objects := rfl
@[simp] theorem State.modCtx_calls (s : State) (f : Ctx → Ctx) : (s.modCtx f).calls = s.calls := rfl
@[simp] theorem State.modCtx_dev (s : State) (f : Ctx → Ctx) : (s.modCtx f).dev = s.dev := rfl

/-! `State.setCoreAt` -/

@[simp] theorem State.setCoreAt_now (s : State) (k : Nat) (x : Core) : (s.setCoreAt k x).now = s.now := rfl
@[simp] theorem State.setCoreAt_agenda (s : State) (k : Nat) (x : Core) : (s.setCoreAt k x).agenda = s.agenda := rfl
@[simp] theorem State.setCoreAt_cur (s : State) (k : Nat) (x : Core) : (s.setCoreAt k x).cur = s.cur := rfl
@[simp] theorem State.setCoreAt_freeIx (s : State) (k : Nat) (x : Core) : (s.setCoreAt k x).freeIx = s.freeIx := rfl
@[simp] theorem State.setCoreAt_ctxs (s : State) (k : Nat) (x : Core) : (s.setCoreAt k x).ctxs = s.ctxs := rfl
@[simp] theorem State.setCoreAt_cores (s : State) (k : Nat) (x : Core) : (s.setCoreAt k x).cores = sset s.cores k x := rfl
@[simp] theorem State.setCoreAt_mem (s : State) (k : Nat) (x : Core) : (s.setCoreAt k x).mem = s.mem := rfl
@[simp] theorem State.setCoreAt_phasers (s : State) (k : Nat) (x : Core) : (s.setCoreAt k x).phasers = s.phasers := rfl
@[simp] theorem State.setCoreAt_dies (s : State) (k : Nat) (x : Core) : (s.setCoreAt k x).dies = s.dies := rfl
@[simp] theorem State.setCoreAt_parts (s : State) (k : Nat) (x : Core) : (s.setCoreAt k x).parts = s.parts := rfl
@[simp] theorem State.setCoreAt_fctxs (s : State) (k : Nat) (x : Core) : (s.setCoreAt k x).fctxs = s.fctxs := rfl
@[simp] theorem State.setCoreAt_deliveries (s : State) (k : Nat) (x : Core) : (s.setCoreAt k x).deliveries = s.deliveries := rfl
@[simp] theorem State.setCoreAt_copyjobs (s : State) (k : Nat) (x : Core) : (s.setCoreAt k x).copyjobs = s.copyjobs := rfl
@[simp] theorem State.setCoreAt_changes (s : State) (k : Nat) (x : Core) : (s.setCoreAt k x).changes = s.changes := rfl
@[simp] theorem State.setCoreAt_rounds (s : State) (k : Nat) (x : Core) : (s.setCoreAt k x).rounds = s.rounds := rfl
@[simp] theorem State.setCoreAt_basins (s : State) (k : Nat) (x : Core) : (s.setCoreAt k x).basins = s.basins := rfl
@[simp] theorem State.setCoreAt_slices (s : State) (k : Nat) (x : Core) : (s.setCoreAt k x).slices = s.slices := rfl
@[simp] theorem State.setCoreAt_objects (s : State) (k : Nat) (x : Core) : (s.setCoreAt k x).objects = s.objects := rfl
@[simp] theorem State.setCoreAt_calls (s : State) (k : Nat) (x : Core) : (s.setCoreAt k x).calls = s.calls := rfl
@[simp] theorem State.setCoreAt_dev (s : State) (k : Nat) (x : Core) : (s.setCoreAt k x).dev = s.dev := rfl

/-! `State.modCoreAt` -/

@[simp] theorem State.modCoreAt_now (s : State) (k : Nat) (f : Core → Core) : (s.modCoreAt k f).now = s.now := rfl
@[simp] theorem State.modCoreAt_agenda (s : State) (k : Nat) (f : Core → Core) : (s.modCoreAt k f).agenda = s.agenda := rfl
@[simp] theorem State.modCoreAt_cur (s : State) (k : Nat) (f : Core → Core) : (s.modCoreAt k f).cur = s.cur := rfl
@[simp] theorem State.modCoreAt_freeIx (s : State) (k : Nat) (f : Core → Core) : (s.modCoreAt k f).freeIx = s.freeIx := rfl
@[simp] theorem State.modCoreAt_ctxs (s : State) (k : Nat) (f : Core → Core) : (s.modCoreAt k f).ctxs = s.ctxs := rfl
@[simp] theorem State.modCoreAt_cores (s : State) (k : Nat) (f : Core → Core) : (s.modCoreAt k f).cores = sset s.cores k (f (s.coreAt k)) := rfl
@[simp] theorem State.modCoreAt_mem (s : State) (k : Nat) (f : Core → Core) : (s.modCoreAt k f).mem = s.mem := rfl
@[simp] theorem State.modCoreAt_phasers (s : State) (k : Nat) (f : Core → Core) : (s.modCoreAt k f).phasers = s.phasers := rfl
@[simp] theorem State.modCoreAt_dies (s : State) (k : Nat) (f : Core → Core) : (s.modCoreAt k f).dies = s.dies := rfl
@[simp] theorem State.modCoreAt_parts (s : State) (k : Nat) (f : Core → Core) : (s.modCoreAt k f).parts = s.parts := rfl
@[simp] theorem State.modCoreAt_fctxs (s : State) (k : Nat) (f : Core → Core) : (s.modCoreAt k f).fctxs = s.fctxs := rfl
@[simp] theorem State.modCoreAt_deliveries (s : State) (k : Nat) (f : Core → Core) : (s.modCoreAt k f).deliveries = s.deliveries := rfl
@[simp] theorem State.modCoreAt_copyjobs (s : State) (k : Nat) (f : Core → Core) : (s.modCoreAt k f).copyjobs = s.copyjobs := rfl
@[simp] theorem State.modCoreAt_changes (s : State) (k : Nat) (f : Core → Core) : (s.modCoreAt k f).changes = s.changes := rfl
@[simp] theorem State.modCoreAt_rounds (s : State) (k : Nat) (f : Core → Core) : (s.modCoreAt k f).rounds = s.rounds := rfl
@[simp] theorem State.modCoreAt_basins (s : State) (k : Nat) (f : Core → Core) : (s.modCoreAt k f).basins = s.basins := rfl
@[simp] theorem State.modCoreAt_slices (s : State) (k : Nat) (f : Core → Core) : (s.modCoreAt k f).slices = s.slices := rfl
@[simp] theorem State.modCoreAt_objects (s : State) (k : Nat) (f : Core → Core) : (s.modCoreAt k f).objects = s.objects := rfl
@[simp] theorem State.modCoreAt_calls (s : State) (k : Nat) (f : Core → Core) : (s.modCoreAt k f).calls = s.calls := rfl
@[simp] theorem State.modCoreAt_dev (s : State) (k : Nat) (f : Core → Core) : (s.modCoreAt k f).dev = s.dev := rfl

/-! `State.modCore` -/

@[simp] theorem State.modCore_now (s : State) (f : Core → Core) : (s.modCore f).now = s.now := rfl
@[simp] theorem State.modCore_agenda (s : State) (f : Core → Core) : (s.modCore f).agenda = s.agenda := rfl
@[simp] theorem State.modCore_cur (s : State) (f : Core → Core) : (s.modCore f).cur = s.cur := rfl
@[simp] theorem State.modCore_freeIx (s : State) (f : Core → Core) : (s.modCore f).freeIx = s.freeIx := rfl
@[simp] theorem State.modCore_ctxs (s : State) (f : Core → Core) : (s.modCore f).ctxs = s.ctxs := rfl
@[simp] theorem State.modCore_cores (s : State) (f : Core → Core) : (s.modCore f).cores = sset s.cores s.cur.core (f s.core) := rfl
@[simp] theorem State.modCore_mem (s : State) (f : Core → Core) : (s.modCore f).mem = s.mem := rfl
@[simp] theorem State.modCore_phasers (s : State) (f : Core → Core) : (s.modCore f).phasers = s.phasers := rfl
@[simp] theorem State.modCore_dies (s : State) (f : Core → Core) : (s.modCore f).dies = s.dies := rfl
@[simp] theorem State.modCore_parts (s : State) (f : Core → Core) : (s.modCore f).parts = s.parts := rfl
@[simp] theorem State.modCore_fctxs (s : State) (f : Core → Core) : (s.modCore f).fctxs = s.fctxs := rfl
@[simp] theorem State.modCore_deliveries (s : State) (f : Core → Core) : (s.modCore f).deliveries = s.deliveries := rfl
@[simp] theorem State.modCore_copyjobs (s : State) (f : Core → Core) : (s.modCore f).copyjobs = s.copyjobs := rfl
@[simp] theorem State.modCore_changes (s : State) (f : Core → Core) : (s.modCore f).changes = s.changes := rfl
@[simp] theorem State.modCore_rounds (s : State) (f : Core → Core) : (s.modCore f).rounds = s.rounds := rfl
@[simp] theorem State.modCore_basins (s : State) (f : Core → Core) : (s.modCore f).basins = s.basins := rfl
@[simp] theorem State.modCore_slices (s : State) (f : Core → Core) : (s.modCore f).slices = s.slices := rfl
@[simp] theorem State.modCore_objects (s : State) (f : Core → Core) : (s.modCore f).objects = s.objects := rfl
@[simp] theorem State.modCore_calls (s : State) (f : Core → Core) : (s.modCore f).calls = s.calls := rfl
@[simp] theorem State.modCore_dev (s : State) (f : Core → Core) : (s.modCore f).dev = s.dev := rfl

/-! `State.modMem` -/

@[simp] theorem State.modMem_now (s : State) (f : Mem → Mem) : (s.modMem f).now = s.now := rfl
@[simp] theorem State.modMem_agenda (s : State) (f : Mem → Mem) : (s.modMem f).agenda = s.agenda := rfl
@[simp] theorem State.modMem_cur (s : State) (f : Mem → Mem) : (s.modMem f).cur = s.cur := rfl
@[simp] theorem State.modMem_freeIx (s : State) (f : Mem → Mem) : (s.modMem f).freeIx = s.freeIx := rfl
@[simp] theorem State.modMem_ctxs (s : State) (f : Mem → Mem) : (s.modMem f).ctxs = s.ctxs := rfl
@[simp] theorem State.modMem_cores (s : State) (f : Mem → Mem) : (s.modMem f).cores = s.cores := rfl
@[simp] theorem State.modMem_mem (s : State) (f : Mem → Mem) : (s.modMem f).mem = f s.mem := rfl
@[simp] theorem State.modMem_phasers (s : State) (f : Mem → Mem) : (s.modMem f).phasers = s.phasers := rfl
@[simp] theorem State.modMem_dies (s : State) (f : Mem → Mem) : (s.modMem f).dies = s.dies := rfl
@[simp] theorem State.modMem_parts (s : State) (f : Mem → Mem) : (s.modMem f).parts = s.parts := rfl
@[simp] theorem State.modMem_fctxs (s : State) (f : Mem → Mem) : (s.modMem f).fctxs = s.fctxs := rfl
@[simp] theorem State.modMem_deliveries (s : State) (f : Mem → Mem) : (s.modMem f).deliveries = s.deliveries := rfl
@[simp] theorem State.modMem_copyjobs (s : State) (f : Mem → Mem) : (s.modMem f).copyjobs = s.copyjobs := rfl
@[simp] theorem State.modMem_changes (s : State) (f : Mem → Mem) : (s.modMem f).changes = s.changes := rfl
@[simp] theorem State.modMem_rounds (s : State) (f : Mem → Mem) : (s.modMem f).rounds = s.rounds := rfl
@[simp] theorem State.modMem_basins (s : State) (f : Mem → Mem) : (s.modMem f).basins = s.basins := rfl
@[simp] theorem State.modMem_slices (s : State) (f : Mem → Mem) : (s.modMem f).slices = s.slices := rfl
@[simp] theorem State.modMem_objects (s : State) (f : Mem → Mem) : (s.modMem f).objects = s.objects := rfl
@[simp] theorem State.modMem_calls (s : State) (f : Mem → Mem) : (s.modMem f).calls = s.calls := rfl
@[simp] theorem State.modMem_dev (s : State) (f : Mem → Mem) : (s.modMem f).dev = s.dev := rfl

/-! `State.modDie` -/

@[simp] theorem State.modDie_now (s : State) (k : Nat) (f : Die → Die) : (s.modDie k f).now = s.now := rfl
@[simp] theorem State.modDie_agenda (s : State) (k : Nat) (f : Die → Die) : (s.modDie k f).agenda = s.agenda := rfl
@[simp] theorem State.modDie_cur (s : State) (k : Nat) (f : Die → Die) : (s.modDie k f).cur = s.cur := rfl
@[simp] theorem State.modDie_freeIx (s : State) (k : Nat) (f : Die → Die) : (s.modDie k f).freeIx = s.freeIx := rfl
@[simp] theorem State.modDie_ctxs (s : State) (k : Nat) (f : Die → Die) : (s.modDie k f).ctxs = s.ctxs := rfl
@[simp] theorem State.modDie_cores (s : State) (k : Nat) (f : Die → Die) : (s.modDie k f).cores = s.cores := rfl
@[simp] theorem State.modDie_mem (s : State) (k : Nat) (f : Die → Die) : (s.modDie k f).mem = s.mem := rfl
@[simp] theorem State.modDie_phasers (s : State) (k : Nat) (f : Die → Die) : (s.modDie k f).phasers = s.phasers := rfl
@[simp] theorem State.modDie_dies (s : State) (k : Nat) (f : Die → Die) : (s.modDie k f).dies = smod {} s.dies k f := rfl
@[simp] theorem State.modDie_parts (s : State) (k : Nat) (f : Die → Die) : (s.modDie k f).parts = s.parts := rfl
@[simp] theorem State.modDie_fctxs (s : State) (k : Nat) (f : Die → Die) : (s.modDie k f).fctxs = s.fctxs := rfl
@[simp] theorem State.modDie_deliveries (s : State) (k : Nat) (f : Die → Die) : (s.modDie k f).deliveries = s.deliveries := rfl
@[simp] theorem State.modDie_copyjobs (s : State) (k : Nat) (f : Die → Die) : (s.modDie k f).copyjobs = s.copyjobs := rfl
@[simp] theorem State.modDie_changes (s : State) (k : Nat) (f : Die → Die) : (s.modDie k f).changes = s.changes := rfl
@[simp] theorem State.modDie_rounds (s : State) (k : Nat) (f : Die → Die) : (s.modDie k f).rounds = s.rounds := rfl
@[simp] theorem State.modDie_basins (s : State) (k : Nat) (f : Die → Die) : (s.modDie k f).basins = s.basins := rfl
@[simp] theorem State.modDie_slices (s : State) (k : Nat) (f : Die → Die) : (s.modDie k f).slices = s.slices := rfl
@[simp] theorem State.modDie_objects (s : State) (k : Nat) (f : Die → Die) : (s.modDie k f).objects = s.objects := rfl
@[simp] theorem State.modDie_calls (s : State) (k : Nat) (f : Die → Die) : (s.modDie k f).calls = s.calls := rfl
@[simp] theorem State.modDie_dev (s : State) (k : Nat) (f : Die → Die) : (s.modDie k f).dev = s.dev := rfl

/-! `State.modPart` -/

@[simp] theorem State.modPart_now (s : State) (k : Nat) (f : Part → Part) : (s.modPart k f).now = s.now := rfl
@[simp] theorem State.modPart_agenda (s : State) (k : Nat) (f : Part → Part) : (s.modPart k f).agenda = s.agenda := rfl
@[simp] theorem State.modPart_cur (s : State) (k : Nat) (f : Part → Part) : (s.modPart k f).cur = s.cur := rfl
@[simp] theorem State.modPart_freeIx (s : State) (k : Nat) (f : Part → Part) : (s.modPart k f).freeIx = s.freeIx := rfl
@[simp] theorem State.modPart_ctxs (s : State) (k : Nat) (f : Part → Part) : (s.modPart k f).ctxs = s.ctxs := rfl
@[simp] theorem State.modPart_cores (s : State) (k : Nat) (f : Part → Part) : (s.modPart k f).cores = s.cores := rfl
@[simp] theorem State.modPart_mem (s : State) (k : Nat) (f : Part → Part) : (s.modPart k f).mem = s.mem := rfl
@[simp] theorem State.modPart_phasers (s : State) (k : Nat) (f : Part → Part) : (s.modPart k f).phasers = s.phasers := rfl
@[simp] theorem State.modPart_dies (s : State) (k : Nat) (f : Part → Part) : (s.modPart k f).dies = s.dies := rfl
@[simp] theorem State.modPart_parts (s : State) (k : Nat) (f : Part → Part) : (s.modPart k f).parts = smod {} s.parts k f := rfl
@[simp] theorem State.modPart_fctxs (s : State) (k : Nat) (f : Part → Part) : (s.modPart k f).fctxs = s.fctxs := rfl
@[simp] theorem State.modPart_deliveries (s : State) (k : Nat) (f : Part → Part) : (s.modPart k f).deliveries = s.deliveries := rfl
@[simp] theorem State.modPart_copyjobs (s : State) (k : Nat) (f : Part → Part) : (s.modPart k f).copyjobs = s.copyjobs := rfl
@[simp] theorem State.modPart_changes (s : State) (k : Nat) (f : Part → Part) : (s.modPart k f).changes = s.changes := rfl
@[simp] theorem State.modPart_rounds (s : State) (k : Nat) (f : Part → Part) : (s.modPart k f).rounds = s.rounds := rfl
@[simp] theorem State.modPart_basins (s : State) (k : Nat) (f : Part → Part) : (s.modPart k f).basins = s.basins := rfl
@[simp] theorem State.modPart_slices (s : State) (k : Nat) (f : Part → Part) : (s.modPart k f).slices = s.slices := rfl
@[simp] theorem State.modPart_objects (s : State) (k : Nat) (f : Part → Part) : (s.modPart k f).objects = s.objects := rfl
@[simp] theorem State.modPart_calls (s : State) (k : Nat) (f : Part → Part) : (s.modPart k f).calls = s.calls := rfl
@[simp] theorem State.modPart_dev (s : State) (k : Nat) (f : Part → Part) : (s.modPart k f).dev = s.dev := rfl

/-! `State.modFctx` -/

@[simp] theorem State.modFctx_now (s : State) (k : Nat) (f : FCtx → FCtx) : (s.modFctx k f).now = s.now := rfl
@[simp] theorem State.modFctx_agenda (s : State) (k : Nat) (f : FCtx → FCtx) : (s.modFctx k f).agenda = s.agenda := rfl
@[simp] theorem State.modFctx_cur (s : State) (k : Nat) (f : FCtx → FCtx) : (s.modFctx k f).cur = s.cur := rfl
@[simp] theorem State.modFctx_freeIx (s : State) (k : Nat) (f : FCtx → FCtx) : (s.modFctx k f).freeIx = s.freeIx := rfl
@[simp] theorem State.modFctx_ctxs (s : State) (k : Nat) (f : FCtx → FCtx) : (s.modFctx k f).ctxs = s.ctxs := rfl
@[simp] theorem State.modFctx_cores (s : State) (k : Nat) (f : FCtx → FCtx) : (s.modFctx k f).cores = s.cores := rfl
@[simp] theorem State.modFctx_mem (s : State) (k : Nat) (f : FCtx → FCtx) : (s.modFctx k f).mem = s.mem := rfl
@[simp] theorem State.modFctx_phasers (s : State) (k : Nat) (f : FCtx → FCtx) : (s.modFctx k f).phasers = s.phasers := rfl
@[simp] theorem State.modFctx_dies (s : State) (k : Nat) (f : FCtx → FCtx) : (s.modFctx k f).dies = s.dies := rfl
@[simp] theorem State.modFctx_parts (s : State) (k : Nat) (f : FCtx → FCtx) : (s.modFctx k f).parts = s.parts := rfl
@[simp] theorem State.modFctx_fctxs (s : State) (k : Nat) (f : FCtx → FCtx) : (s.modFctx k f).fctxs = smod {} s.fctxs k f := rfl
@[simp] theorem State.modFctx_deliveries (s : State) (k : Nat) (f : FCtx → FCtx) : (s.modFctx k f).deliveries = s.deliveries := rfl
@[simp] theorem State.modFctx_copyjobs (s : State) (k : Nat) (f : FCtx → FCtx) : (s.modFctx k f).copyjobs = s.copyjobs := rfl
@[simp] theorem State.modFctx_changes (s : State) (k : Nat) (f : FCtx → FCtx) : (s.modFctx k f).changes = s.changes := rfl
@[simp] theorem State.modFctx_rounds (s : State) (k : Nat) (f : FCtx → FCtx) : (s.modFctx k f).rounds = s.rounds := rfl
@[simp] theorem State.modFctx_basins (s : State) (k : Nat) (f : FCtx → FCtx) : (s.modFctx k f).basins = s.basins := rfl
@[simp] theorem State.modFctx_slices (s : State) (k : Nat) (f : FCtx → FCtx) : (s.modFctx k f).slices = s.slices := rfl
@[simp] theorem State.modFctx_objects (s : State) (k : Nat) (f : FCtx → FCtx) : (s.modFctx k f).objects = s.objects := rfl
@[simp] theorem State.modFctx_calls (s : State) (k : Nat) (f : FCtx → FCtx) : (s.modFctx k f).calls = s.calls := rfl
@[simp] theorem State.modFctx_dev (s : State) (k : Nat) (f : FCtx → FCtx) : (s.modFctx k f).dev = s.dev := rfl

/-! `State.modBasin` -/

@[simp] theorem State.modBasin_now (s : State) (k : Nat) (f : Basin → Basin) : (s.modBasin k f).now = s.now := rfl
@[simp] theorem State.modBasin_agenda (s : State) (k : Nat) (f : Basin → Basin) : (s.modBasin k f).agenda = s.agenda := rfl
@[simp] theorem State.modBasin_cur (s : State) (k : Nat) (f : Basin → Basin) : (s.modBasin k f).cur = s.cur := rfl
@[simp] theorem State.modBasin_freeIx (s : State) (k : Nat) (f : Basin → Basin) : (s.modBasin k f).freeIx = s.freeIx := rfl
@[simp] theorem State.modBasin_ctxs (s : State) (k : Nat) (f : Basin → Basin) : (s.modBasin k f).ctxs = s.ctxs := rfl
@[simp] theorem State.modBasin_cores (s : State) (k : Nat) (f : Basin → Basin) : (s.modBasin k f).cores = s.cores := rfl
@[simp] theorem State.modBasin_mem (s : State) (k : Nat) (f : Basin → Basin) : (s.modBasin k f).mem = s.mem := rfl
@[simp] theorem State.modBasin_phasers (s : State) (k : Nat) (f : Basin → Basin) : (s.modBasin k f).phasers = s.phasers := rfl
@[simp] theorem State.modBasin_dies (s : State) (k : Nat) (f : Basin → Basin) : (s.modBasin k f).dies = s.dies := rfl
@[simp] theorem State.modBasin_parts (s : State) (k : Nat) (f : Basin → Basin) : (s.modBasin k f).parts = s.parts := rfl
@[simp] theorem State.modBasin_fctxs (s : State) (k : Nat) (f : Basin → Basin) : (s.modBasin k f).fctxs = s.fctxs := rfl
@[simp] theorem State.modBasin_deliveries (s : State) (k : Nat) (f : Basin → Basin) : (s.modBasin k f).deliveries = s.deliveries := rfl
@[simp] theorem State.modBasin_copyjobs (s : State) (k : Nat) (f : Basin → Basin) : (s.modBasin k f).copyjobs = s.copyjobs := rfl
@[simp] theorem State.modBasin_changes (s : State) (k : Nat) (f : Basin → Basin) : (s.modBasin k f).changes = s.changes := rfl
@[simp] theorem State.modBasin_rounds (s : State) (k : Nat) (f : Basin → Basin) : (s.modBasin k f).rounds = s.rounds := rfl
@[simp] theorem State.modBasin_basins (s : State) (k : Nat) (f : Basin → Basin) : (s.modBasin k f).basins = smod {} s.basins k f := rfl
@[simp] theorem State.modBasin_slices (s : State) (k : Nat) (f : Basin → Basin) : (s.modBasin k f).slices = s.slices := rfl
@[simp] theorem State.modBasin_objects (s : State) (k : Nat) (f : Basin → Basin) : (s.modBasin k f).objects = s.objects := rfl
@[simp] theorem State.modBasin_calls (s : State) (k : Nat) (f : Basin → Basin) : (s.modBasin k f).calls = s.calls := rfl
@[simp] theorem State.modBasin_dev (s : State) (k : Nat) (f : Basin → Basin) : (s.modBasin k f).dev = s.dev := rfl

/-! `State.modSlice` -/

@[simp] theorem State.modSlice_now (s : State) (k : Nat) (f : Slice → Slice) : (s.modSlice k f).now = s.now := rfl
@[simp] theorem State.modSlice_agenda (s : State) (k : Nat) (f : Slice → Slice) : (s.modSlice k f).agenda = s.agenda := rfl
@[simp] theorem State.modSlice_cur (s : State) (k : Nat) (f : Slice → Slice) : (s.modSlice k f).cur = s.cur := rfl
@[simp] theorem State.modSlice_freeIx (s : State) (k : Nat) (f : Slice → Slice) : (s.modSlice k f).freeIx = s.freeIx := rfl
@[simp] theorem State.modSlice_ctxs (s : State) (k : Nat) (f : Slice → Slice) : (s.modSlice k f).ctxs = s.ctxs := rfl
@[simp] theorem State.modSlice_cores (s : State) (k : Nat) (f : Slice → Slice) : (s.modSlice k f).cores = s.cores := rfl
@[simp] theorem State.modSlice_mem (s : State) (k : Nat) (f : Slice → Slice) : (s.modSlice k f).mem = s.mem := rfl
@[simp] theorem State.modSlice_phasers (s : State) (k : Nat) (f : Slice → Slice) : (s.modSlice k f).phasers = s.phasers := rfl
@[simp] theorem State.modSlice_dies (s : State) (k : Nat) (f : Slice → Slice) : (s.modSlice k f).dies = s.dies := rfl
@[simp] theorem State.modSlice_parts (s : State) (k : Nat) (f : Slice → Slice) : (s.modSlice k f).parts = s.parts := rfl
@[simp] theorem State.modSlice_fctxs (s : State) (k : Nat) (f : Slice → Slice) : (s.modSlice k f).fctxs = s.fctxs := rfl
@[simp] theorem State.modSlice_deliveries (s : State) (k : Nat) (f : Slice → Slice) : (s.modSlice k f).deliveries = s.deliveries := rfl
@[simp] theorem State.modSlice_copyjobs (s : State) (k : Nat) (f : Slice → Slice) : (s.modSlice k f).copyjobs = s.copyjobs := rfl
@[simp] theorem State.modSlice_changes (s : State) (k : Nat) (f : Slice → Slice) : (s.modSlice k f).changes = s.changes := rfl
@[simp] theorem State.modSlice_rounds (s : State) (k : Nat) (f : Slice → Slice) : (s.modSlice k f).rounds = s.rounds := rfl
@[simp] theorem State.modSlice_basins (s : State) (k : Nat) (f : Slice → Slice) : (s.modSlice k f).basins = s.basins := rfl
@[simp] theorem State.modSlice_slices (s : State) (k : Nat) (f : Slice → Slice) : (s.modSlice k f).slices = smod {} s.slices k f := rfl
@[simp] theorem State.modSlice_objects (s : State) (k : Nat) (f : Slice → Slice) : (s.modSlice k f).objects = s.objects := rfl
@[simp] theorem State.modSlice_calls (s : State) (k : Nat) (f : Slice → Slice) : (s.modSlice k f).calls = s.calls := rfl
@[simp] theorem State.modSlice_dev (s : State) (k : Nat) (f : Slice → Slice) : (s.modSlice k f).dev = s.dev := rfl

/-! `State.modPhaser` -/

@[simp] theorem State.modPhaser_now (s : State) (k : Nat) (f : Phaser → Phaser) : (s.modPhaser k f).now = s.now := rfl
@[simp] theorem State.modPhaser_agenda (s : State) (k : Nat) (f : Phaser → Phaser) : (s.modPhaser k f).agenda = s.agenda := rfl
@[simp] theorem State.modPhaser_cur (s : State) (k : Nat) (f : Phaser → Phaser) : (s.modPhaser k f).cur = s.cur := rfl
@[simp] theorem State.modPhaser_freeIx (s : State) (k : Nat) (f : Phaser → Phaser) : (s.modPhaser k f).freeIx = s.freeIx := rfl
@[simp] theorem State.modPhaser_ctxs (s : State) (k : Nat) (f : Phaser → Phaser) : (s.modPhaser k f).ctxs = s.ctxs := rfl
@[simp] theorem State.modPhaser_cores (s : State) (k : Nat) (f : Phaser → Phaser) : (s.modPhaser k f).cores = s.cores := rfl
@[simp] theorem State.modPhaser_mem (s : State) (k : Nat) (f : Phaser → Phaser) : (s.modPhaser k f).mem = s.mem := rfl
@[simp] theorem State.modPhaser_phasers (s : State) (k : Nat) (f : Phaser → Phaser) : (s.modPhaser k f).phasers = smod {} s.phasers k f := rfl
@[simp] theorem State.modPhaser_dies (s : State) (k : Nat) (f : Phaser → Phaser) : (s.modPhaser k f).dies = s.dies := rfl
@[simp] theorem State.modPhaser_parts (s : State) (k : Nat) (f : Phaser → Phaser) : (s.modPhaser k f).parts = s.parts := rfl
@[simp] theorem State.modPhaser_fctxs (s : State) (k : Nat) (f : Phaser → Phaser) : (s.modPhaser k f).fctxs = s.fctxs := rfl
@[simp] theorem State.modPhaser_deliveries (s : State) (k : Nat) (f : Phaser → Phaser) : (s.modPhaser k f).deliveries = s.deliveries := rfl
@[simp] theorem State.modPhaser_copyjobs (s : State) (k : Nat) (f : Phaser → Phaser) : (s.modPhaser k f).copyjobs = s.copyjobs := rfl
@[simp] theorem State.modPhaser_changes (s : State) (k : Nat) (f : Phaser → Phaser) : (s.modPhaser k f).changes = s.changes := rfl
@[simp] theorem State.modPhaser_rounds (s : State) (k : Nat) (f : Phaser → Phaser) : (s.modPhaser k f).rounds = s.rounds := rfl
@[simp] theorem State.modPhaser_basins (s : State) (k : Nat) (f : Phaser → Phaser) : (s.modPhaser k f).basins = s.basins := rfl
@[simp] theorem State.modPhaser_slices (s : State) (k : Nat) (f : Phaser → Phaser) : (s.modPhaser k f).slices = s.slices := rfl
@[simp] theorem State.modPhaser_objects (s : State) (k : Nat) (f : Phaser → Phaser) : (s.modPhaser k f).objects = s.objects := rfl
@[simp] theorem State.modPhaser_calls (s : State) (k : Nat) (f : Phaser → Phaser) : (s.modPhaser k f).calls = s.calls := rfl
@[simp] theorem State.modPhaser_dev (s : State) (k : Nat) (f : Phaser → Phaser) : (s.modPhaser k f).dev = s.dev := rfl

/-! ### The pieces of the state after an update -/

@[simp] theorem State.key_eq (s : State) : s.key = ctxKey s.cur.core s.cur.slot := rfl
@[simp] theorem State.setCtx_ctx (s : State) (c : Ctx) : (s.setCtx c).ctx = c := by
  simp [State.ctx, State.ctxAt]
@[simp] theorem State.modCtx_ctx (s : State) (f : Ctx → Ctx) : (s.modCtx f).ctx = f s.ctx := by
  simp [State.ctx, State.ctxAt]
@[simp] theorem State.modCtxAt_same (s : State) (k : Nat) (f : Ctx → Ctx) : (s.modCtxAt k f).ctxAt k = f (s.ctxAt k) := by
  simp [State.ctxAt]
theorem State.modCtxAt_ne (s : State) (k j : Nat) (f : Ctx → Ctx) (h : j ≠ k) : (s.modCtxAt k f).ctxAt j = s.ctxAt j := by
  simp [State.ctxAt, sget_sset_ne _ _ _ _ _ h]
theorem State.modCtx_ctxAt_ne (s : State) (j : Nat) (f : Ctx → Ctx) (h : j ≠ s.key) : (s.modCtx f).ctxAt j = s.ctxAt j :=
  s.modCtxAt_ne s.key j f h
@[simp] theorem State.modCore_core (s : State) (f : Core → Core) : (s.modCore f).core = f s.core := by
  simp [State.core, State.coreAt]
@[simp] theorem State.modCoreAt_same (s : State) (k : Nat) (f : Core → Core) : (s.modCoreAt k f).coreAt k = f (s.coreAt k) := by
  simp [State.coreAt]
theorem State.modCoreAt_ne (s : State) (k j : Nat) (f : Core → Core) (h : j ≠ k) : (s.modCoreAt k f).coreAt j = s.coreAt j := by
  simp [State.coreAt, sget_sset_ne _ _ _ _ _ h]
@[simp] theorem State.modCtx_core (s : State) (f : Ctx → Ctx) : (s.modCtx f).core = s.core := rfl
@[simp] theorem State.modCore_ctx (s : State) (f : Core → Core) : (s.modCore f).ctx = s.ctx := rfl
@[simp] theorem State.modMem_ctx (s : State) (f : Mem → Mem) : (s.modMem f).ctx = s.ctx := rfl
@[simp] theorem State.modMem_core (s : State) (f : Mem → Mem) : (s.modMem f).core = s.core := rfl
@[simp] theorem State.modFctx_same (s : State) (k : Nat) (f : FCtx → FCtx) : (s.modFctx k f).fctxAt k = f (s.fctxAt k) := by
  simp [State.fctxAt]
theorem State.modFctx_ne (s : State) (k j : Nat) (f : FCtx → FCtx) (h : j ≠ k) : (s.modFctx k f).fctxAt j = s.fctxAt j := by
  simp [State.fctxAt, sget_smod_ne _ _ _ _ _ h]
@[simp] theorem State.modPart_same (s : State) (k : Nat) (f : Part → Part) : (s.modPart k f).partAt k = f (s.partAt k) := by
  simp [State.partAt]
@[simp] theorem State.modBasin_same (s : State) (k : Nat) (f : Basin → Basin) : (s.modBasin k f).basinAt k = f (s.basinAt k) := by
  simp [State.basinAt]
@[simp] theorem State.modSlice_same (s : State) (k : Nat) (f : Slice → Slice) : (s.modSlice k f).sliceAt k = f (s.sliceAt k) := by
  simp [State.sliceAt]
@[simp] theorem State.modDie_same (s : State) (k : Nat) (f : Die → Die) : (s.modDie k f).dieAt k = f (s.dieAt k) := by
  simp [State.dieAt]

/-! ### Registers of a context -/

@[simp] theorem Ctx.sreg_zero (c : Ctx) : c.sreg 0 = {} := rfl
@[simp] theorem Ctx.preg_zero (c : Ctx) : c.preg 0 = { v := true } := rfl
theorem Ctx.sreg_setSreg (c : Ctx) (i : BitVec 6) (r : SReg) (h : i ≠ 0) : (c.setSreg i r).sreg i = r := by
  unfold Ctx.sreg Ctx.setSreg
  rw [if_neg h, if_neg h]
  exact sget_sset_same _ _ _ _
theorem Ctx.sreg_setSreg_ne (c : Ctx) (i j : BitVec 6) (r : SReg) (h : j ≠ i) : (c.setSreg i r).sreg j = c.sreg j := by
  have hn : j.toNat ≠ i.toNat := fun e => h (BitVec.eq_of_toNat_eq e)
  unfold Ctx.sreg Ctx.setSreg
  split
  · rfl
  · by_cases hi : i = 0
    · rw [if_pos hi]
    · rw [if_neg hi]
      exact sget_sset_ne _ _ _ _ _ hn
@[simp] theorem Ctx.vreg_setVreg (c : Ctx) (i : BitVec 6) (r : VReg) : (c.setVreg i r).vreg i = r := by
  simp [Ctx.vreg, Ctx.setVreg]
@[simp] theorem Ctx.kreg_setKreg (c : Ctx) (i : BitVec 4) (r : KReg) : (c.setKreg i r).kreg i = r := by
  simp [Ctx.kreg, Ctx.setKreg]
@[simp] theorem Ctx.wreg_setWreg (c : Ctx) (i : BitVec 3) (r : WReg) : (c.setWreg i r).wreg i = r := by
  simp [Ctx.wreg, Ctx.setWreg]

@[simp] theorem Ctx.setSreg_p (c : Ctx) (i : BitVec 6) (r : SReg) : (c.setSreg i r).p = c.p := by
  unfold Ctx.setSreg; split <;> rfl
@[simp] theorem Ctx.setSreg_v (c : Ctx) (i : BitVec 6) (r : SReg) : (c.setSreg i r).v = c.v := by
  unfold Ctx.setSreg; split <;> rfl
@[simp] theorem Ctx.setSreg_m (c : Ctx) (i : BitVec 6) (r : SReg) : (c.setSreg i r).m = c.m := by
  unfold Ctx.setSreg; split <;> rfl
@[simp] theorem Ctx.setSreg_k (c : Ctx) (i : BitVec 6) (r : SReg) : (c.setSreg i r).k = c.k := by
  unfold Ctx.setSreg; split <;> rfl
@[simp] theorem Ctx.setSreg_w (c : Ctx) (i : BitVec 6) (r : SReg) : (c.setSreg i r).w = c.w := by
  unfold Ctx.setSreg; split <;> rfl
@[simp] theorem Ctx.setSreg_n (c : Ctx) (i : BitVec 6) (r : SReg) : (c.setSreg i r).n = c.n := by
  unfold Ctx.setSreg; split <;> rfl
@[simp] theorem Ctx.setSreg_acc (c : Ctx) (i : BitVec 6) (r : SReg) : (c.setSreg i r).acc = c.acc := by
  unfold Ctx.setSreg; split <;> rfl
@[simp] theorem Ctx.setSreg_accEmpty (c : Ctx) (i : BitVec 6) (r : SReg) : (c.setSreg i r).accEmpty = c.accEmpty := by
  unfold Ctx.setSreg; split <;> rfl
@[simp] theorem Ctx.setSreg_accPois (c : Ctx) (i : BitVec 6) (r : SReg) : (c.setSreg i r).accPois = c.accPois := by
  unfold Ctx.setSreg; split <;> rfl
@[simp] theorem Ctx.setSreg_vflg (c : Ctx) (i : BitVec 6) (r : SReg) : (c.setSreg i r).vflg = c.vflg := by
  unfold Ctx.setSreg; split <;> rfl
@[simp] theorem Ctx.setSreg_mflags (c : Ctx) (i : BitVec 6) (r : SReg) : (c.setSreg i r).mflags = c.mflags := by
  unfold Ctx.setSreg; split <;> rfl
@[simp] theorem Ctx.setSreg_rmode (c : Ctx) (i : BitVec 6) (r : SReg) : (c.setSreg i r).rmode = c.rmode := by
  unfold Ctx.setSreg; split <;> rfl
@[simp] theorem Ctx.setSreg_srseed (c : Ctx) (i : BitVec 6) (r : SReg) : (c.setSreg i r).srseed = c.srseed := by
  unfold Ctx.setSreg; split <;> rfl
@[simp] theorem Ctx.setSreg_srctr (c : Ctx) (i : BitVec 6) (r : SReg) : (c.setSreg i r).srctr = c.srctr := by
  unfold Ctx.setSreg; split <;> rfl
@[simp] theorem Ctx.setSreg_retstack (c : Ctx) (i : BitVec 6) (r : SReg) : (c.setSreg i r).retstack = c.retstack := by
  unfold Ctx.setSreg; split <;> rfl
@[simp] theorem Ctx.setSreg_trapcause (c : Ctx) (i : BitVec 6) (r : SReg) : (c.setSreg i r).trapcause = c.trapcause := by
  unfold Ctx.setSreg; split <;> rfl
@[simp] theorem Ctx.setSreg_trapva (c : Ctx) (i : BitVec 6) (r : SReg) : (c.setSreg i r).trapva = c.trapva := by
  unfold Ctx.setSreg; split <;> rfl
@[simp] theorem Ctx.setSreg_trappc (c : Ctx) (i : BitVec 6) (r : SReg) : (c.setSreg i r).trappc = c.trappc := by
  unfold Ctx.setSreg; split <;> rfl
@[simp] theorem Ctx.setSreg_trapslot (c : Ctx) (i : BitVec 6) (r : SReg) : (c.setSreg i r).trapslot = c.trapslot := by
  unfold Ctx.setSreg; split <;> rfl
@[simp] theorem Ctx.setSreg_ebudget (c : Ctx) (i : BitVec 6) (r : SReg) : (c.setSreg i r).ebudget = c.ebudget := by
  unfold Ctx.setSreg; split <;> rfl
@[simp] theorem Ctx.setSreg_eunder (c : Ctx) (i : BitVec 6) (r : SReg) : (c.setSreg i r).eunder = c.eunder := by
  unfold Ctx.setSreg; split <;> rfl
@[simp] theorem Ctx.setSreg_pend (c : Ctx) (i : BitVec 6) (r : SReg) : (c.setSreg i r).pend = c.pend := by
  unfold Ctx.setSreg; split <;> rfl
@[simp] theorem Ctx.setSreg_arrived (c : Ctx) (i : BitVec 6) (r : SReg) : (c.setSreg i r).arrived = c.arrived := by
  unfold Ctx.setSreg; split <;> rfl
@[simp] theorem Ctx.setSreg_ldq (c : Ctx) (i : BitVec 6) (r : SReg) : (c.setSreg i r).ldq = c.ldq := by
  unfold Ctx.setSreg; split <;> rfl
@[simp] theorem Ctx.setSreg_stq (c : Ctx) (i : BitVec 6) (r : SReg) : (c.setSreg i r).stq = c.stq := by
  unfold Ctx.setSreg; split <;> rfl
@[simp] theorem Ctx.setSreg_jobs (c : Ctx) (i : BitVec 6) (r : SReg) : (c.setSreg i r).jobs = c.jobs := by
  unfold Ctx.setSreg; split <;> rfl
@[simp] theorem Ctx.setSreg_phase (c : Ctx) (i : BitVec 6) (r : SReg) : (c.setSreg i r).phase = c.phase := by
  unfold Ctx.setSreg; split <;> rfl
@[simp] theorem Ctx.setSreg_pc (c : Ctx) (i : BitVec 6) (r : SReg) : (c.setSreg i r).pc = c.pc := by
  unfold Ctx.setSreg; split <;> rfl
@[simp] theorem Ctx.setSreg_loop (c : Ctx) (i : BitVec 6) (r : SReg) : (c.setSreg i r).loop = c.loop := by
  unfold Ctx.setSreg; split <;> rfl
@[simp] theorem Ctx.setSreg_frame (c : Ctx) (i : BitVec 6) (r : SReg) : (c.setSreg i r).frame = c.frame := by
  unfold Ctx.setSreg; split <;> rfl

@[simp] theorem Ctx.setPreg_s (c : Ctx) (i : BitVec 3) (r : PReg) : (c.setPreg i r).s = c.s := by
  unfold Ctx.setPreg; split <;> rfl
@[simp] theorem Ctx.setPreg_v (c : Ctx) (i : BitVec 3) (r : PReg) : (c.setPreg i r).v = c.v := by
  unfold Ctx.setPreg; split <;> rfl
@[simp] theorem Ctx.setPreg_m (c : Ctx) (i : BitVec 3) (r : PReg) : (c.setPreg i r).m = c.m := by
  unfold Ctx.setPreg; split <;> rfl
@[simp] theorem Ctx.setPreg_k (c : Ctx) (i : BitVec 3) (r : PReg) : (c.setPreg i r).k = c.k := by
  unfold Ctx.setPreg; split <;> rfl
@[simp] theorem Ctx.setPreg_w (c : Ctx) (i : BitVec 3) (r : PReg) : (c.setPreg i r).w = c.w := by
  unfold Ctx.setPreg; split <;> rfl
@[simp] theorem Ctx.setPreg_n (c : Ctx) (i : BitVec 3) (r : PReg) : (c.setPreg i r).n = c.n := by
  unfold Ctx.setPreg; split <;> rfl
@[simp] theorem Ctx.setPreg_acc (c : Ctx) (i : BitVec 3) (r : PReg) : (c.setPreg i r).acc = c.acc := by
  unfold Ctx.setPreg; split <;> rfl
@[simp] theorem Ctx.setPreg_accEmpty (c : Ctx) (i : BitVec 3) (r : PReg) : (c.setPreg i r).accEmpty = c.accEmpty := by
  unfold Ctx.setPreg; split <;> rfl
@[simp] theorem Ctx.setPreg_accPois (c : Ctx) (i : BitVec 3) (r : PReg) : (c.setPreg i r).accPois = c.accPois := by
  unfold Ctx.setPreg; split <;> rfl
@[simp] theorem Ctx.setPreg_vflg (c : Ctx) (i : BitVec 3) (r : PReg) : (c.setPreg i r).vflg = c.vflg := by
  unfold Ctx.setPreg; split <;> rfl
@[simp] theorem Ctx.setPreg_mflags (c : Ctx) (i : BitVec 3) (r : PReg) : (c.setPreg i r).mflags = c.mflags := by
  unfold Ctx.setPreg; split <;> rfl
@[simp] theorem Ctx.setPreg_rmode (c : Ctx) (i : BitVec 3) (r : PReg) : (c.setPreg i r).rmode = c.rmode := by
  unfold Ctx.setPreg; split <;> rfl
@[simp] theorem Ctx.setPreg_srseed (c : Ctx) (i : BitVec 3) (r : PReg) : (c.setPreg i r).srseed = c.srseed := by
  unfold Ctx.setPreg; split <;> rfl
@[simp] theorem Ctx.setPreg_srctr (c : Ctx) (i : BitVec 3) (r : PReg) : (c.setPreg i r).srctr = c.srctr := by
  unfold Ctx.setPreg; split <;> rfl
@[simp] theorem Ctx.setPreg_retstack (c : Ctx) (i : BitVec 3) (r : PReg) : (c.setPreg i r).retstack = c.retstack := by
  unfold Ctx.setPreg; split <;> rfl
@[simp] theorem Ctx.setPreg_trapcause (c : Ctx) (i : BitVec 3) (r : PReg) : (c.setPreg i r).trapcause = c.trapcause := by
  unfold Ctx.setPreg; split <;> rfl
@[simp] theorem Ctx.setPreg_trapva (c : Ctx) (i : BitVec 3) (r : PReg) : (c.setPreg i r).trapva = c.trapva := by
  unfold Ctx.setPreg; split <;> rfl
@[simp] theorem Ctx.setPreg_trappc (c : Ctx) (i : BitVec 3) (r : PReg) : (c.setPreg i r).trappc = c.trappc := by
  unfold Ctx.setPreg; split <;> rfl
@[simp] theorem Ctx.setPreg_trapslot (c : Ctx) (i : BitVec 3) (r : PReg) : (c.setPreg i r).trapslot = c.trapslot := by
  unfold Ctx.setPreg; split <;> rfl
@[simp] theorem Ctx.setPreg_ebudget (c : Ctx) (i : BitVec 3) (r : PReg) : (c.setPreg i r).ebudget = c.ebudget := by
  unfold Ctx.setPreg; split <;> rfl
@[simp] theorem Ctx.setPreg_eunder (c : Ctx) (i : BitVec 3) (r : PReg) : (c.setPreg i r).eunder = c.eunder := by
  unfold Ctx.setPreg; split <;> rfl
@[simp] theorem Ctx.setPreg_pend (c : Ctx) (i : BitVec 3) (r : PReg) : (c.setPreg i r).pend = c.pend := by
  unfold Ctx.setPreg; split <;> rfl
@[simp] theorem Ctx.setPreg_arrived (c : Ctx) (i : BitVec 3) (r : PReg) : (c.setPreg i r).arrived = c.arrived := by
  unfold Ctx.setPreg; split <;> rfl
@[simp] theorem Ctx.setPreg_ldq (c : Ctx) (i : BitVec 3) (r : PReg) : (c.setPreg i r).ldq = c.ldq := by
  unfold Ctx.setPreg; split <;> rfl
@[simp] theorem Ctx.setPreg_stq (c : Ctx) (i : BitVec 3) (r : PReg) : (c.setPreg i r).stq = c.stq := by
  unfold Ctx.setPreg; split <;> rfl
@[simp] theorem Ctx.setPreg_jobs (c : Ctx) (i : BitVec 3) (r : PReg) : (c.setPreg i r).jobs = c.jobs := by
  unfold Ctx.setPreg; split <;> rfl
@[simp] theorem Ctx.setPreg_phase (c : Ctx) (i : BitVec 3) (r : PReg) : (c.setPreg i r).phase = c.phase := by
  unfold Ctx.setPreg; split <;> rfl
@[simp] theorem Ctx.setPreg_pc (c : Ctx) (i : BitVec 3) (r : PReg) : (c.setPreg i r).pc = c.pc := by
  unfold Ctx.setPreg; split <;> rfl
@[simp] theorem Ctx.setPreg_loop (c : Ctx) (i : BitVec 3) (r : PReg) : (c.setPreg i r).loop = c.loop := by
  unfold Ctx.setPreg; split <;> rfl
@[simp] theorem Ctx.setPreg_frame (c : Ctx) (i : BitVec 3) (r : PReg) : (c.setPreg i r).frame = c.frame := by
  unfold Ctx.setPreg; split <;> rfl

@[simp] theorem Ctx.setVreg_s (c : Ctx) (i : BitVec 6) (r : VReg) : (c.setVreg i r).s = c.s := rfl
@[simp] theorem Ctx.setVreg_p (c : Ctx) (i : BitVec 6) (r : VReg) : (c.setVreg i r).p = c.p := rfl
@[simp] theorem Ctx.setVreg_m (c : Ctx) (i : BitVec 6) (r : VReg) : (c.setVreg i r).m = c.m := rfl
@[simp] theorem Ctx.setVreg_k (c : Ctx) (i : BitVec 6) (r : VReg) : (c.setVreg i r).k = c.k := rfl
@[simp] theorem Ctx.setVreg_w (c : Ctx) (i : BitVec 6) (r : VReg) : (c.setVreg i r).w = c.w := rfl
@[simp] theorem Ctx.setVreg_n (c : Ctx) (i : BitVec 6) (r : VReg) : (c.setVreg i r).n = c.n := rfl
@[simp] theorem Ctx.setVreg_acc (c : Ctx) (i : BitVec 6) (r : VReg) : (c.setVreg i r).acc = c.acc := rfl
@[simp] theorem Ctx.setVreg_accEmpty (c : Ctx) (i : BitVec 6) (r : VReg) : (c.setVreg i r).accEmpty = c.accEmpty := rfl
@[simp] theorem Ctx.setVreg_accPois (c : Ctx) (i : BitVec 6) (r : VReg) : (c.setVreg i r).accPois = c.accPois := rfl
@[simp] theorem Ctx.setVreg_vflg (c : Ctx) (i : BitVec 6) (r : VReg) : (c.setVreg i r).vflg = c.vflg := rfl
@[simp] theorem Ctx.setVreg_mflags (c : Ctx) (i : BitVec 6) (r : VReg) : (c.setVreg i r).mflags = c.mflags := rfl
@[simp] theorem Ctx.setVreg_rmode (c : Ctx) (i : BitVec 6) (r : VReg) : (c.setVreg i r).rmode = c.rmode := rfl
@[simp] theorem Ctx.setVreg_srseed (c : Ctx) (i : BitVec 6) (r : VReg) : (c.setVreg i r).srseed = c.srseed := rfl
@[simp] theorem Ctx.setVreg_srctr (c : Ctx) (i : BitVec 6) (r : VReg) : (c.setVreg i r).srctr = c.srctr := rfl
@[simp] theorem Ctx.setVreg_retstack (c : Ctx) (i : BitVec 6) (r : VReg) : (c.setVreg i r).retstack = c.retstack := rfl
@[simp] theorem Ctx.setVreg_trapcause (c : Ctx) (i : BitVec 6) (r : VReg) : (c.setVreg i r).trapcause = c.trapcause := rfl
@[simp] theorem Ctx.setVreg_trapva (c : Ctx) (i : BitVec 6) (r : VReg) : (c.setVreg i r).trapva = c.trapva := rfl
@[simp] theorem Ctx.setVreg_trappc (c : Ctx) (i : BitVec 6) (r : VReg) : (c.setVreg i r).trappc = c.trappc := rfl
@[simp] theorem Ctx.setVreg_trapslot (c : Ctx) (i : BitVec 6) (r : VReg) : (c.setVreg i r).trapslot = c.trapslot := rfl
@[simp] theorem Ctx.setVreg_ebudget (c : Ctx) (i : BitVec 6) (r : VReg) : (c.setVreg i r).ebudget = c.ebudget := rfl
@[simp] theorem Ctx.setVreg_eunder (c : Ctx) (i : BitVec 6) (r : VReg) : (c.setVreg i r).eunder = c.eunder := rfl
@[simp] theorem Ctx.setVreg_pend (c : Ctx) (i : BitVec 6) (r : VReg) : (c.setVreg i r).pend = c.pend := rfl
@[simp] theorem Ctx.setVreg_arrived (c : Ctx) (i : BitVec 6) (r : VReg) : (c.setVreg i r).arrived = c.arrived := rfl
@[simp] theorem Ctx.setVreg_ldq (c : Ctx) (i : BitVec 6) (r : VReg) : (c.setVreg i r).ldq = c.ldq := rfl
@[simp] theorem Ctx.setVreg_stq (c : Ctx) (i : BitVec 6) (r : VReg) : (c.setVreg i r).stq = c.stq := rfl
@[simp] theorem Ctx.setVreg_jobs (c : Ctx) (i : BitVec 6) (r : VReg) : (c.setVreg i r).jobs = c.jobs := rfl
@[simp] theorem Ctx.setVreg_phase (c : Ctx) (i : BitVec 6) (r : VReg) : (c.setVreg i r).phase = c.phase := rfl
@[simp] theorem Ctx.setVreg_pc (c : Ctx) (i : BitVec 6) (r : VReg) : (c.setVreg i r).pc = c.pc := rfl
@[simp] theorem Ctx.setVreg_loop (c : Ctx) (i : BitVec 6) (r : VReg) : (c.setVreg i r).loop = c.loop := rfl
@[simp] theorem Ctx.setVreg_frame (c : Ctx) (i : BitVec 6) (r : VReg) : (c.setVreg i r).frame = c.frame := rfl

@[simp] theorem Ctx.setMreg_s (c : Ctx) (i : BitVec 3) (r : MReg) : (c.setMreg i r).s = c.s := by
  unfold Ctx.setMreg; split <;> rfl
@[simp] theorem Ctx.setMreg_p (c : Ctx) (i : BitVec 3) (r : MReg) : (c.setMreg i r).p = c.p := by
  unfold Ctx.setMreg; split <;> rfl
@[simp] theorem Ctx.setMreg_v (c : Ctx) (i : BitVec 3) (r : MReg) : (c.setMreg i r).v = c.v := by
  unfold Ctx.setMreg; split <;> rfl
@[simp] theorem Ctx.setMreg_k (c : Ctx) (i : BitVec 3) (r : MReg) : (c.setMreg i r).k = c.k := by
  unfold Ctx.setMreg; split <;> rfl
@[simp] theorem Ctx.setMreg_w (c : Ctx) (i : BitVec 3) (r : MReg) : (c.setMreg i r).w = c.w := by
  unfold Ctx.setMreg; split <;> rfl
@[simp] theorem Ctx.setMreg_n (c : Ctx) (i : BitVec 3) (r : MReg) : (c.setMreg i r).n = c.n := by
  unfold Ctx.setMreg; split <;> rfl
@[simp] theorem Ctx.setMreg_acc (c : Ctx) (i : BitVec 3) (r : MReg) : (c.setMreg i r).acc = c.acc := by
  unfold Ctx.setMreg; split <;> rfl
@[simp] theorem Ctx.setMreg_accEmpty (c : Ctx) (i : BitVec 3) (r : MReg) : (c.setMreg i r).accEmpty = c.accEmpty := by
  unfold Ctx.setMreg; split <;> rfl
@[simp] theorem Ctx.setMreg_accPois (c : Ctx) (i : BitVec 3) (r : MReg) : (c.setMreg i r).accPois = c.accPois := by
  unfold Ctx.setMreg; split <;> rfl
@[simp] theorem Ctx.setMreg_vflg (c : Ctx) (i : BitVec 3) (r : MReg) : (c.setMreg i r).vflg = c.vflg := by
  unfold Ctx.setMreg; split <;> rfl
@[simp] theorem Ctx.setMreg_mflags (c : Ctx) (i : BitVec 3) (r : MReg) : (c.setMreg i r).mflags = c.mflags := by
  unfold Ctx.setMreg; split <;> rfl
@[simp] theorem Ctx.setMreg_rmode (c : Ctx) (i : BitVec 3) (r : MReg) : (c.setMreg i r).rmode = c.rmode := by
  unfold Ctx.setMreg; split <;> rfl
@[simp] theorem Ctx.setMreg_srseed (c : Ctx) (i : BitVec 3) (r : MReg) : (c.setMreg i r).srseed = c.srseed := by
  unfold Ctx.setMreg; split <;> rfl
@[simp] theorem Ctx.setMreg_srctr (c : Ctx) (i : BitVec 3) (r : MReg) : (c.setMreg i r).srctr = c.srctr := by
  unfold Ctx.setMreg; split <;> rfl
@[simp] theorem Ctx.setMreg_retstack (c : Ctx) (i : BitVec 3) (r : MReg) : (c.setMreg i r).retstack = c.retstack := by
  unfold Ctx.setMreg; split <;> rfl
@[simp] theorem Ctx.setMreg_trapcause (c : Ctx) (i : BitVec 3) (r : MReg) : (c.setMreg i r).trapcause = c.trapcause := by
  unfold Ctx.setMreg; split <;> rfl
@[simp] theorem Ctx.setMreg_trapva (c : Ctx) (i : BitVec 3) (r : MReg) : (c.setMreg i r).trapva = c.trapva := by
  unfold Ctx.setMreg; split <;> rfl
@[simp] theorem Ctx.setMreg_trappc (c : Ctx) (i : BitVec 3) (r : MReg) : (c.setMreg i r).trappc = c.trappc := by
  unfold Ctx.setMreg; split <;> rfl
@[simp] theorem Ctx.setMreg_trapslot (c : Ctx) (i : BitVec 3) (r : MReg) : (c.setMreg i r).trapslot = c.trapslot := by
  unfold Ctx.setMreg; split <;> rfl
@[simp] theorem Ctx.setMreg_ebudget (c : Ctx) (i : BitVec 3) (r : MReg) : (c.setMreg i r).ebudget = c.ebudget := by
  unfold Ctx.setMreg; split <;> rfl
@[simp] theorem Ctx.setMreg_eunder (c : Ctx) (i : BitVec 3) (r : MReg) : (c.setMreg i r).eunder = c.eunder := by
  unfold Ctx.setMreg; split <;> rfl
@[simp] theorem Ctx.setMreg_pend (c : Ctx) (i : BitVec 3) (r : MReg) : (c.setMreg i r).pend = c.pend := by
  unfold Ctx.setMreg; split <;> rfl
@[simp] theorem Ctx.setMreg_arrived (c : Ctx) (i : BitVec 3) (r : MReg) : (c.setMreg i r).arrived = c.arrived := by
  unfold Ctx.setMreg; split <;> rfl
@[simp] theorem Ctx.setMreg_ldq (c : Ctx) (i : BitVec 3) (r : MReg) : (c.setMreg i r).ldq = c.ldq := by
  unfold Ctx.setMreg; split <;> rfl
@[simp] theorem Ctx.setMreg_stq (c : Ctx) (i : BitVec 3) (r : MReg) : (c.setMreg i r).stq = c.stq := by
  unfold Ctx.setMreg; split <;> rfl
@[simp] theorem Ctx.setMreg_jobs (c : Ctx) (i : BitVec 3) (r : MReg) : (c.setMreg i r).jobs = c.jobs := by
  unfold Ctx.setMreg; split <;> rfl
@[simp] theorem Ctx.setMreg_phase (c : Ctx) (i : BitVec 3) (r : MReg) : (c.setMreg i r).phase = c.phase := by
  unfold Ctx.setMreg; split <;> rfl
@[simp] theorem Ctx.setMreg_pc (c : Ctx) (i : BitVec 3) (r : MReg) : (c.setMreg i r).pc = c.pc := by
  unfold Ctx.setMreg; split <;> rfl
@[simp] theorem Ctx.setMreg_loop (c : Ctx) (i : BitVec 3) (r : MReg) : (c.setMreg i r).loop = c.loop := by
  unfold Ctx.setMreg; split <;> rfl
@[simp] theorem Ctx.setMreg_frame (c : Ctx) (i : BitVec 3) (r : MReg) : (c.setMreg i r).frame = c.frame := by
  unfold Ctx.setMreg; split <;> rfl

@[simp] theorem Ctx.setKreg_s (c : Ctx) (i : BitVec 4) (r : KReg) : (c.setKreg i r).s = c.s := rfl
@[simp] theorem Ctx.setKreg_p (c : Ctx) (i : BitVec 4) (r : KReg) : (c.setKreg i r).p = c.p := rfl
@[simp] theorem Ctx.setKreg_v (c : Ctx) (i : BitVec 4) (r : KReg) : (c.setKreg i r).v = c.v := rfl
@[simp] theorem Ctx.setKreg_m (c : Ctx) (i : BitVec 4) (r : KReg) : (c.setKreg i r).m = c.m := rfl
@[simp] theorem Ctx.setKreg_w (c : Ctx) (i : BitVec 4) (r : KReg) : (c.setKreg i r).w = c.w := rfl
@[simp] theorem Ctx.setKreg_n (c : Ctx) (i : BitVec 4) (r : KReg) : (c.setKreg i r).n = c.n := rfl
@[simp] theorem Ctx.setKreg_acc (c : Ctx) (i : BitVec 4) (r : KReg) : (c.setKreg i r).acc = c.acc := rfl
@[simp] theorem Ctx.setKreg_accEmpty (c : Ctx) (i : BitVec 4) (r : KReg) : (c.setKreg i r).accEmpty = c.accEmpty := rfl
@[simp] theorem Ctx.setKreg_accPois (c : Ctx) (i : BitVec 4) (r : KReg) : (c.setKreg i r).accPois = c.accPois := rfl
@[simp] theorem Ctx.setKreg_vflg (c : Ctx) (i : BitVec 4) (r : KReg) : (c.setKreg i r).vflg = c.vflg := rfl
@[simp] theorem Ctx.setKreg_mflags (c : Ctx) (i : BitVec 4) (r : KReg) : (c.setKreg i r).mflags = c.mflags := rfl
@[simp] theorem Ctx.setKreg_rmode (c : Ctx) (i : BitVec 4) (r : KReg) : (c.setKreg i r).rmode = c.rmode := rfl
@[simp] theorem Ctx.setKreg_srseed (c : Ctx) (i : BitVec 4) (r : KReg) : (c.setKreg i r).srseed = c.srseed := rfl
@[simp] theorem Ctx.setKreg_srctr (c : Ctx) (i : BitVec 4) (r : KReg) : (c.setKreg i r).srctr = c.srctr := rfl
@[simp] theorem Ctx.setKreg_retstack (c : Ctx) (i : BitVec 4) (r : KReg) : (c.setKreg i r).retstack = c.retstack := rfl
@[simp] theorem Ctx.setKreg_trapcause (c : Ctx) (i : BitVec 4) (r : KReg) : (c.setKreg i r).trapcause = c.trapcause := rfl
@[simp] theorem Ctx.setKreg_trapva (c : Ctx) (i : BitVec 4) (r : KReg) : (c.setKreg i r).trapva = c.trapva := rfl
@[simp] theorem Ctx.setKreg_trappc (c : Ctx) (i : BitVec 4) (r : KReg) : (c.setKreg i r).trappc = c.trappc := rfl
@[simp] theorem Ctx.setKreg_trapslot (c : Ctx) (i : BitVec 4) (r : KReg) : (c.setKreg i r).trapslot = c.trapslot := rfl
@[simp] theorem Ctx.setKreg_ebudget (c : Ctx) (i : BitVec 4) (r : KReg) : (c.setKreg i r).ebudget = c.ebudget := rfl
@[simp] theorem Ctx.setKreg_eunder (c : Ctx) (i : BitVec 4) (r : KReg) : (c.setKreg i r).eunder = c.eunder := rfl
@[simp] theorem Ctx.setKreg_pend (c : Ctx) (i : BitVec 4) (r : KReg) : (c.setKreg i r).pend = c.pend := rfl
@[simp] theorem Ctx.setKreg_arrived (c : Ctx) (i : BitVec 4) (r : KReg) : (c.setKreg i r).arrived = c.arrived := rfl
@[simp] theorem Ctx.setKreg_ldq (c : Ctx) (i : BitVec 4) (r : KReg) : (c.setKreg i r).ldq = c.ldq := rfl
@[simp] theorem Ctx.setKreg_stq (c : Ctx) (i : BitVec 4) (r : KReg) : (c.setKreg i r).stq = c.stq := rfl
@[simp] theorem Ctx.setKreg_jobs (c : Ctx) (i : BitVec 4) (r : KReg) : (c.setKreg i r).jobs = c.jobs := rfl
@[simp] theorem Ctx.setKreg_phase (c : Ctx) (i : BitVec 4) (r : KReg) : (c.setKreg i r).phase = c.phase := rfl
@[simp] theorem Ctx.setKreg_pc (c : Ctx) (i : BitVec 4) (r : KReg) : (c.setKreg i r).pc = c.pc := rfl
@[simp] theorem Ctx.setKreg_loop (c : Ctx) (i : BitVec 4) (r : KReg) : (c.setKreg i r).loop = c.loop := rfl
@[simp] theorem Ctx.setKreg_frame (c : Ctx) (i : BitVec 4) (r : KReg) : (c.setKreg i r).frame = c.frame := rfl

@[simp] theorem Ctx.setWreg_s (c : Ctx) (i : BitVec 3) (r : WReg) : (c.setWreg i r).s = c.s := rfl
@[simp] theorem Ctx.setWreg_p (c : Ctx) (i : BitVec 3) (r : WReg) : (c.setWreg i r).p = c.p := rfl
@[simp] theorem Ctx.setWreg_v (c : Ctx) (i : BitVec 3) (r : WReg) : (c.setWreg i r).v = c.v := rfl
@[simp] theorem Ctx.setWreg_m (c : Ctx) (i : BitVec 3) (r : WReg) : (c.setWreg i r).m = c.m := rfl
@[simp] theorem Ctx.setWreg_k (c : Ctx) (i : BitVec 3) (r : WReg) : (c.setWreg i r).k = c.k := rfl
@[simp] theorem Ctx.setWreg_n (c : Ctx) (i : BitVec 3) (r : WReg) : (c.setWreg i r).n = c.n := rfl
@[simp] theorem Ctx.setWreg_acc (c : Ctx) (i : BitVec 3) (r : WReg) : (c.setWreg i r).acc = c.acc := rfl
@[simp] theorem Ctx.setWreg_accEmpty (c : Ctx) (i : BitVec 3) (r : WReg) : (c.setWreg i r).accEmpty = c.accEmpty := rfl
@[simp] theorem Ctx.setWreg_accPois (c : Ctx) (i : BitVec 3) (r : WReg) : (c.setWreg i r).accPois = c.accPois := rfl
@[simp] theorem Ctx.setWreg_vflg (c : Ctx) (i : BitVec 3) (r : WReg) : (c.setWreg i r).vflg = c.vflg := rfl
@[simp] theorem Ctx.setWreg_mflags (c : Ctx) (i : BitVec 3) (r : WReg) : (c.setWreg i r).mflags = c.mflags := rfl
@[simp] theorem Ctx.setWreg_rmode (c : Ctx) (i : BitVec 3) (r : WReg) : (c.setWreg i r).rmode = c.rmode := rfl
@[simp] theorem Ctx.setWreg_srseed (c : Ctx) (i : BitVec 3) (r : WReg) : (c.setWreg i r).srseed = c.srseed := rfl
@[simp] theorem Ctx.setWreg_srctr (c : Ctx) (i : BitVec 3) (r : WReg) : (c.setWreg i r).srctr = c.srctr := rfl
@[simp] theorem Ctx.setWreg_retstack (c : Ctx) (i : BitVec 3) (r : WReg) : (c.setWreg i r).retstack = c.retstack := rfl
@[simp] theorem Ctx.setWreg_trapcause (c : Ctx) (i : BitVec 3) (r : WReg) : (c.setWreg i r).trapcause = c.trapcause := rfl
@[simp] theorem Ctx.setWreg_trapva (c : Ctx) (i : BitVec 3) (r : WReg) : (c.setWreg i r).trapva = c.trapva := rfl
@[simp] theorem Ctx.setWreg_trappc (c : Ctx) (i : BitVec 3) (r : WReg) : (c.setWreg i r).trappc = c.trappc := rfl
@[simp] theorem Ctx.setWreg_trapslot (c : Ctx) (i : BitVec 3) (r : WReg) : (c.setWreg i r).trapslot = c.trapslot := rfl
@[simp] theorem Ctx.setWreg_ebudget (c : Ctx) (i : BitVec 3) (r : WReg) : (c.setWreg i r).ebudget = c.ebudget := rfl
@[simp] theorem Ctx.setWreg_eunder (c : Ctx) (i : BitVec 3) (r : WReg) : (c.setWreg i r).eunder = c.eunder := rfl
@[simp] theorem Ctx.setWreg_pend (c : Ctx) (i : BitVec 3) (r : WReg) : (c.setWreg i r).pend = c.pend := rfl
@[simp] theorem Ctx.setWreg_arrived (c : Ctx) (i : BitVec 3) (r : WReg) : (c.setWreg i r).arrived = c.arrived := rfl
@[simp] theorem Ctx.setWreg_ldq (c : Ctx) (i : BitVec 3) (r : WReg) : (c.setWreg i r).ldq = c.ldq := rfl
@[simp] theorem Ctx.setWreg_stq (c : Ctx) (i : BitVec 3) (r : WReg) : (c.setWreg i r).stq = c.stq := rfl
@[simp] theorem Ctx.setWreg_jobs (c : Ctx) (i : BitVec 3) (r : WReg) : (c.setWreg i r).jobs = c.jobs := rfl
@[simp] theorem Ctx.setWreg_phase (c : Ctx) (i : BitVec 3) (r : WReg) : (c.setWreg i r).phase = c.phase := rfl
@[simp] theorem Ctx.setWreg_pc (c : Ctx) (i : BitVec 3) (r : WReg) : (c.setWreg i r).pc = c.pc := rfl
@[simp] theorem Ctx.setWreg_loop (c : Ctx) (i : BitVec 3) (r : WReg) : (c.setWreg i r).loop = c.loop := rfl
@[simp] theorem Ctx.setWreg_frame (c : Ctx) (i : BitVec 3) (r : WReg) : (c.setWreg i r).frame = c.frame := rfl

@[simp] theorem Ctx.setNreg_s (c : Ctx) (i : Nat) (r : NReg) : (c.setNreg i r).s = c.s := rfl
@[simp] theorem Ctx.setNreg_p (c : Ctx) (i : Nat) (r : NReg) : (c.setNreg i r).p = c.p := rfl
@[simp] theorem Ctx.setNreg_v (c : Ctx) (i : Nat) (r : NReg) : (c.setNreg i r).v = c.v := rfl
@[simp] theorem Ctx.setNreg_m (c : Ctx) (i : Nat) (r : NReg) : (c.setNreg i r).m = c.m := rfl
@[simp] theorem Ctx.setNreg_k (c : Ctx) (i : Nat) (r : NReg) : (c.setNreg i r).k = c.k := rfl
@[simp] theorem Ctx.setNreg_w (c : Ctx) (i : Nat) (r : NReg) : (c.setNreg i r).w = c.w := rfl
@[simp] theorem Ctx.setNreg_acc (c : Ctx) (i : Nat) (r : NReg) : (c.setNreg i r).acc = c.acc := rfl
@[simp] theorem Ctx.setNreg_accEmpty (c : Ctx) (i : Nat) (r : NReg) : (c.setNreg i r).accEmpty = c.accEmpty := rfl
@[simp] theorem Ctx.setNreg_accPois (c : Ctx) (i : Nat) (r : NReg) : (c.setNreg i r).accPois = c.accPois := rfl
@[simp] theorem Ctx.setNreg_vflg (c : Ctx) (i : Nat) (r : NReg) : (c.setNreg i r).vflg = c.vflg := rfl
@[simp] theorem Ctx.setNreg_mflags (c : Ctx) (i : Nat) (r : NReg) : (c.setNreg i r).mflags = c.mflags := rfl
@[simp] theorem Ctx.setNreg_rmode (c : Ctx) (i : Nat) (r : NReg) : (c.setNreg i r).rmode = c.rmode := rfl
@[simp] theorem Ctx.setNreg_srseed (c : Ctx) (i : Nat) (r : NReg) : (c.setNreg i r).srseed = c.srseed := rfl
@[simp] theorem Ctx.setNreg_srctr (c : Ctx) (i : Nat) (r : NReg) : (c.setNreg i r).srctr = c.srctr := rfl
@[simp] theorem Ctx.setNreg_retstack (c : Ctx) (i : Nat) (r : NReg) : (c.setNreg i r).retstack = c.retstack := rfl
@[simp] theorem Ctx.setNreg_trapcause (c : Ctx) (i : Nat) (r : NReg) : (c.setNreg i r).trapcause = c.trapcause := rfl
@[simp] theorem Ctx.setNreg_trapva (c : Ctx) (i : Nat) (r : NReg) : (c.setNreg i r).trapva = c.trapva := rfl
@[simp] theorem Ctx.setNreg_trappc (c : Ctx) (i : Nat) (r : NReg) : (c.setNreg i r).trappc = c.trappc := rfl
@[simp] theorem Ctx.setNreg_trapslot (c : Ctx) (i : Nat) (r : NReg) : (c.setNreg i r).trapslot = c.trapslot := rfl
@[simp] theorem Ctx.setNreg_ebudget (c : Ctx) (i : Nat) (r : NReg) : (c.setNreg i r).ebudget = c.ebudget := rfl
@[simp] theorem Ctx.setNreg_eunder (c : Ctx) (i : Nat) (r : NReg) : (c.setNreg i r).eunder = c.eunder := rfl
@[simp] theorem Ctx.setNreg_pend (c : Ctx) (i : Nat) (r : NReg) : (c.setNreg i r).pend = c.pend := rfl
@[simp] theorem Ctx.setNreg_arrived (c : Ctx) (i : Nat) (r : NReg) : (c.setNreg i r).arrived = c.arrived := rfl
@[simp] theorem Ctx.setNreg_ldq (c : Ctx) (i : Nat) (r : NReg) : (c.setNreg i r).ldq = c.ldq := rfl
@[simp] theorem Ctx.setNreg_stq (c : Ctx) (i : Nat) (r : NReg) : (c.setNreg i r).stq = c.stq := rfl
@[simp] theorem Ctx.setNreg_jobs (c : Ctx) (i : Nat) (r : NReg) : (c.setNreg i r).jobs = c.jobs := rfl
@[simp] theorem Ctx.setNreg_phase (c : Ctx) (i : Nat) (r : NReg) : (c.setNreg i r).phase = c.phase := rfl
@[simp] theorem Ctx.setNreg_pc (c : Ctx) (i : Nat) (r : NReg) : (c.setNreg i r).pc = c.pc := rfl
@[simp] theorem Ctx.setNreg_loop (c : Ctx) (i : Nat) (r : NReg) : (c.setNreg i r).loop = c.loop := rfl
@[simp] theorem Ctx.setNreg_frame (c : Ctx) (i : Nat) (r : NReg) : (c.setNreg i r).frame = c.frame := rfl

end Sys2Proof.Machine
end

