-- ==== Sys2Proof/Laws/Memory.lean ====
section
/-! SUPPORT. The byte memory: every operation keeps its canonical form, and a read after a write. -/

namespace Sys2Proof.Machine

/-! ### Rising keys -/

theorem srising_iff {α : Type} (m : SMap α) : srising m = true ↔ m.Pairwise (fun a b => a.1 < b.1) := by
  induction m with
  | nil => simp [srising]
  | cons e m ih =>
    cases m with
    | nil => simp [srising]
    | cons f m =>
      obtain ⟨j, v⟩ := e
      obtain ⟨k, w⟩ := f
      simp only [srising, Bool.and_eq_true, decide_eq_true_eq, ih]
      constructor
      · rintro ⟨h, hp⟩
        refine List.pairwise_cons.2 ⟨?_, hp⟩
        intro x hx
        rcases List.mem_cons.1 hx with rfl | hx
        · exact h
        · exact Nat.lt_trans h (List.rel_of_pairwise_cons hp hx)
      · intro hp
        exact ⟨List.rel_of_pairwise_cons hp (List.mem_cons_self ..), (List.pairwise_cons.1 hp).2⟩

theorem srising_filter {α : Type} (m : SMap α) (p : Nat × α → Bool) (h : srising m = true) : srising (m.filter p) = true :=
  (srising_iff _).2 (((srising_iff _).1 h).filter _)

theorem mem_sset {α : Type} (m : SMap α) (k : Nat) (v : α) (e : Nat × α) (h : e ∈ sset m k v) : e = (k, v) ∨ e ∈ m := by
  induction m with
  | nil => simpa [sset] using h
  | cons x m ih =>
    obtain ⟨j, w⟩ := x
    simp only [sset] at h
    split at h
    · rcases List.mem_cons.1 h with rfl | h
      · exact .inl rfl
      · exact .inr h
    · split at h
      · rcases List.mem_cons.1 h with rfl | h
        · exact .inl rfl
        · exact .inr (List.mem_cons_of_mem _ h)
      · rcases List.mem_cons.1 h with rfl | h
        · exact .inr (List.mem_cons_self ..)
        · rcases ih h with h | h
          · exact .inl h
          · exact .inr (List.mem_cons_of_mem _ h)

theorem srising_sset {α : Type} (m : SMap α) (k : Nat) (v : α) (h : srising m = true) : srising (sset m k v) = true := by
  rw [srising_iff] at h ⊢
  induction m with
  | nil => simp [sset]
  | cons x m ih =>
    obtain ⟨j, w⟩ := x
    have hc := List.pairwise_cons.1 h
    simp only [sset]
    split
    · rename_i hlt
      refine List.pairwise_cons.2 ⟨?_, h⟩
      intro y hy
      rcases List.mem_cons.1 hy with rfl | hy
      · exact hlt
      · exact Nat.lt_trans hlt (hc.1 y hy)
    · split
      · rename_i _ heq
        subst heq
        exact List.pairwise_cons.2 ⟨fun y hy => hc.1 y hy, hc.2⟩
      · rename_i h1 h2
        refine List.pairwise_cons.2 ⟨?_, ih hc.2⟩
        intro y hy
        rcases mem_sset m k v y hy with rfl | hy
        · show j < k
          omega
        · exact hc.1 y hy

/-! ### The canonical form -/

theorem Memory.wf_iff (m : Memory) : m.wf = true ↔ srising m = true ∧ ∀ e ∈ m, e.2 ≠ 0 := by
  simp [Memory.wf, List.all_eq_true]

theorem Memory.wf_nil : Memory.wf [] = true := rfl

theorem Memory.wf_filter (m : Memory) (p : Nat × Byte → Bool) (h : m.wf = true) : Memory.wf (m.filter p) = true := by
  rw [Memory.wf_iff] at h ⊢
  exact ⟨srising_filter m p h.1, fun e he => h.2 e (List.mem_filter.1 he).1⟩

theorem Memory.wf_mset (m : Memory) (a : Nat) (b : Byte) (h : m.wf = true) : Memory.wf (mset m a b) = true := by
  unfold mset
  split
  · exact Memory.wf_filter m _ h
  · rename_i hb
    rw [Memory.wf_iff] at h ⊢
    refine ⟨srising_sset m a b h.1, ?_⟩
    intro e he
    rcases mem_sset m a b e he with rfl | he
    · exact hb
    · exact h.2 e he

theorem Memory.wf_msets (b : List Byte) : ∀ (m : Memory) (a : Nat), m.wf = true → Memory.wf (msets m a b) = true := by
  induction b with
  | nil => exact fun m a h => h
  | cons x b ih => exact fun m a h => ih _ _ (Memory.wf_mset m a x h)

theorem Memory.wf_foldl_mset {α : Type} (l : List α) (f : α → Nat × Byte) :
    ∀ m : Memory, m.wf = true → Memory.wf (l.foldl (fun m x => mset m (f x).1 (f x).2) m) = true := by
  induction l with
  | nil => exact fun m h => h
  | cons x l ih => exact fun m h => ih _ (Memory.wf_mset m _ _ h)

/-! ### Reading after writing -/

theorem sget_sdel_same {α : Type} (d : α) (m : SMap α) (k : Nat) : sget d (sdel m k) k = d := by
  unfold sdel
  induction m with
  | nil => rfl
  | cons e m ih =>
    obtain ⟨j, v⟩ := e
    by_cases h : j = k <;> simp_all [sget]

theorem sget_sdel_ne {α : Type} (d : α) (m : SMap α) (k j : Nat) (h : j ≠ k) : sget d (sdel m k) j = sget d m j := by
  unfold sdel
  induction m with
  | nil => rfl
  | cons e m ih =>
    obtain ⟨i, v⟩ := e
    by_cases hi : i = k
    · have : i ≠ j := fun e => h (e ▸ hi)
      simp_all [sget]
    · simp_all [sget]

@[simp] theorem mget_mset_same (m : Memory) (a : Nat) (b : Byte) : mget (mset m a b) a = b := by
  unfold mget mset
  split
  · rename_i h
    rw [sget_sdel_same, h]
  · exact sget_sset_same _ _ _ _

theorem mget_mset_ne (m : Memory) (a c : Nat) (b : Byte) (h : c ≠ a) : mget (mset m a b) c = mget m c := by
  unfold mget mset
  split
  · exact sget_sdel_ne _ _ _ _ h
  · exact sget_sset_ne _ _ _ _ _ h

theorem mget_msets (b : List Byte) : ∀ (m : Memory) (a c : Nat),
    mget (msets m a b) c = if a ≤ c ∧ c < a + b.length then b.getD (c - a) 0 else mget m c := by
  induction b with
  | nil =>
    intro m a c
    have h : ¬(a ≤ c ∧ c < a + ([] : List Byte).length) := by simp only [List.length_nil]; omega
    rw [if_neg h]
    rfl
  | cons x b ih =>
    intro m a c
    rw [msets, ih]
    by_cases hc : c = a
    · subst hc
      have h1 : ¬(c + 1 ≤ c ∧ c < c + 1 + b.length) := by omega
      have h2 : c ≤ c ∧ c < c + (x :: b).length := by simp
      rw [if_neg h1, if_pos h2, mget_mset_same]
      simp
    · by_cases h : a + 1 ≤ c ∧ c < a + 1 + b.length
      · have h2 : a ≤ c ∧ c < a + (x :: b).length := by
          simp only [List.length_cons]; omega
        rw [if_pos h, if_pos h2]
        have : c - a = (c - (a + 1)) + 1 := by omega
        rw [this, List.getD_cons_succ]
      · have h2 : ¬(a ≤ c ∧ c < a + (x :: b).length) := by
          simp only [List.length_cons]; omega
        rw [if_neg h, if_neg h2, mget_mset_ne _ _ _ _ hc]

@[simp] theorem mgets_length (m : Memory) (a n : Nat) : (mgets m a n).length = n := by
  induction n generalizing a with
  | zero => rfl
  | succ n ih => simp [mgets, ih]

/-! ### The memory of the machine -/

theorem Mem.wr_wf (m : Mem) (a : Nat) (l : List PByte) (h : m.bytes.wf = true) : (m.wr a l).bytes.wf = true :=
  Memory.wf_msets _ _ _ h

theorem Mem.homeWr_wf (m : Mem) (pa : Nat) (l : List PByte) (h : m.bytes.wf = true) : (m.homeWr pa l).bytes.wf = true := by
  unfold Mem.homeWr
  split
  · exact h
  · split
    · exact h
    · exact Mem.wr_wf m _ l h

/-- The bytes of storage after a write: those written where written, the others as before. -/
theorem Mem.mget_wr (m : Mem) (a c : Nat) (l : List PByte) :
    mget (m.wr a l).bytes c = if a ≤ c ∧ c < a + l.length then (pvals l).getD (c - a) 0 else mget m.bytes c := by
  have h := mget_msets (pvals l) m.bytes a c
  rw [show (pvals l).length = l.length from by simp [pvals]] at h
  exact h

end Sys2Proof.Machine
end

