-- ==== Sys2Proof/Laws/Ops.lean ====
section
/-! SUPPORT. What each shared operation of a slot instruction can do, said once. -/

namespace Sys2Proof.Machine

/-! ### The checks of a slot -/

theorem Ctx.canUse_iff (c : Ctx) (g : Option Guard) (x : List FReg) :
    c.canUse g x = true ↔ c.holds g = true ∧ c.guardPoisoned g = false ∧ ∀ y ∈ x, c.isFull y = true := by
  simp [Ctx.canUse, List.all_eq_true, and_assoc]

theorem Ctx.trapsEmpty_full (c : Ctx) (srcs : List (FReg × Bool)) (h : ∀ y ∈ srcs.map (·.1), c.isFull y = true) :
    c.trapsEmpty srcs = false := by
  unfold Ctx.trapsEmpty
  rw [List.any_eq_false]
  intro o ho
  simp [h o.1 (List.mem_map_of_mem ho)]

theorem Ctx.blocks_full (c : Ctx) (srcs : List (FReg × Bool)) (dsts : List FReg)
    (h : ∀ y ∈ srcs.map (·.1) ++ dsts, c.isFull y = true) : c.blocks srcs dsts = false := by
  unfold Ctx.blocks
  rw [Bool.or_eq_false_iff, List.any_eq_false, List.any_eq_false]
  constructor
  · intro o ho
    simp [h o.1 (List.mem_append_left _ (List.mem_map_of_mem ho))]
  · intro d hd
    simp [h d (List.mem_append_right _ hd)]

/-- The operand checks of a slot whose operands stand ready leave its own run-time checks. -/
theorem SlotSem.verdict_ready (m : SlotSem) (s : State)
    (hu : s.ctx.canUse m.guard (m.srcs.map (·.1) ++ m.dsts) = true) (hr : m.run s = .go)
    (hq : s.ctx.room m.need = true) (hj : s.ctx.jobRoom m.jobs = true) : m.verdict s = .go := by
  obtain ⟨hh, hp, hf⟩ := (Ctx.canUse_iff _ _ _).1 hu
  have h1 := Ctx.trapsEmpty_full s.ctx m.srcs (fun y hy => hf y (List.mem_append_left _ hy))
  have h2 := Ctx.blocks_full s.ctx m.srcs m.dsts hf
  simp [SlotSem.verdict, hh, hp, h1, h2, hr, hq, hj]

/-- A slot instruction that passes every check has its effect. -/
theorem runSlot_passes (i : Instr) (m : SlotSem) (s : State) (h : s.passes i m) : runSlot i m s = .next (m.eff s) := by
  obtain ⟨hu, hs, hr, hq, hj⟩ := h
  have hh := ((Ctx.canUse_iff _ _ _).1 hu).1
  unfold runSlot
  split
  · simp [SlotSem.apply, hh]
  · simp [hs, m.verdict_ready s hu hr hq hj, SlotSem.apply, hh]

/-- What a slot instruction can do: its effect where its guard holds, nothing where it does not, a frozen cycle, a cycle
with a walk, or a trap. -/
theorem runSlot_cases (i : Instr) (m : SlotSem) (s t : State) (h : runSlot i m s = .next t) :
    (s.ctx.holds m.guard = true ∧ t = m.eff s) ∨ (s.ctx.holds m.guard = false ∧ t = s) ∨
    (s.cur.go = false ∧ t = s.frozenCycle) ∨ (s.cur.go = false ∧ ∃ va, t = s.walkCycle va) ∨
    (s.cur.go = false ∧ ∃ x, t = s.trapHere x) := by
  have ha : ∀ u, (.next (m.apply s) : Host.Outcome State Fault Refusal) = .next u →
      (s.ctx.holds m.guard = true ∧ u = m.eff s) ∨ (s.ctx.holds m.guard = false ∧ u = s) := by
    intro u hu
    injection hu with hu
    subst hu
    unfold SlotSem.apply
    cases hh : s.ctx.holds m.guard
    · exact .inr ⟨rfl, by simp⟩
    · exact .inl ⟨rfl, by simp⟩
  unfold runSlot at h
  split at h
  · rcases ha t h with h | h
    · exact .inl h
    · exact .inr (.inl h)
  · rename_i hgo
    have hgo : s.cur.go = false := by simpa using hgo
    split at h
    · injection h with h
      exact .inr (.inr (.inr (.inr ⟨hgo, _, h.symm⟩)))
    · split at h
      · rcases ha t h with h | h
        · exact .inl h
        · exact .inr (.inl h)
      · injection h with h
        exact .inr (.inr (.inl ⟨hgo, h.symm⟩))
      · injection h with h
        exact .inr (.inr (.inr (.inl ⟨hgo, _, h.symm⟩)))
      · injection h with h
        exact .inr (.inr (.inr (.inr ⟨hgo, _, h.symm⟩)))

/-- A slot instruction always answers a next state. -/
theorem runSlot_next (i : Instr) (m : SlotSem) (s : State) : ∃ t, runSlot i m s = .next t := by
  unfold runSlot
  split
  · exact ⟨_, rfl⟩
  · split
    · exact ⟨_, rfl⟩
    · split <;> exact ⟨_, rfl⟩

end Sys2Proof.Machine
end

