-- ==== Sys2Proof/Tests/Slice0.lean ====
section
/-! SUPPORT. Tests: ill-formed terms that the static checks refuse; words put together from the spec's encodings; states and operands
that meet the hypotheses of the statements; single steps. -/

namespace Sys2Proof.Tests

set_option Elab.async false

open Sys2Proof Sys2Proof.Machine

/-- Words put together from the encodings of 03 R45, 05 R87, R88, R91. -/
theorem decode_scalar_arith :
    decodeScalar 0x00000000 = .ok (.snop)
    ∧ decodeScalar 0x06EA9738 = .ok (.add ⟨⟨5, true⟩, 42, 37, 51, true, false⟩)
    ∧ decodeScalar 0x0AEA9738 = .ok (.sub ⟨⟨5, true⟩, 42, 37, 51, true, false⟩)
    ∧ decodeScalar 0x0EEA9738 = .ok (.mul ⟨⟨5, true⟩, 42, 37, 51, true, false⟩)
    ∧ decodeScalar 0x12EA9738 = .ok (.mulh ⟨⟨5, true⟩, 42, 37, 51, true, false⟩)
    ∧ decodeScalar 0x12EA9739 = .ok (.mulhu ⟨⟨5, true⟩, 42, 37, 51, true, false⟩)
    ∧ decodeScalar 0x12EA973A = .ok (.mulhsu ⟨⟨5, true⟩, 42, 37, 51, true, false⟩)
    ∧ decodeScalar 0x16EA9738 = .ok (.div ⟨⟨5, true⟩, 42, 37, 51, true, false⟩)
    ∧ decodeScalar 0x16EA9739 = .ok (.divu ⟨⟨5, true⟩, 42, 37, 51, true, false⟩)
    ∧ decodeScalar 0x16EA973A = .ok (.rem ⟨⟨5, true⟩, 42, 37, 51, true, false⟩)
    ∧ decodeScalar 0x16EA973B = .ok (.remu ⟨⟨5, true⟩, 42, 37, 51, true, false⟩)
    ∧ decodeScalar 0x1AEA9738 = .ok (.and ⟨⟨5, true⟩, 42, 37, 51, true, false⟩)
    ∧ decodeScalar 0x1EEA9738 = .ok (.or ⟨⟨5, true⟩, 42, 37, 51, true, false⟩)
    ∧ decodeScalar 0x22EA9738 = .ok (.xor ⟨⟨5, true⟩, 42, 37, 51, true, false⟩)
    ∧ decodeScalar 0x26EA9738 = .ok (.andn ⟨⟨5, true⟩, 42, 37, 51, true, false⟩)
    ∧ decodeScalar 0x2AEA9738 = .ok (.shl ⟨⟨5, true⟩, 42, 37, 51, true, false⟩)
    ∧ decodeScalar 0x2EEA9738 = .ok (.shr ⟨⟨5, true⟩, 42, 37, 51, true, false⟩)
    ∧ decodeScalar 0x32EA9738 = .ok (.sar ⟨⟨5, true⟩, 42, 37, 51, true, false⟩)
    ∧ decodeScalar 0x36EA9738 = .ok (.ror ⟨⟨5, true⟩, 42, 37, 51, true, false⟩)
    ∧ decodeScalar 0x3AEA9738 = .ok (.min ⟨⟨5, true⟩, 42, 37, 51, true, false⟩)
    ∧ decodeScalar 0x3AEA9739 = .ok (.minu ⟨⟨5, true⟩, 42, 37, 51, true, false⟩)
    ∧ decodeScalar 0x3AEA973A = .ok (.max ⟨⟨5, true⟩, 42, 37, 51, true, false⟩)
    ∧ decodeScalar 0x3AEA973B = .ok (.maxu ⟨⟨5, true⟩, 42, 37, 51, true, false⟩)
    ∧ decodeScalar 0x46EA9738 = .ok (.sel ⟨⟨5, true⟩, 42, 37, 51, true, false⟩) :=
  ⟨rfl, rfl, rfl, rfl, rfl, rfl, rfl, rfl, rfl, rfl, rfl, rfl, rfl, rfl, rfl, rfl, rfl, rfl, rfl, rfl, rfl, rfl, rfl, rfl⟩

/-- Words put together from the encodings of 03 R45, 05 R90, R92, R93. -/
theorem decode_scalar_unary :
    decodeScalar 0x3EC6973F = .ok (.cmp ⟨⟨5, true⟩, 6, 37, 51, true, true, 3⟩)
    ∧ decodeScalar 0x42C6973F = .ok (.cmpu ⟨⟨5, true⟩, 6, 37, 51, true, true, 3⟩)
    ∧ decodeScalar 0x4AEA9408 = .ok (.clz ⟨⟨5, true⟩, 42, 37, true⟩)
    ∧ decodeScalar 0x4AEA9409 = .ok (.ctz ⟨⟨5, true⟩, 42, 37, true⟩)
    ∧ decodeScalar 0x4AEA940A = .ok (.popc ⟨⟨5, true⟩, 42, 37, true⟩)
    ∧ decodeScalar 0x4AEA940B = .ok (.brev ⟨⟨5, true⟩, 42, 37, true⟩)
    ∧ decodeScalar 0x4EEA9408 = .ok (.sextb ⟨⟨5, true⟩, 42, 37, true⟩)
    ∧ decodeScalar 0x4EEA9409 = .ok (.sexth ⟨⟨5, true⟩, 42, 37, true⟩)
    ∧ decodeScalar 0x4EEA940A = .ok (.sextw ⟨⟨5, true⟩, 42, 37, true⟩)
    ∧ decodeScalar 0x4EEA940B = .ok (.zextw ⟨⟨5, true⟩, 42, 37, true⟩)
    ∧ decodeScalar 0x52C60C50 = .ok (.pand ⟨⟨5, true⟩, 6, 3, 5⟩)
    ∧ decodeScalar 0x52C60C51 = .ok (.por ⟨⟨5, true⟩, 6, 3, 5⟩)
    ∧ decodeScalar 0x52C60C52 = .ok (.pxor ⟨⟨5, true⟩, 6, 3, 5⟩)
    ∧ decodeScalar 0x52C60C53 = .ok (.pandn ⟨⟨5, true⟩, 6, 3, 5⟩)
    ∧ decodeScalar 0x56EA0000 = .ok (.mfp ⟨⟨5, true⟩, 42⟩)
    ∧ decodeScalar 0x56C09409 = .ok (.mtp ⟨⟨5, true⟩, 37, true⟩) :=
  ⟨rfl, rfl, rfl, rfl, rfl, rfl, rfl, rfl, rfl, rfl, rfl, rfl, rfl, rfl, rfl, rfl⟩

/-- Words put together from the encodings of 03 R45 to R47, 05 R89, R90, R94 to R96. -/
theorem decode_scalar_imm :
    decodeScalar 0x5AA94C24 = .ok (.bfx ⟨42, 37, 12, 9⟩)
    ∧ decodeScalar 0x5EA94C24 = .ok (.bfi ⟨42, 37, 12, 9⟩)
    ∧ decodeScalar 0x62EA9755 = .ok (.addi ⟨⟨5, true⟩, 42, 37, true, 341⟩)
    ∧ decodeScalar 0x66EA9755 = .ok (.andi ⟨⟨5, true⟩, 42, 37, true, 341⟩)
    ∧ decodeScalar 0x6AEA9755 = .ok (.ori ⟨⟨5, true⟩, 42, 37, true, 341⟩)
    ∧ decodeScalar 0x6EEA9755 = .ok (.xori ⟨⟨5, true⟩, 42, 37, true, 341⟩)
    ∧ decodeScalar 0x72EA962B = .ok (.shli ⟨⟨5, true⟩, 42, 37, true, 43⟩)
    ∧ decodeScalar 0x76EA962B = .ok (.shri ⟨⟨5, true⟩, 42, 37, true, 43⟩)
    ∧ decodeScalar 0x7AEA962B = .ok (.sari ⟨⟨5, true⟩, 42, 37, true, 43⟩)
    ∧ decodeScalar 0x7EEA9755 = .ok (.muli ⟨⟨5, true⟩, 42, 37, true, 341⟩)
    ∧ decodeScalar 0x82C6976B = .ok (.cmpi ⟨⟨5, true⟩, 6, 37, true, 5, 43⟩)
    ∧ decodeScalar 0x86EABEEF = .ok (.movi ⟨⟨5, true⟩, 42, 48879⟩)
    ∧ decodeScalar 0x8A2ABEEF = .ok (.movk ⟨2, 42, 48879⟩)
    ∧ decodeScalar 0x8EEA96AB = .ok (.vget ⟨⟨5, true⟩, 42, 37, true, 1, 43⟩) :=
  ⟨rfl, rfl, rfl, rfl, rfl, rfl, rfl, rfl, rfl, rfl, rfl, rfl, rfl, rfl⟩

/-- Words put together from the encodings of 03 R45 to R47, 05 R97 to R107. -/
theorem decode_control :
    decodeScalar 0xA2C000A7 = .ok (.br ⟨⟨5, true⟩, 167⟩)
    ∧ decodeScalar 0xA6C025A7 = .ok (.loop ⟨⟨5, true⟩, 37, 167⟩)
    ∧ decodeScalar 0xAAD425A7 = .ok (.nest ⟨⟨5, true⟩, 5, 37, 167⟩)
    ∧ decodeScalar 0xAEC00000 = .ok (.next ⟨5, true⟩)
    ∧ decodeScalar 0xB2C02500 = .ok (.calls ⟨⟨5, true⟩, 37⟩)
    ∧ decodeScalar 0xB6C00000 = .ok (.rets ⟨5, true⟩)
    ∧ decodeScalar 0xBAC00000 = .ok (.yieldEnd ⟨5, true⟩)
    ∧ decodeScalar 0xBAC40000 = .ok (.yieldExit ⟨5, true⟩)
    ∧ decodeScalar 0xBAC80000 = .ok (.yieldHdone ⟨5, true⟩)
    ∧ decodeScalar 0xBEC2A500 = .ok (.trap ⟨⟨5, true⟩, 677⟩)
    ∧ decodeScalar 0xC2EA0480 = .ok (.mfs ⟨⟨5, true⟩, 42, 72⟩)
    ∧ decodeScalar 0xC6EA0488 = .ok (.mts ⟨⟨5, true⟩, 42, 72, true⟩)
    ∧ decodeScalar 0xCAEA0000 = .ok (.rdtimePtime ⟨⟨5, true⟩, 42⟩)
    ∧ decodeScalar 0xCAEA0010 = .ok (.rdtimeCycles ⟨⟨5, true⟩, 42⟩) :=
  ⟨rfl, rfl, rfl, rfl, rfl, rfl, rfl, rfl, rfl, rfl, rfl, rfl, rfl, rfl⟩

/-- Words put together from the encodings of 03 R48, R49. -/
theorem decode_vector_a :
    decodeVector 0x000000000000 = .ok (.vnop)
    ∧ decodeVector 0x02D7D54B9818 = .ok (.vadd ⟨1, 5, 3, true, 6, 42, 37, 51, 0, true, true, false, false⟩)
    ∧ decodeVector 0x04D7D54B9818 = .ok (.vsub ⟨1, 5, 3, true, 6, 42, 37, 51, 0, true, true, false, false⟩)
    ∧ decodeVector 0x06D7D54B9818 = .ok (.vmul ⟨1, 5, 3, true, 6, 42, 37, 51, 0, true, true, false, false⟩)
    ∧ decodeVector 0x08D7D54B9ADC = .ok (.vfma ⟨1, 5, 3, true, 6, 42, 37, 51, 22, true, true, true, false⟩)
    ∧ decodeVector 0x0AD7D54B9ADC = .ok (.vfms ⟨1, 5, 3, true, 6, 42, 37, 51, 22, true, true, true, false⟩)
    ∧ decodeVector 0x0CD7D54B9ADC = .ok (.vfnma ⟨1, 5, 3, true, 6, 42, 37, 51, 22, true, true, true, false⟩)
    ∧ decodeVector 0x0ED1D54B9818 = .ok (.vmin ⟨1, 5, 0, true, 6, 42, 37, 51, 0, true, true, false, false⟩)
    ∧ decodeVector 0x10D1D54B9818 = .ok (.vmax ⟨1, 5, 0, true, 6, 42, 37, 51, 0, true, true, false, false⟩)
    ∧ decodeVector 0x12D1D54B9818 = .ok (.vminn ⟨1, 5, 0, true, 6, 42, 37, 51, 0, true, true, false, false⟩)
    ∧ decodeVector 0x14D1D54B9818 = .ok (.vmaxn ⟨1, 5, 0, true, 6, 42, 37, 51, 0, true, true, false, false⟩)
    ∧ decodeVector 0x16D1D54A0010 = .ok (.vabs ⟨1, 5, 0, true, 6, 42, 37, 0, 0, true, false, false, false⟩)
    ∧ decodeVector 0x18D1D54A0010 = .ok (.vneg ⟨1, 5, 0, true, 6, 42, 37, 0, 0, true, false, false, false⟩)
    ∧ decodeVector 0x1A90D54B9818 = .ok (.vand ⟨1, 1, 0, false, 6, 42, 37, 51, 0, true, true, false, false⟩)
    ∧ decodeVector 0x1C90D54B9818 = .ok (.vor ⟨1, 1, 0, false, 6, 42, 37, 51, 0, true, true, false, false⟩)
    ∧ decodeVector 0x1E90D54B9818 = .ok (.vxor ⟨1, 1, 0, false, 6, 42, 37, 51, 0, true, true, false, false⟩)
    ∧ decodeVector 0x2090D54B9818 = .ok (.vandn ⟨1, 1, 0, false, 6, 42, 37, 51, 0, true, true, false, false⟩)
    ∧ decodeVector 0x2290D54B981A = .ok (.vshl ⟨1, 1, 0, false, 6, 42, 37, 51, 0, true, true, false, true⟩)
    ∧ decodeVector 0x2490D54B9818 = .ok (.vshr ⟨1, 1, 0, false, 6, 42, 37, 51, 0, true, true, false, false⟩)
    ∧ decodeVector 0x2690D54B9818 = .ok (.vsar ⟨1, 1, 0, false, 6, 42, 37, 51, 0, true, true, false, false⟩)
    ∧ decodeVector 0x2890D54A01B2 = .ok (.vshli ⟨1, 1, 0, false, 6, 42, 37, 0, 13, true, false, false, true⟩)
    ∧ decodeVector 0x2A90D54A01B0 = .ok (.vshri ⟨1, 1, 0, false, 6, 42, 37, 0, 13, true, false, false, false⟩)
    ∧ decodeVector 0x2C90D54A01B0 = .ok (.vsari ⟨1, 1, 0, false, 6, 42, 37, 0, 13, true, false, false, false⟩) :=
  ⟨rfl, rfl, rfl, rfl, rfl, rfl, rfl, rfl, rfl, rfl, rfl, rfl, rfl, rfl, rfl, rfl, rfl, rfl, rfl, rfl, rfl, rfl, rfl⟩

/-- Words put together from the encodings of 03 R48, R49. -/
theorem decode_vector_b :
    decodeVector 0x2ED1C2CB98D8 = .ok (.vcmp ⟨1, 5, 0, true, 6, 5, 37, 51, 6, true, true, false, false⟩)
    ∧ decodeVector 0x30D0D54B9818 = .ok (.vsel ⟨1, 5, 0, false, 6, 42, 37, 51, 0, true, true, false, false⟩)
    ∧ decodeVector 0x32D7D54A0092 = .ok (.vcvt ⟨1, 5, 3, true, 6, 42, 37, 0, 4, true, false, false, true⟩)
    ∧ decodeVector 0x34D0D54B9818 = .ok (.vperm ⟨1, 5, 0, false, 6, 42, 37, 51, 0, true, true, false, false⟩)
    ∧ decodeVector 0x36D0D54A0150 = .ok (.vshuf ⟨1, 5, 0, false, 6, 42, 37, 0, 10, true, false, false, false⟩)
    ∧ decodeVector 0x38D0D54A0010 = .ok (.vbcast ⟨1, 5, 0, false, 6, 42, 37, 0, 0, true, false, false, false⟩)
    ∧ decodeVector 0x3AD6D54B9AC0 = .ok (.vmovi ⟨1, 5, 3, false, 6, 42, 37, 51, 22, false, false, false, false⟩)
    ∧ decodeVector 0x3CD7D54A0050 = .ok (.vred ⟨1, 5, 3, true, 6, 42, 37, 0, 2, true, false, false, false⟩)
    ∧ decodeVector 0x3ED7D54A0050 = .ok (.vscan ⟨1, 5, 3, true, 6, 42, 37, 0, 2, true, false, false, false⟩)
    ∧ decodeVector 0x40D0D54A0010 = .ok (.vmov ⟨1, 5, 0, false, 6, 42, 37, 0, 0, true, false, false, false⟩)
    ∧ decodeVector 0x4290D54A0010 = .ok (.vclz ⟨1, 1, 0, false, 6, 42, 37, 0, 0, true, false, false, false⟩)
    ∧ decodeVector 0x4490D54A0010 = .ok (.vpopc ⟨1, 1, 0, false, 6, 42, 37, 0, 0, true, false, false, false⟩)
    ∧ decodeVector 0x4690D54B9818 = .ok (.vmulh ⟨1, 1, 0, false, 6, 42, 37, 51, 0, true, true, false, false⟩)
    ∧ decodeVector 0x48A0D54B9ADE = .ok (.vdot4 ⟨1, 2, 0, false, 6, 42, 37, 51, 22, true, true, true, true⟩)
    ∧ decodeVector 0x4AD7D54B98D8 = .ok (.vmxq ⟨1, 5, 3, true, 6, 42, 37, 51, 6, true, true, false, false⟩)
    ∧ decodeVector 0x4CD7D54B98D8 = .ok (.vmxdq ⟨1, 5, 3, true, 6, 42, 37, 51, 6, true, true, false, false⟩)
    ∧ decodeVector 0x4E00028C1840 = .ok (.vmlog ⟨0, 0, 0, false, 0, 5, 6, 3, 2, false, false, false, false⟩)
    ∧ decodeVector 0x50D0150C0000 = .ok (.vmcnt ⟨1, 5, 0, false, 0, 42, 6, 0, 0, false, false, false, false⟩)
    ∧ decodeVector 0x52D0D54A0130 = .ok (.vins ⟨1, 5, 0, false, 6, 42, 37, 0, 9, true, false, false, false⟩) :=
  ⟨rfl, rfl, rfl, rfl, rfl, rfl, rfl, rfl, rfl, rfl, rfl, rfl, rfl, rfl, rfl, rfl, rfl, rfl, rfl⟩

/-- Words put together from the encodings of 03 R50. -/
theorem decode_special :
    decodeSpecial 0x00000000 = .ok (.fnop)
    ∧ decodeSpecial 0x05AFAA92 = .ok (.fexp2 ⟨1, 5, 3, true, 6, 42, 36, true⟩)
    ∧ decodeSpecial 0x09AFAA92 = .ok (.flog2 ⟨1, 5, 3, true, 6, 42, 36, true⟩)
    ∧ decodeSpecial 0x0DAFAA92 = .ok (.frcp ⟨1, 5, 3, true, 6, 42, 36, true⟩)
    ∧ decodeSpecial 0x11AFAA92 = .ok (.frsqrt ⟨1, 5, 3, true, 6, 42, 36, true⟩)
    ∧ decodeSpecial 0x15AFAA92 = .ok (.fsqrt ⟨1, 5, 3, true, 6, 42, 36, true⟩)
    ∧ decodeSpecial 0x19AFAA92 = .ok (.ftanh ⟨1, 5, 3, true, 6, 42, 36, true⟩)
    ∧ decodeSpecial 0x1DAFAA92 = .ok (.fsin ⟨1, 5, 3, true, 6, 42, 36, true⟩)
    ∧ decodeSpecial 0x21AFAA92 = .ok (.fcos ⟨1, 5, 3, true, 6, 42, 36, true⟩)
    ∧ decodeSpecial 0x29802A92 = .ok (.spk24 ⟨1, 4, 0, false, 0, 42, 36, true⟩)
    ∧ decodeSpecial 0x2D802A92 = .ok (.spx24 ⟨1, 4, 0, false, 0, 42, 36, true⟩)
    ∧ decodeSpecial 0x31A22A92 = .ok (.vsort ⟨1, 5, 0, true, 0, 42, 36, true⟩)
    ∧ decodeSpecial 0x35A1AA92 = .ok (.vsrch ⟨1, 5, 0, false, 6, 42, 36, true⟩)
    ∧ decodeSpecial 0x39A1AA92 = .ok (.mxscl ⟨1, 5, 0, false, 6, 42, 36, true⟩)
    ∧ decodeSpecial 0x3D41AA00 = .ok (.vundc ⟨1, 2, 0, false, 6, 42, 0, false⟩)
    ∧ decodeSpecial 0x4141AA00 = .ok (.frill ⟨1, 2, 0, false, 6, 42, 0, false⟩) :=
  ⟨rfl, rfl, rfl, rfl, rfl, rfl, rfl, rfl, rfl, rfl, rfl, rfl, rfl, rfl, rfl, rfl⟩

/-- Words put together from the encodings of 03 R51 to R53, 08 R168. -/
theorem decode_memory_access :
    decodeMemory 0x0000000000000000 = .ok (.mnop)
    ∧ decodeMemory 0x037AA973AD0ABCDE = .ok (.ld ⟨⟨5, true⟩, 6, 42, 37, 51, true, false, 0x2D0ABCDE⟩)
    ∧ decodeMemory 0x056AA973ED0ABCDE = .ok (.st ⟨⟨5, true⟩, 2, 42, 37, 51, true, true, 0x2D0ABCDE⟩)
    ∧ decodeMemory 0x0766A973AD0ABCDE = .ok (.ldv ⟨⟨5, true⟩, 1, 42, 37, 51, true, false, 0x2D0ABCDE⟩)
    ∧ decodeMemory 0x096AA973ED0ABCDE = .ok (.stv ⟨⟨5, true⟩, 2, 42, 37, 51, true, true, 0x2D0ABCDE⟩)
    ∧ decodeMemory 0x0B60B973AC0ABCDE = .ok (.ldsc ⟨⟨5, true⟩, 0, 11, 37, 51, true, false, 0x2C0ABCDE⟩)
    ∧ decodeMemory 0x0D606973AD0ABCDE = .ok (.wset ⟨⟨5, true⟩, 0, 6, 37, 51, true, false, 0x2D0ABCDE⟩)
    ∧ decodeMemory 0x0F600973AC0ABCDE = .ok (.cflushClean ⟨⟨5, true⟩, 0, 0, 37, 51, true, false, 0x2C0ABCDE⟩)
    ∧ decodeMemory 0x0F640973AC0ABCDE = .ok (.cflushFlush ⟨⟨5, true⟩, 0, 0, 37, 51, true, false, 0x2C0ABCDE⟩)
    ∧ decodeMemory 0x0F680973AC0ABCDE = .ok (.cflushInv ⟨⟨5, true⟩, 0, 0, 37, 51, true, false, 0x2C0ABCDE⟩)
    ∧ decodeMemory 0x0F6C0973AC0ABCDE = .ok (.cflushRangenc ⟨⟨5, true⟩, 0, 0, 37, 51, true, false, 0x2C0ABCDE⟩)
    ∧ decodeMemory 0x1360000000000000 = .ok (.qmark ⟨⟨5, true⟩, 0, 0, 0, 0, false, false, 0x0⟩)
    ∧ decodeMemory 0x1570000000000002 = .ok (.fence ⟨⟨5, true⟩, 4, 0, 0, 0, false, false, 0x2⟩) :=
  ⟨rfl, rfl, rfl, rfl, rfl, rfl, rfl, rfl, rfl, rfl, rfl, rfl, rfl⟩

/-- Words put together from the encodings of 03 R51, R53, 08 R169. -/
theorem decode_atomic :
    decodeMemory 0x1166A973A002ABCD = .ok (.atomSwap ⟨⟨5, true⟩, 1, 42, 37, 51, true, false, 0x2002ABCD⟩)
    ∧ decodeMemory 0x1166A973A15AABCD = .ok (.atomCas ⟨⟨5, true⟩, 1, 42, 37, 51, true, false, 0x205AABCD⟩)
    ∧ decodeMemory 0x1166A973A202ABCD = .ok (.atomAdd ⟨⟨5, true⟩, 1, 42, 37, 51, true, false, 0x2002ABCD⟩)
    ∧ decodeMemory 0x1166A973A302ABCD = .ok (.atomAnd ⟨⟨5, true⟩, 1, 42, 37, 51, true, false, 0x2002ABCD⟩)
    ∧ decodeMemory 0x1166A973A402ABCD = .ok (.atomOr ⟨⟨5, true⟩, 1, 42, 37, 51, true, false, 0x2002ABCD⟩)
    ∧ decodeMemory 0x1166A973A502ABCD = .ok (.atomXor ⟨⟨5, true⟩, 1, 42, 37, 51, true, false, 0x2002ABCD⟩)
    ∧ decodeMemory 0x1166A973A602ABCD = .ok (.atomMin ⟨⟨5, true⟩, 1, 42, 37, 51, true, false, 0x2002ABCD⟩)
    ∧ decodeMemory 0x1166A973A702ABCD = .ok (.atomMax ⟨⟨5, true⟩, 1, 42, 37, 51, true, false, 0x2002ABCD⟩)
    ∧ decodeMemory 0x1166A973A802ABCD = .ok (.atomMinu ⟨⟨5, true⟩, 1, 42, 37, 51, true, false, 0x2002ABCD⟩)
    ∧ decodeMemory 0x1166A973A902ABCD = .ok (.atomMaxu ⟨⟨5, true⟩, 1, 42, 37, 51, true, false, 0x2002ABCD⟩)
    ∧ decodeMemory 0x1162A973AA02ABCD = .ok (.atomFadd ⟨⟨5, true⟩, 0, 42, 37, 51, true, false, 0x2002ABCD⟩)
    ∧ decodeMemory 0x1166A973AB02ABCD = .ok (.atomIncw ⟨⟨5, true⟩, 1, 42, 37, 51, true, false, 0x2002ABCD⟩)
    ∧ decodeMemory 0x1166A973AC02ABCD = .ok (.atomLd ⟨⟨5, true⟩, 1, 42, 37, 51, true, false, 0x2002ABCD⟩) :=
  ⟨rfl, rfl, rfl, rfl, rfl, rfl, rfl, rfl, rfl, rfl, rfl, rfl, rfl⟩

/-- Words put together from the encodings of 03 R51, R53. -/
theorem decode_job :
    decodeMemory 0x2160094080000000 = .ok (.copy ⟨⟨5, true⟩, 0, 0, 37, 0, true, false, 0x0⟩)
    ∧ decodeMemory 0x2360094080000000 = .ok (.put ⟨⟨5, true⟩, 0, 0, 37, 0, true, false, 0x0⟩)
    ∧ decodeMemory 0x2560094080000000 = .ok (.get ⟨⟨5, true⟩, 0, 0, 37, 0, true, false, 0x0⟩)
    ∧ decodeMemory 0x2760094080000000 = .ok (.gather ⟨⟨5, true⟩, 0, 0, 37, 0, true, false, 0x0⟩)
    ∧ decodeMemory 0x2960094080000000 = .ok (.scatter ⟨⟨5, true⟩, 0, 0, 37, 0, true, false, 0x0⟩)
    ∧ decodeMemory 0x2B60094080000000 = .ok (.scadd ⟨⟨5, true⟩, 0, 0, 37, 0, true, false, 0x0⟩)
    ∧ decodeMemory 0x2D60094080000000 = .ok (.awr ⟨⟨5, true⟩, 0, 0, 37, 0, true, false, 0x0⟩)
    ∧ decodeMemory 0x2F62A94080000000 = .ok (.engwait ⟨⟨5, true⟩, 0, 42, 37, 0, true, false, 0x0⟩)
    ∧ decodeMemory 0x3160094080000000 = .ok (.cpresume ⟨⟨5, true⟩, 0, 0, 37, 0, true, false, 0x0⟩)
    ∧ decodeMemory 0x3360094080000000 = .ok (.cpabort ⟨⟨5, true⟩, 0, 0, 37, 0, true, false, 0x0⟩)
    ∧ decodeMemory 0x7960094080000000 = .ok (.slx ⟨⟨5, true⟩, 0, 0, 37, 0, true, false, 0x0⟩) :=
  ⟨rfl, rfl, rfl, rfl, rfl, rfl, rfl, rfl, rfl, rfl, rfl⟩

/-- Words put together from the encodings of 03 R51, R53, 08 R187. -/
theorem decode_sync_object :
    decodeMemory 0x4160097380000000 = .ok (.semsig ⟨⟨5, true⟩, 0, 0, 37, 51, true, false, 0x0⟩)
    ∧ decodeMemory 0x4368094080000007 = .ok (.phreg ⟨⟨5, true⟩, 2, 0, 37, 0, true, false, 0x7⟩)
    ∧ decodeMemory 0x4560094080000000 = .ok (.phdrop ⟨⟨5, true⟩, 0, 0, 37, 0, true, false, 0x0⟩)
    ∧ decodeMemory 0x4760094080000000 = .ok (.phsig ⟨⟨5, true⟩, 0, 0, 37, 0, true, false, 0x0⟩)
    ∧ decodeMemory 0x4960097380000000 = .ok (.phwait ⟨⟨5, true⟩, 0, 0, 37, 51, true, false, 0x0⟩)
    ∧ decodeMemory 0x4B60097380000000 = .ok (.phsw ⟨⟨5, true⟩, 0, 0, 37, 51, true, false, 0x0⟩)
    ∧ decodeMemory 0x4D62A94080000000 = .ok (.phstat ⟨⟨5, true⟩, 0, 42, 37, 0, true, false, 0x0⟩)
    ∧ decodeMemory 0x4F60000000000000 = .ok (.ring ⟨⟨5, true⟩, 0, 0, 0, 0, false, false, 0x0⟩)
    ∧ decodeMemory 0x5162A94080000000 = .ok (.sptest ⟨⟨5, true⟩, 0, 42, 37, 0, true, false, 0x0⟩)
    ∧ decodeMemory 0x5362A94080000000 = .ok (.spcastExplicit ⟨⟨5, true⟩, 0, 42, 37, 0, true, false, 0x0⟩)
    ∧ decodeMemory 0x5366A94080000000 = .ok (.spcastSelf ⟨⟨5, true⟩, 0, 42, 37, 0, true, false, 0x0⟩)
    ∧ decodeMemory 0x536AA94080000000 = .ok (.spcastTocluster ⟨⟨5, true⟩, 0, 42, 37, 0, true, false, 0x0⟩)
    ∧ decodeMemory 0x536EA94080000000 = .ok (.spcastFromcluster ⟨⟨5, true⟩, 0, 42, 37, 0, true, false, 0x0⟩)
    ∧ decodeMemory 0x5372A94080000000 = .ok (.spcastClexplicit ⟨⟨5, true⟩, 0, 42, 37, 0, true, false, 0x0⟩)
    ∧ decodeMemory 0x5376A94080000000 = .ok (.spcastClself ⟨⟨5, true⟩, 0, 42, 37, 0, true, false, 0x0⟩)
    ∧ decodeMemory 0x5562A97380000000 = .ok (.rocall ⟨⟨5, true⟩, 0, 42, 37, 51, true, false, 0x0⟩)
    ∧ decodeMemory 0x5762A94080000000 = .ok (.rowait ⟨⟨5, true⟩, 0, 42, 37, 0, true, false, 0x0⟩)
    ∧ decodeMemory 0x5960097380000000 = .ok (.jetmsg ⟨⟨5, true⟩, 0, 0, 37, 51, true, false, 0x0⟩) :=
  ⟨rfl, rfl, rfl, rfl, rfl, rfl, rfl, rfl, rfl, rfl, rfl, rfl, rfl, rfl, rfl, rfl, rfl, rfl⟩

/-- Words put together from the encodings of 03 R51, R53, R54. -/
theorem decode_matrix_range :
    decodeMemory 0x616E4D29DD2D2F00 = .ok (.mma ⟨⟨5, true⟩, 3, 4, 2, 1, 165, 3, 5, 6, 9, 6, 37, true, true, true⟩)
    ∧ decodeMemory 0x6360000000000002 = .ok (.mmz ⟨⟨5, true⟩, 0, 0, 0, 0, false, false, 0x2⟩)
    ∧ decodeMemory 0x6560097380000002 = .ok (.mmld ⟨⟨5, true⟩, 0, 0, 37, 51, true, false, 0x2⟩)
    ∧ decodeMemory 0x6760097380000002 = .ok (.mmst ⟨⟨5, true⟩, 0, 0, 37, 51, true, false, 0x2⟩)
    ∧ decodeMemory 0x6962A00000000963 = .ok (.mmrd ⟨⟨5, true⟩, 0, 42, 0, 0, false, false, 0x963⟩)
    ∧ decodeMemory 0x6B60094080000963 = .ok (.mmwr ⟨⟨5, true⟩, 0, 0, 37, 0, true, false, 0x963⟩)
    ∧ decodeMemory 0x7162A94080000000 = .ok (.rsplit ⟨⟨5, true⟩, 0, 42, 37, 0, true, false, 0x0⟩)
    ∧ decodeMemory 0x7362A94080000000 = .ok (.rmerge ⟨⟨5, true⟩, 0, 42, 37, 0, true, false, 0x0⟩)
    ∧ decodeMemory 0x7560094080000000 = .ok (.rinv ⟨⟨5, true⟩, 0, 0, 37, 0, true, false, 0x0⟩)
    ∧ decodeMemory 0x7762A94080000000 = .ok (.rprobe ⟨⟨5, true⟩, 0, 42, 37, 0, true, false, 0x0⟩) :=
  ⟨rfl, rfl, rfl, rfl, rfl, rfl, rfl, rfl, rfl, rfl⟩

/-- Words put together from the encodings of 17 R313. -/
theorem decode_xjet :
    decodeXjet 0x00068A8B = some (.jl2rd ⟨21, 13, 0⟩)
    ∧ decodeXjet 0x03B6800B = some (.jl2wr ⟨0, 13, 27⟩)
    ∧ decodeXjet 0x0406800B = some (.jpf ⟨0, 13, 0⟩)
    ∧ decodeXjet 0x07B6800B = some (.jfwd ⟨0, 13, 27⟩)
    ∧ decodeXjet 0x0806800B = some (.jmsg ⟨0, 13, 0⟩)
    ∧ decodeXjet 0x0A06800B = some (.jdone ⟨0, 13, 0⟩)
    ∧ decodeXjet 0x0C000A8B = some (.jbudget ⟨21, 0, 0⟩)
    ∧ decodeXjet 0x0FB68A8B = some (.jlognext ⟨21, 13, 27⟩)
    ∧ decodeXjet 0x11B6800B = some (.jlogadv ⟨0, 13, 27⟩)
    ∧ decodeXjet 0x1206800B = some (.jundo ⟨0, 13, 0⟩) :=
  ⟨rfl, rfl, rfl, rfl, rfl, rfl, rfl, rfl, rfl, rfl⟩

/-- Ill-formed terms that the checks of 03 R46, 05 R89, R90, R94, R96, R100, 02 R30 refuse, with their neighbours that pass. -/
theorem wellformed_scalar :
    Instr.check (.bfx ⟨1, 2, 60, 3⟩) = none
    ∧ Instr.check (.bfx ⟨1, 2, 60, 4⟩) = some .format
    ∧ Instr.check (.bfi ⟨1, 2, 1, 63⟩) = some .format
    ∧ Instr.check (.shli ⟨⟨0, false⟩, 1, 2, false, 64⟩) = some .format
    ∧ Instr.check (.shri ⟨⟨0, false⟩, 1, 2, false, 64⟩) = some .format
    ∧ Instr.check (.sari ⟨⟨0, false⟩, 1, 2, false, 64⟩) = some .format
    ∧ Instr.check (.cmpi ⟨⟨0, false⟩, 1, 2, false, 7, 0⟩) = some .format
    ∧ Instr.check (.vget ⟨⟨0, false⟩, 1, 2, false, 3, 15⟩) = none
    ∧ Instr.check (.vget ⟨⟨0, false⟩, 1, 2, false, 3, 16⟩) = some .format
    ∧ Instr.check (.nest ⟨⟨0, false⟩, 0, 1, 2⟩) = some .format
    ∧ Instr.check (.nest ⟨⟨0, false⟩, 7, 1, 2⟩) = some .format
    ∧ Instr.check (.mfs ⟨⟨0, false⟩, 1, 9⟩) = some .rsvd
    ∧ Instr.check (.mts ⟨⟨0, false⟩, 1, 9, false⟩) = some .rsvd
    ∧ Instr.check (.mts ⟨⟨0, false⟩, 1, 0x20, false⟩) = some .priv
    ∧ Instr.check (.mts ⟨⟨0, false⟩, 1, 8, false⟩) = some .priv := by decide +kernel

/-- Ill-formed terms that the checks of 03 R48, R49, 06 R126 refuse, with their neighbours that pass. -/
theorem wellformed_vector :
    Instr.check (.vadd ⟨2, 5, 0, false, 0, 1, 2, 3, 0, false, false, false, false⟩) = none
    ∧ Instr.check (.vmlog ⟨0, 0, 0, false, 0, 8, 2, 1, 0, false, false, false, false⟩) = some .rsvd
    ∧ Instr.check (.vmcnt ⟨2, 5, 0, false, 0, 1, 8, 0, 0, false, false, false, false⟩) = some .rsvd
    ∧ Instr.check (.vabs ⟨2, 5, 0, false, 0, 1, 2, 1, 0, false, false, false, false⟩) = some .rsvd
    ∧ Instr.check (.vadd ⟨2, 5, 0, false, 0, 1, 2, 3, 1, false, false, false, false⟩) = some .rsvd
    ∧ Instr.check (.vmovi ⟨2, 0, 0, false, 0, 1, 2, 3, 0, true, false, false, false⟩) = some .rsvd
    ∧ Instr.check (.vabs ⟨2, 5, 0, false, 0, 1, 2, 0, 0, false, true, false, false⟩) = some .rsvd
    ∧ Instr.check (.vadd ⟨2, 5, 0, false, 0, 1, 2, 3, 0, false, false, true, false⟩) = some .rsvd
    ∧ Instr.check (.vmlog ⟨1, 0, 0, false, 0, 1, 2, 3, 0, false, false, false, false⟩) = some .rsvd
    ∧ Instr.check (.vmlog ⟨0, 0, 0, false, 1, 1, 2, 3, 0, false, false, false, false⟩) = some .rsvd
    ∧ Instr.check (.vadd ⟨2, 2, 1, false, 0, 1, 2, 3, 0, false, false, false, false⟩) = some .rsvd
    ∧ Instr.check (.vadd ⟨2, 2, 0, true, 0, 1, 2, 3, 0, false, false, false, false⟩) = some .rsvd
    ∧ Instr.check (.vadd ⟨2, 5, 0, false, 0, 1, 2, 3, 0, false, false, false, true⟩) = some .rsvd
    ∧ Instr.check (.vadd ⟨3, 5, 0, false, 0, 1, 2, 3, 0, false, false, false, false⟩) = some .format
    ∧ Instr.check (.vadd ⟨2, 7, 0, false, 0, 1, 2, 3, 0, false, false, false, false⟩) = some .format
    ∧ Instr.check (.vfma ⟨2, 2, 0, false, 0, 1, 2, 3, 1, false, false, false, false⟩) = some .format
    ∧ Instr.check (.vadd ⟨2, 5, 7, false, 0, 1, 2, 3, 0, false, false, false, false⟩) = some .format
    ∧ Instr.check (.vshli ⟨2, 1, 0, false, 0, 1, 2, 0, 16, false, false, false, false⟩) = some .format
    ∧ Instr.check (.vshri ⟨2, 1, 0, false, 0, 1, 2, 0, 16, false, false, false, false⟩) = some .format
    ∧ Instr.check (.vsari ⟨2, 1, 0, false, 0, 1, 2, 0, 16, false, false, false, false⟩) = some .format
    ∧ Instr.check (.vcmp ⟨2, 5, 0, false, 0, 1, 2, 3, 4, false, false, false, false⟩) = some .format
    ∧ Instr.check (.vcmp ⟨2, 2, 0, false, 0, 1, 2, 3, 6, false, false, false, false⟩) = some .format
    ∧ Instr.check (.vcvt ⟨2, 5, 0, false, 0, 1, 2, 0, 5, false, false, false, false⟩) = some .format
    ∧ Instr.check (.vcvt ⟨2, 5, 0, false, 0, 1, 2, 0, 7, false, false, false, false⟩) = some .format
    ∧ Instr.check (.vshuf ⟨2, 5, 0, false, 0, 1, 2, 0, 5, false, false, false, false⟩) = some .format
    ∧ Instr.check (.vshuf ⟨2, 5, 0, false, 0, 1, 2, 0, 13, false, false, false, false⟩) = some .format
    ∧ Instr.check (.vshuf ⟨2, 5, 0, false, 0, 1, 2, 0, 21, false, false, false, false⟩) = some .format
    ∧ Instr.check (.vshuf ⟨2, 5, 0, false, 0, 1, 2, 0, 25, false, false, false, false⟩) = some .format
    ∧ Instr.check (.vshuf ⟨2, 5, 0, false, 0, 1, 2, 0, 33, false, false, false, false⟩) = some .format
    ∧ Instr.check (.vshuf ⟨2, 5, 0, false, 0, 1, 2, 0, 40, false, false, false, false⟩) = some .format
    ∧ Instr.check (.vshuf ⟨2, 5, 0, false, 0, 1, 2, 0, 4, false, false, false, false⟩) = none
    ∧ Instr.check (.vshuf ⟨2, 5, 0, false, 0, 1, 2, 0, 12, false, false, false, false⟩) = none
    ∧ Instr.check (.vshuf ⟨2, 5, 0, false, 0, 1, 2, 0, 20, false, false, false, false⟩) = none
    ∧ Instr.check (.vshuf ⟨2, 5, 0, false, 0, 1, 2, 0, 24, false, false, false, false⟩) = none
    ∧ Instr.check (.vshuf ⟨2, 5, 0, false, 0, 1, 2, 0, 32, false, false, false, false⟩) = none
    ∧ Instr.check (.vred ⟨2, 5, 0, false, 0, 1, 2, 0, 3, false, false, false, false⟩) = some .format
    ∧ Instr.check (.vscan ⟨2, 2, 0, false, 0, 1, 2, 0, 1, false, false, false, true⟩) = some .format
    ∧ Instr.check (.vmxq ⟨2, 5, 0, false, 0, 1, 2, 3, 1, false, false, false, false⟩) = some .format
    ∧ Instr.check (.vmxdq ⟨2, 5, 0, false, 0, 1, 2, 3, 0, false, false, false, false⟩) = some .format
    ∧ Instr.check (.vins ⟨2, 5, 0, false, 0, 1, 2, 0, 32, false, false, false, false⟩) = some .format
    ∧ Instr.check (.vins ⟨2, 5, 0, false, 0, 1, 2, 0, 31, false, false, false, false⟩) = none := by decide +kernel

/-- Ill-formed terms that the checks of 03 R50 refuse, with their neighbours that pass. -/
theorem wellformed_special :
    Instr.check (.vundc ⟨2, 2, 0, false, 0, 2, 4, false⟩) = some .rsvd
    ∧ Instr.check (.vundc ⟨2, 2, 0, false, 0, 2, 0, true⟩) = some .rsvd
    ∧ Instr.check (.vsrch ⟨2, 5, 1, false, 0, 2, 4, false⟩) = some .rsvd
    ∧ Instr.check (.vsrch ⟨2, 5, 0, true, 0, 2, 4, false⟩) = some .rsvd
    ∧ Instr.check (.spk24 ⟨2, 3, 0, false, 1, 2, 4, false⟩) = some .rsvd
    ∧ Instr.check (.fexp2 ⟨3, 5, 0, false, 0, 2, 4, false⟩) = some .format
    ∧ Instr.check (.fexp2 ⟨2, 2, 0, false, 0, 2, 4, false⟩) = some .format
    ∧ Instr.check (.fexp2 ⟨2, 5, 7, false, 0, 2, 4, false⟩) = some .format
    ∧ Instr.check (.spk24 ⟨2, 3, 0, false, 0, 1, 4, false⟩) = some .format
    ∧ Instr.check (.spx24 ⟨2, 3, 0, false, 0, 2, 1, false⟩) = some .format
    ∧ Instr.check (.vsort ⟨2, 5, 0, false, 0, 1, 4, false⟩) = some .format
    ∧ Instr.check (.vsort ⟨2, 5, 0, false, 0, 2, 1, false⟩) = some .format := by decide +kernel

/-- Ill-formed terms that the checks of 03 R51 to R54, 08 R168, R169 refuse, with their neighbours that pass. -/
theorem wellformed_memory :
    Instr.check (.qmark ⟨⟨0, false⟩, 1, 0, 0, 0, false, false, 0x0⟩) = some .rsvd
    ∧ Instr.check (.copy ⟨⟨0, false⟩, 0, 1, 0, 0, false, false, 0x0⟩) = some .rsvd
    ∧ Instr.check (.ring ⟨⟨0, false⟩, 0, 0, 1, 0, false, false, 0x0⟩) = some .rsvd
    ∧ Instr.check (.copy ⟨⟨0, false⟩, 0, 0, 0, 1, false, false, 0x0⟩) = some .rsvd
    ∧ Instr.check (.qmark ⟨⟨0, false⟩, 0, 0, 0, 0, true, false, 0x0⟩) = some .rsvd
    ∧ Instr.check (.ld ⟨⟨0, false⟩, 0, 0, 0, 0, false, true, 0x0⟩) = some .rsvd
    ∧ Instr.check (.mmz ⟨⟨0, false⟩, 0, 0, 0, 0, false, false, 0x4⟩) = some .rsvd
    ∧ Instr.check (.ld ⟨⟨0, false⟩, 0, 0, 0, 0, false, false, 0x2000000⟩) = some .rsvd
    ∧ Instr.check (.ld ⟨⟨0, false⟩, 0, 0, 0, 16, false, false, 0x0⟩) = some .rsvd
    ∧ Instr.check (.ld ⟨⟨0, false⟩, 0, 0, 8, 0, false, false, 0x10000000⟩) = some .rsvd
    ∧ Instr.check (.ld ⟨⟨0, false⟩, 0, 0, 0, 0, false, false, 0x1E000000⟩) = some .format
    ∧ Instr.check (.ld ⟨⟨0, false⟩, 0, 0, 0, 0, false, false, 0x22000000⟩) = some .rsvd
    ∧ Instr.check (.ld ⟨⟨0, false⟩, 0, 0, 0, 0, false, false, 0x30000000⟩) = some .rsvd
    ∧ Instr.check (.wset ⟨⟨0, false⟩, 0, 0, 0, 0, false, false, 0x10000000⟩) = some .format
    ∧ Instr.check (.cflushClean ⟨⟨0, false⟩, 0, 0, 0, 0, false, false, 0x10000000⟩) = some .format
    ∧ Instr.check (.cflushClean ⟨⟨0, false⟩, 0, 0, 0, 0, false, false, 0x1000000⟩) = some .rsvd
    ∧ Instr.check (.ldsc ⟨⟨0, false⟩, 0, 0, 0, 0, false, false, 0x1000000⟩) = some .format
    ∧ Instr.check (.ld ⟨⟨0, false⟩, 7, 0, 0, 0, false, false, 0x0⟩) = some .format
    ∧ Instr.check (.st ⟨⟨0, false⟩, 4, 0, 0, 0, false, false, 0x0⟩) = some .format
    ∧ Instr.check (.ldv ⟨⟨0, false⟩, 3, 0, 0, 0, false, false, 0x0⟩) = some .format
    ∧ Instr.check (.stv ⟨⟨0, false⟩, 4, 0, 0, 0, false, false, 0x0⟩) = some .rsvd
    ∧ Instr.check (.atomAdd ⟨⟨0, false⟩, 0, 0, 0, 0, false, false, 0x40000⟩) = some .rsvd
    ∧ Instr.check (.atomCas ⟨⟨0, false⟩, 0, 0, 0, 0, false, false, 0x40000⟩) = none
    ∧ Instr.check (.atomAdd ⟨⟨0, false⟩, 2, 0, 0, 0, false, false, 0x0⟩) = some .format
    ∧ Instr.check (.atomFadd ⟨⟨0, false⟩, 1, 0, 0, 0, false, false, 0x0⟩) = some .format
    ∧ Instr.check (.fence ⟨⟨0, false⟩, 6, 0, 0, 0, false, false, 0x0⟩) = some .format
    ∧ Instr.check (.phreg ⟨⟨0, false⟩, 3, 0, 0, 0, false, false, 0x0⟩) = some .format
    ∧ Instr.check (.phreg ⟨⟨0, false⟩, 0, 0, 0, 0, false, false, 0x1⟩) = some .format
    ∧ Instr.check (.phreg ⟨⟨0, false⟩, 0, 0, 0, 0, false, false, 0x9⟩) = some .format
    ∧ Instr.check (.phreg ⟨⟨0, false⟩, 0, 0, 0, 0, false, false, 0x8⟩) = none
    ∧ Instr.check (.mma ⟨⟨0, false⟩, 2, 3, 0, 0, 0, 0, 0, 1, 0, 0, 1, false, false, false⟩) = none
    ∧ Instr.check (.mma ⟨⟨0, false⟩, 0, 0, 0, 0, 0, 0, 0, 1, 1, 0, 1, false, false, false⟩) = some .rsvd
    ∧ Instr.check (.mma ⟨⟨0, false⟩, 2, 7, 0, 0, 0, 0, 0, 1, 0, 0, 1, false, false, false⟩) = some .format
    ∧ Instr.check (.mma ⟨⟨0, false⟩, 0, 1, 0, 0, 0, 0, 0, 1, 0, 0, 1, false, false, false⟩) = some .format
    ∧ Instr.check (.mma ⟨⟨0, false⟩, 2, 3, 0, 0, 0, 6, 0, 1, 0, 0, 1, false, false, false⟩) = some .format
    ∧ Instr.check (.mma ⟨⟨0, false⟩, 2, 3, 0, 0, 0, 0, 0, 1, 0, 0, 0, false, false, false⟩) = some .format
    ∧ Instr.check (.mma ⟨⟨0, false⟩, 2, 3, 0, 0, 0, 0, 7, 1, 0, 0, 1, false, true, false⟩) = some .format := by decide +kernel

/-- An unused register field of an Xjet instruction that is not zero (17 R313). -/
theorem test_wellFormed_xjet :
    Instr.check (.jl2rd ⟨5, 6, 1⟩) = some .rsvd ∧ Instr.check (.jl2wr ⟨1, 6, 7⟩) = some .rsvd ∧ Instr.check (.jpf ⟨0, 6, 1⟩) = some .rsvd
    ∧ Instr.check (.jfwd ⟨1, 6, 7⟩) = some .rsvd ∧ Instr.check (.jmsg ⟨1, 6, 0⟩) = some .rsvd ∧ Instr.check (.jdone ⟨0, 6, 1⟩) = some .rsvd
    ∧ Instr.check (.jbudget ⟨5, 1, 0⟩) = some .rsvd ∧ Instr.check (.jlogadv ⟨1, 6, 7⟩) = some .rsvd
    ∧ Instr.check (.jundo ⟨0, 6, 1⟩) = some .rsvd ∧ Instr.check (.jlognext ⟨5, 6, 7⟩) = none := by decide +kernel

/-! ### States and operands that meet the hypotheses of the statements, a clause at a time, at the ends of their ranges -/

def g0 : Guard := ⟨0, false⟩

/-- Core 0 with context c in slot k, which issues in bundle slot b. -/
def issuing (k b : Nat) (c : Ctx) : State := { State.reset with cur := { slot := k, bslot := b } }.setCtx c

/-- s1 = a and s2 = b. -/
def two (a b : Word) : Ctx := { s := [(1, { v := a }), (2, { v := b })] }

theorem witness_ScalarBinaryResults : (issuing 0 0 (two 5 (-1))).ctx.canUse (some g0) [.s 1, .s 2, .s 63] = true := by decide +kernel

theorem witness_DivisionResults :
    (∀ x ∈ [((100 : Word), 7, 7), (-1, 1, 64), (0, 0, 0), (0x8000000000000000, 64, 64)], (issuing 0 1 (two x.1 3)).ctx.canUse (some g0) [.s 1, .s 2, .s 3] = true
      ∧ (issuing 0 1 (two x.1 3)).core.divider 1 = none ∧ x.1.toInt.natAbs < 2 ^ x.2.1 ∧ (x.2.1 = 0 ∨ 2 ^ (x.2.1 - 1) ≤ x.1.toInt.natAbs)
      ∧ x.1.toNat < 2 ^ x.2.2 ∧ (x.2.2 = 0 ∨ 2 ^ (x.2.2 - 1) ≤ x.1.toNat))
    ∧ (issuing 0 1 (two 9 0)).ctx.canUse (some g0) [.s 1, .s 2, .s 3] = true ∧ ((issuing 0 1 (two 9 0)).ctx.sreg 2).v = 0
    ∧ (let s := (issuing 0 1 (two 9 2)).modCore (fun k => k.setDivider 1 (some ⟨2, 5, 0, false, 40⟩));
      s.ctx.canUse (some g0) [.s 1, .s 2, .s 3] = true ∧ s.cur.go = false ∧ s.core.divider 1 = some ⟨2, 5, 0, false, 40⟩) := by decide +kernel

theorem witness_ScalarUnaryResults : (issuing 0 0 (two 0 0)).ctx.canUse (some g0) [.s 1, .s 0] = true := by decide +kernel

theorem witness_CompareResults : (issuing 0 0 (two 1 (-1))).ctx.canUse (some g0) [.s 1, .s 2] = true
    ∧ (∀ cc ∈ [(0 : BitVec 3), 6], (issuing 0 0 (two 1 2)).ctx.canUse (some g0) [.s 1] = true ∧ cc ≠ 7) ∧ (issuing 0 0 {}).cur.go = false
    ∧ (0x3C080000 : BitVec 32).extractLsb' 26 6 = 0x0F ∧ (0x3C080000 : BitVec 32).extractLsb' 19 3 ≠ 0
    ∧ (0x40200000 : BitVec 32).extractLsb' 26 6 = 0x10 ∧ (0x40200000 : BitVec 32).extractLsb' 19 3 ≠ 0
    ∧ (0x80380000 : BitVec 32).extractLsb' 26 6 = 0x20 ∧ (0x80380000 : BitVec 32).extractLsb' 19 3 ≠ 0 := by decide +kernel

theorem witness_SelectAndPredicateResults : (issuing 0 0 (two 1 2)).ctx.canUse none [.s 1, .s 2, .s 3] = true
    ∧ (issuing 0 0 {}).ctx.holds (some ⟨1, false⟩) = false ∧ (issuing 0 0 {}).ctx.guardPoisoned (some ⟨1, false⟩) = false
    ∧ (issuing 0 0 {}).ctx.canUse (some ⟨1, true⟩) [] = true ∧ (issuing 0 0 (two 1 2)).ctx.canUse (some g0) [.s 1] = true := by decide +kernel

theorem witness_ImmediateResults : (issuing 0 0 (two 1 2)).ctx.canUse (some g0) [.s 1, .s 3] = true ∧ (63 : BitVec 9).toNat < 64
    ∧ 64 ≤ (64 : BitVec 9).toNat ∧ (issuing 0 0 (two 1 2)).cur.go = false := by decide +kernel

theorem witness_FieldAndConstantResults : (issuing 0 0 (two 1 2)).ctx.canUse none [.s 1, .s 3] = true
    ∧ (60 : BitVec 6).toNat + ((3 : BitVec 6).toNat + 1) ≤ 64 ∧ 64 < (60 : BitVec 6).toNat + ((4 : BitVec 6).toNat + 1)
    ∧ (issuing 0 0 {}).cur.go = false ∧ (issuing 0 0 {}).ctx.canUse (some g0) [.s 3] = true ∧ (issuing 0 0 {}).ctx.canUse none [.s 3] = true
    ∧ (issuing 0 0 {}).ctx.canUse (some g0) [.v 1, .s 3] = true
    ∧ (∀ e ∈ [(0 : BitVec 2), 1, 2, 3], 1024 / (8 * 2 ^ e.toNat) - 1 < 1024 / (8 * 2 ^ e.toNat)) ∧ 1024 / (8 * 2 ^ (1 : BitVec 2).toNat) ≤ (64 : BitVec 7).toNat := by
  decide +kernel

/-- A running context of four bundles. -/
def four : Ctx := { two 5 0x1000 with hdr := { count := 4 }, phase := .running, sliceSize := 0x100000 }

theorem witness_ControlFlowResults :
    (let c := (issuing 0 0 four).ctx;
      c.canUse (some g0) [.s 1] = true ∧ c.canUse (some g0) [.s 2] = true ∧ (3 : BitVec 8).toNat < c.hdr.count ∧ c.branch = none ∧ c.pc < (1 : BitVec 8).toNat
      ∧ c.loop = .inactive ∧ (c.sreg 1).pois = false ∧ (c.preg 0).pois = false ∧ (c.sreg 2).pois = false ∧ (c.sreg 2).v.toNat < 2 ^ 52 ∧ (c.sreg 2).v.toNat % 64 = 0
      ∧ c.retstack.length < 8 ∧ (issuing 0 0 four).cur.slot < 4 ∧ (issuing 0 0 four).cur.go = false ∧ c.retstack = [] ∧ c.frame = none)
    ∧ (let c := (issuing 3 0 { four with retstack := [0x40] }).ctx;
      c.canUse (some g0) [] = true ∧ c.retstack ≠ [] ∧ c.frame = none ∧ (issuing 3 0 four).cur.slot < 4)
    ∧ (let f : TrapFrame := ⟨0, false, {}, .inactive, .none, false, 0, [], [], none, false⟩;
      let c := (issuing 0 0 { four with frame := some f }).ctx;
      c.canUse (some g0) [] = true ∧ c.frame = some f ∧ c.retstack.length = f.depth)
    ∧ (issuing 4 0 four).ctx.canUse (some g0) [] = true ∧ 4 ≤ (issuing 4 0 four).cur.slot ∧ (issuing 4 0 four).cur.go = false
    ∧ ({ four with loop := .loop 0 1 2 } : Ctx).loop ≠ .inactive
    ∧ 2 ^ 52 ≤ (0x10000000000000 : Word).toNat ∧ 2 ^ 52 ≤ (0xFFFFFFFFFFFFFFFF : Word).toNat ∧ (0xFFFFFFFFFFFFF : Word).toNat < 2 ^ 52 ∧ (0xFFFFFFFFFFFFF : Word).toNat % 64 ≠ 0
    ∧ (let c := (issuing 0 0 { four with retstack := List.replicate 8 0x40 }).ctx;
      c.canUse (some g0) [.s 2] = true ∧ (c.sreg 2).v.toNat < 2 ^ 52 ∧ (c.sreg 2).v.toNat % 64 = 0 ∧ 8 ≤ c.retstack.length) := by decide +kernel

/-- s1 points to offset off of the own scratchpad (10 R211), whose bytes are given. -/
def spadding (off : Nat) (b : Memory) (c : Ctx) : State :=
  { issuing 0 6 { c with s := [(1, { v := BitVec.ofNat 64 (0xFFFC000000000 + off) }), (2, { v := 7 })] } with mem := { bytes := b } }

/-- The places of n bytes from offset off of core 0's scratchpad, by sectors of 32 bytes, off being a multiple of 32. -/
def sectors (off n : Nat) : List (Loc × Nat) := (List.range (n / 32)).map (fun i => (⟨.spad, off + 32 * i⟩, 32))

theorem witness_NestsAndPassEnds :
    (let s := spadding 64 [(2 ^ 60 + 64, 3), (2 ^ 60 + 68, 2), (2 ^ 60 + 88, 1)] four;
      let img := pvals (s.rdPieces (sectors 64 64));
      s.ctx.canUse (some g0) [.s 1] = true ∧ Instr.WellFormed (.nest ⟨g0, 2, 1, 3⟩) ∧ s.ctx.pc < (3 : BitVec 8).toNat ∧ (3 : BitVec 8).toNat < s.ctx.hdr.count
      ∧ s.ctx.loop = .inactive ∧ s.ctx.branch = none ∧ (s.ctx.sreg 1).pois = false ∧ s.ownWindow (s.ctx.sreg 1).v = true
      ∧ s.accessCheck (s.ctx.sreg 1).v 64 64 .load false true false = .ok (sectors 64 64)
      ∧ s.readHeld (s.ctx.entryId s.cur.bslot 0) (s.ctx.sreg 1).v.toNat 64 (.ok (sectors 64 64)) = false
      ∧ (List.range 6).map (fun i => leNat ((img.drop (4 * i)).take 4)) = [3, 2, 0, 0, 0, 0] ∧ (∀ x ∈ img.drop 25, x = 0) ∧ 0 ∉ [3, 2])
    ∧ (let s := spadding 0 [] four;
      s.accessCheck (s.ctx.sreg 1).v 64 64 .load false true false = .ok (sectors 0 64) ∧ 0 ∈ ((List.range 6).map (fun _ => 0)).take 6)
    ∧ (let c : Ctx := { four with branch := some 3 }; c.branch = some 3 ∧ 3 < c.hdr.count)
    ∧ (four.branch = none ∧ four.loop = .inactive ∧ four.pc + 1 < four.hdr.count)
    ∧ (let c : Ctx := { four with loop := .loop 0 0 2 }; c.branch = none ∧ c.loop = .loop 0 0 2 ∧ c.pc = 0 ∧ 0 < c.hdr.count ∧ 2 ≤ 2)
    ∧ (let c : Ctx := { four with loop := .loop 0 0 1 }; c.branch = none ∧ c.loop = .loop 0 0 1 ∧ c.pc = 0 ∧ c.pc + 1 < c.hdr.count)
    ∧ (let c : Ctx := { four with loop := .nest 0 0 2 [2, 1] 1, n := [(1, { v := 1 })] };
      c.branch = none ∧ c.loop = .nest 0 0 2 [2, 1] 1 ∧ c.pc = 0 ∧ 0 < c.hdr.count ∧ (c.wreg 0).full = true ∧ (c.nreg 1).v.toNat + 1 = 2
      ∧ (c.nreg 2).v.toNat + 1 = 1 ∧ c.pc + 1 < c.hdr.count) := by decide +kernel

/-- Pass ends: a branch beyond the last bundle; the last bundle; nests of one, three and six levels, with the innermost level that is not
at its end first, second or last, an empty walker of the mask, and every level at its end. -/
theorem witness_NestsAndPassEnds_levels :
    (let c : Ctx := { four with branch := some 4 }; c.branch = some 4 ∧ c.hdr.count ≤ 4)
    ∧ (let c : Ctx := { four with pc := 3 }; c.branch = none ∧ c.loop = .inactive ∧ c.hdr.count ≤ c.pc + 1)
    ∧ (let c : Ctx := { four with loop := .loop 3 3 1, pc := 3 }; c.branch = none ∧ c.loop = .loop 3 3 1 ∧ c.pc = 3 ∧ c.hdr.count ≤ c.pc + 1)
    ∧ (let lims := [2 ^ 32]
      let c : Ctx := { four with loop := .nest 0 0 1 lims 255 };
      c.branch = none ∧ c.pc = 0 ∧ 0 < c.hdr.count ∧ lims.length ≤ 6 ∧ (∀ i, i < lims.length → (c.nreg (i + 1)).v.toNat < lims.getD i 0 ∧ lims.getD i 0 ≤ 2 ^ 32)
      ∧ (c.nreg 1).v.toNat + 1 ≠ lims.getD 0 0 ∧ ∀ k : BitVec 3, (c.wreg k).full = true)
    ∧ (let lims := [1, 3, 2]
      let c : Ctx := { four with loop := .nest 0 0 3 lims 2, n := [(2, { v := 1 })], w := [(1, { full := false })] };
      c.branch = none ∧ c.pc = 0 ∧ 0 < c.hdr.count ∧ lims.length ≤ 6 ∧ (∀ i, i < lims.length → (c.nreg (i + 1)).v.toNat < lims.getD i 0 ∧ lims.getD i 0 ≤ 2 ^ 32)
      ∧ (∀ i, i < 1 → (c.nreg (i + 1)).v.toNat + 1 = lims.getD i 0) ∧ (c.nreg 2).v.toNat + 1 ≠ lims.getD 1 0
      ∧ (2 : Byte).getLsbD (1 : BitVec 3).toNat = true ∧ (c.wreg 1).full = false)
    ∧ (let lims := [1, 1, 1, 1, 1, 2]
      let c : Ctx := { four with loop := .nest 0 0 6 lims 0 };
      c.branch = none ∧ c.pc = 0 ∧ 0 < c.hdr.count ∧ lims.length ≤ 6 ∧ (∀ i, i < lims.length → (c.nreg (i + 1)).v.toNat < lims.getD i 0 ∧ lims.getD i 0 ≤ 2 ^ 32)
      ∧ (∀ i, i < 5 → (c.nreg (i + 1)).v.toNat + 1 = lims.getD i 0) ∧ (c.nreg 6).v.toNat + 1 ≠ lims.getD 5 0
      ∧ ∀ k : BitVec 3, (0 : Byte).getLsbD k.toNat = true → (c.wreg k).full = true)
    ∧ (let lims := [1, 1, 1]
      let c : Ctx := { four with loop := .nest 3 3 3 lims 255, pc := 3 };
      c.branch = none ∧ c.pc = 3 ∧ 3 < c.hdr.count ∧ (∀ i, i < lims.length → (c.nreg (i + 1)).v.toNat < lims.getD i 0 ∧ lims.getD i 0 ≤ 2 ^ 32)
      ∧ (∀ i, i < lims.length → (c.nreg (i + 1)).v.toNat + 1 = lims.getD i 0) ∧ c.hdr.count ≤ c.pc + 1) := by decide +kernel

/-- A context that runs in a launch with a trap handler. -/
def inLaunch (seg : Nat) (s : State) : State :=
  { s with fctxs := [(0, { launch := some { par := ⟨0x1000, 1, 1, 1, 0, 0, 0, 1, false, 0, 0, 0, 0, 0, false, 0, seg, 0, 0, 0, 0, 7⟩, dies := 1,
                                            cores := [0], nteam := 1, ntask := 1 } })] }

theorem witness_TrapsTakenAndReturned :
    ((inLaunch 0x40 (issuing 0 0 four)).cur.go = false ∧ (inLaunch 0x40 (issuing 0 0 four)).ctx.canUse (some g0) [] = true
      ∧ (inLaunch 0x40 (issuing 0 0 four)).ctx.frame = none ∧ (inLaunch 0x40 (issuing 0 0 four)).trapSeg ≠ 0)
    ∧ (inLaunch 0 (issuing 0 0 four)).trapSeg = 0
    ∧ (let f : TrapFrame := ⟨2, true, {}, .inactive, .none, false, 0, [], [], none, false⟩;
      let c := (issuing 0 0 { four with phase := .draining, act := .trapReturn, frame := some f }).ctx;
      c.phase = .draining ∧ c.pend = [] ∧ c.act = .trapReturn ∧ c.frame = some f) := by decide +kernel

theorem witness_StateRegisterMoves :
    (∀ n ∈ [0x00, 0x02, 0x08, 0x10, 0x12, 0x18, 0x20, 0x24, 0x27, 0x31, 0x40, 0x4F, 0x63, 0x70, 0x80], sregAccess (BitVec.ofNat 12 n) ≠ .reserved)
    ∧ (issuing 0 0 {}).ctx.canUse (some g0) [.s 3] = true ∧ (issuing 3 0 {}).cur.slot < 4 ∧ (issuing 3 0 {}).cur.core < 576 ∧ 4 ≤ (issuing 4 0 {}).cur.slot
    ∧ (issuing 0 0 {}).cur.go = false ∧ (∀ n ∈ [0x09, 0x13, 0x28, 0x51, 0x81, 0xFFF], sregAccess (BitVec.ofNat 12 n) = .reserved)
    ∧ (issuing 0 0 (two 3 0)).ctx.canUse (some g0) [.s 1] = true ∧ ((issuing 0 0 (two 3 0)).ctx.sreg 1).pois = false ∧ sregAccess 5 = .rw
    ∧ sregAccess 0x50 = .w1c ∧ sregAccess 0x20 = .ro ∧ sregAccess 0x08 = .rc
    ∧ (let s : State := { issuing 0 0 {} with cur := { core := 576 } }; s.cur.slot < 4 ∧ 576 ≤ s.cur.core ∧ s.cur.core < 580)
    ∧ (let s : State := { issuing 0 0 {} with cur := { core := 579 } }; 576 ≤ s.cur.core ∧ s.cur.core < 580)
    ∧ sregAccess 4 = .rw ∧ sregAccess 7 = .rw ∧ sregAccess 0x18 = .rw ∧ ¬ 5 < (5 : Word).toNat % 8 ∧ 5 < (6 : Word).toNat % 8
    ∧ ¬ 32 < (0x2001 : Word).toNat / 256 % 64 ∧ 32 < (0x2100 : Word).toNat / 256 % 64
    ∧ (0x100 : Word).getLsbD 8 = true ∧ (issuing 0 0 {}).ctx.restart = none
    ∧ ({ undcRead := true } : Ctx).undcRead = true ∧ ({} : Ctx).undcRead = false ∧ (0 : Nat) < 16 ∧ 15 < 16
    ∧ sget? ({ qinc := [(15, (1, 2, false))] } : Core).qinc 15 = some (1, 2, false) ∧ 1 ≠ 0 := by decide +kernel

def landing (slot seq : Nat) (d : Dest) : Landing := { due := 0, slot, seq, dest := d, val := 5, wm := BitVec.allOnes 1024, pois := 1, pm := BitVec.allOnes 32 }

theorem witness_HardwiredRegisters : ∀ x ∈ (issuing 0 0 { four with pend := [landing 0 0 (.s 1)] }).ctx.pend, x.dest ≠ .s 0 := by decide +kernel

/-- Two results due on v1 and one each on s1 and p1. -/
def colliding : State :=
  issuing 0 0 { four with pend := [landing 0 1 (.v 1), landing 2 0 (.v 1), landing 0 0 (.s 1), landing 1 0 (.p 1), { landing 0 2 (.s 2) with due := 9 }] }

theorem witness_FixedResultsLand :
    (∀ x ∈ colliding.ctx.pend, x.due ≤ colliding.ctx.adv → x.dest = .v 1 → x = landing 2 0 (.v 1) ∨ x.slot < 2)
    ∧ landing 2 0 (.v 1) ∈ colliding.ctx.pend ∧ landing 0 1 (.v 1) ∈ colliding.ctx.pend ∧ landing 0 0 (.s 1) ∈ colliding.ctx.pend
    ∧ landing 1 0 (.p 1) ∈ colliding.ctx.pend ∧ (colliding.ctx.sreg 1).full = true ∧ (colliding.ctx.vreg 1).full = true
    ∧ (∀ x ∈ colliding.ctx.pend, x.dest ≠ .sr 0x80) ∧ ∀ x ∈ colliding.ctx.pend, x.due ≤ colliding.ctx.adv → x.dest ≠ .s 2 := by decide +kernel

/-- One result each due on m1, k3, w7, v2, the state registers and s3, which is empty; v2 brings flags and counts. -/
theorem witness_FixedResultsLand_winners :
    (let l := [landing 2 0 (.m 1), landing 3 0 (.k 3), landing 6 0 (.w 7), landing 0 0 (.sr 0x04), landing 1 0 (.sr 0x07), landing 0 1 (.sr 0x18),
        landing 1 1 (.sr 0x4F), landing 0 2 (.sr 0x80), landing 1 2 (.sr 0x02), { landing 4 0 (.v 2) with flags := 3, pflags := [(1, 4)], ucnt := [(0, 63)] }, landing 0 0 (.s 3)];
      let s := issuing 0 0 { four with s := [(3, { full := false })], pend := l };
      (∀ x ∈ s.ctx.pend, x.due ≤ s.ctx.adv) ∧ (s.ctx.sreg 3).full = false ∧ (s.ctx.vreg 2).full = true ∧ (s.ctx.wreg 7).full = true
      ∧ (∀ x ∈ l, ∀ y ∈ l, x.dest = y.dest → x = y) ∧ s.ctx.restart = none ∧ s.cur.core < 576
      ∧ s.ctx.pend.filter (fun y => decide (y.due ≤ s.ctx.adv) && !y.ucnt.isEmpty) = [{ landing 4 0 (.v 2) with flags := 3, pflags := [(1, 4)], ucnt := [(0, 63)] }]
      ∧ (landing 0 1 (.sr 0x18)).val.getLsbD 8 = false
      ∧ ∀ x ∈ l, (match x.dest with | .sr _ => true | _ => false) = true → x.flags = 0 ∧ x.pflags = []) := by
  decide +kernel

theorem witness_LateResultsLand :
    (let a : Arrived := ⟨.s 1, 6, 9, BitVec.allOnes 1024, 0, 1⟩;
      let c := (issuing 0 0 { four with arrived := [a], pend := [landing 7 0 (.s 1)] }).ctx;
      c.arrived[0]? = some a ∧ landing 7 0 (.s 1) ∈ c.pend ∧ (landing 7 0 (.s 1)).due ≤ c.adv ∧ a.slot < (landing 7 0 (.s 1)).slot ∧ a.slot < 8
      ∧ ∀ x ∈ (issuing 0 0 { four with arrived := [a] }).ctx.pend, x.dest = .s 1 → 0 < x.due)
    ∧ (let a : Arrived := ⟨.w 1, 7, 9, BitVec.allOnes 1024, 0, 1⟩;
      let s := (issuing 0 0 { four with arrived := [a], pend := [landing 7 0 (.w 1), landing 6 0 (.w 1)] }).modCore (fun k => k.setDivider 0 (some ⟨0, 5, 3, false, 40⟩));
      s.ctx.arrived[0]? = some a ∧ (∀ x ∈ s.ctx.pend, x.dest = a.dest ∧ x.due ≤ s.ctx.adv ∧ x.slot ≤ a.slot ∧ x.seq ≤ s.ctx.issued)
      ∧ s.core.divider 0 = some ⟨0, 5, 3, false, 40⟩ ∧ s.core.divider 1 = none ∧ s.now < 40 ∧ s.core.busy < 40)
    ∧ (let s := (issuing 0 0 four).modCore (fun k => (k.setDivider 0 (some ⟨0, 5, 3, false, 0⟩)).setDivider 1 (some ⟨0, 5, 4, true, 0⟩));
      s.core.divider 0 = some ⟨0, 5, 3, false, 0⟩ ∧ s.core.divider (1 - 0) = some ⟨0, 5, 4, true, 0⟩ ∧ 0 ≤ s.now
      ∧ ∀ y ∈ (s.ctxAt (ctxKey s.cur.core 0)).pend, y.dest = .s 5 → (s.ctxAt (ctxKey s.cur.core 0)).adv < y.due)
    ∧ (let s := (issuing 0 0 four).modCore (fun k => k.setDivider 1 (some ⟨0, 5, 3, false, 0⟩));
      s.core.divider 1 = some ⟨0, 5, 3, false, 0⟩ ∧ 0 ≤ s.now ∧ (s.ctxAt (ctxKey s.cur.core 0)).pend = [])
    ∧ (let s := (issuing 0 0 four).modCore (fun k => k.setDivider 0 (some ⟨0, 5, 3, false, 40⟩));
      s.core.divider 0 = some ⟨0, 5, 3, false, 40⟩ ∧ s.now < 40) := by decide +kernel

/-- A vector slot of 1,024 bits with d = 1, a = 2, b = 3, c = 4 and write mask m0. -/
def vec (et : BitVec 3) (a b c : BitVec 6) : V := ⟨2, et, 0, false, 0, 1, a, b, c, false, false, false, false⟩

theorem witness_IntegerLaneResults :
    (∀ et ∈ [(0 : BitVec 3), 1, 2, 6], etInt et = true ∧ ∀ i ∈ [Instr.vadd (vec et 2 3 0), .vsub (vec et 2 3 0), .vmul (vec et 2 3 0), .vmin (vec et 2 3 0),
      .vmax (vec et 2 3 0), .vabs (vec et 2 0 0), .vneg (vec et 2 0 0), .vand (vec et 2 3 0), .vor (vec et 2 3 0), .vxor (vec et 2 3 0),
      .vandn (vec et 2 3 0), .vshl (vec et 2 3 0), .vshr (vec et 2 3 0), .vsar (vec et 2 3 0), .vshli (vec et 2 0 7), .vshri (vec et 2 0 0),
      .vsari (vec et 2 0 7), .vclz (vec et 2 0 0), .vpopc (vec et 2 0 0), .vmulh (vec et 2 3 0)], i.check = none)
    ∧ Instr.WellFormed (.vdot4 (vec 2 2 3 4)) ∧ Instr.WellFormed (.vadd { vec 2 2 3 0 with sat := true })
    ∧ (issuing 0 2 {}).ctx.canUse none [.v 2, .v 3, .v 4, .v 1] = true := by decide +kernel

theorem witness_MoveLaneResults :
    (∀ et ∈ [(0 : BitVec 3), 1, 2, 3, 4, 5, 6], ∀ i ∈ [Instr.vmov (vec et 2 0 0), .vbcast (vec et 2 0 0), .vins (vec et 2 0 15), .vsel (vec et 2 3 0),
      .vperm (vec et 2 3 0), .vshuf (vec et 2 0 0o03), .vshuf (vec et 2 0 0o13), .vshuf (vec et 2 0 0o23), .vshuf (vec et 2 0 0o30),
      .vshuf (vec et 2 0 0o40)], i.check = none)
    ∧ etInt 6 = true ∧ Instr.WellFormed (.vmovi (vec 6 63 63 63)) ∧ (issuing 0 2 {}).ctx.canUse none [.v 2, .v 3, .v 1] = true
    ∧ (issuing 0 2 {}).ctx.canUse none [.s 2, .v 1] = true := by decide +kernel

theorem witness_MaskResults :
    (∀ c ∈ [(0 : BitVec 6), 5], Instr.WellFormed (.vcmp (vec 2 2 3 c)) ∧ Instr.WellFormed (.vcmp { vec 2 2 3 c with d := 0 })) ∧ etInt 2 = true
    ∧ (∀ c ∈ [(0 : BitVec 6), 3], Instr.WellFormed (.vmlog { vec 0 2 3 c with w := 0 }) ∧ Instr.WellFormed (.vmlog { vec 0 2 3 c with w := 0, d := 0 }))
    ∧ (∀ et ∈ [(3 : BitVec 3), 4, 5], ∀ c ∈ [(0 : BitVec 6), 1, 2, 3, 6, 7],
      Instr.check (.vcmp { vec et 2 3 c with nf := true }) = none ∧ Instr.check (.vcmp { vec et 2 3 c with d := 0 }) = none)
    ∧ Instr.WellFormed (.vmcnt (vec 5 2 0 0)) ∧ (issuing 0 2 {}).ctx.canUse none [.v 2, .v 3] = true ∧ (issuing 0 2 {}).ctx.canUse none [.v 1] = true := by
  decide +kernel

/-- An F slot of 1,024 bits. -/
def fsl (et : BitVec 3) (d a : BitVec 6) : FW := ⟨2, et, 0, false, 0, d, a, false⟩

theorem witness_FloatLaneResults :
    (∀ et ∈ [(3 : BitVec 3), 4, 5], ∀ i ∈ [Instr.vadd (vec et 2 3 0), .vsub (vec et 2 3 0), .vmul (vec et 2 3 0), .vfma (vec et 2 3 4),
      .vfms (vec et 2 3 4), .vfnma (vec et 2 3 4), .vmin (vec et 2 3 0), .vmax (vec et 2 3 0), .vminn (vec et 2 3 0), .vmaxn (vec et 2 3 0),
      .vabs (vec et 2 0 0), .vneg (vec et 2 0 0), .vmovi (vec et 63 0 63), .vadd { vec et 2 3 0 with rm := 6, nf := true }, .fexp2 (fsl et 1 2), .flog2 (fsl et 1 2), .frcp (fsl et 1 2),
      .frsqrt (fsl et 1 2), .fsqrt (fsl et 1 2), .ftanh (fsl et 1 2), .fsin (fsl et 1 2), .fcos (fsl et 1 2)], i.check = none)
    ∧ (issuing 0 2 {}).ctx.canUse none [.v 2, .v 3, .v 4, .v 1] = true := by decide +kernel

theorem witness_MixingVectorOps :
    (∀ i ∈ [Instr.vred (vec 5 2 0 2), .vscan (vec 2 2 0 3), .vmxq (vec 5 2 3 2), .vmxdq (vec 3 2 3 7), .vcvt (vec 2 2 0 5), .spk24 (fsl 0 2 5), .spx24 (fsl 3 1 62),
      .vsort (fsl 2 2 62), .vsrch (fsl 5 1 2), .mxscl (fsl 4 1 2), .vundc (fsl 2 1 0), .frill (fsl 2 1 0)], i.check = none)
    ∧ (issuing 0 5 {}).ctx.canUse none [.v 2, .v 3, .v 62, .v 63, .v 1] = true := by decide +kernel

theorem witness_MixingVectorOps_folds :
    (∀ et ∈ [(0 : BitVec 3), 1, 2, 6], etInt et = true ∧ ∀ c ∈ [(0 : BitVec 6), 1, 2, 3], ∀ i ∈ [Instr.vred (vec et 2 0 c), .vscan (vec et 2 0 c)], i.check = none)
    ∧ (∀ et ∈ [(3 : BitVec 3), 4, 5], ∀ c ∈ [(0 : BitVec 6), 1, 2], ∀ i ∈ [Instr.vred (vec et 2 0 c), .vscan (vec et 2 0 c)], i.check = none) := by
  decide +kernel

theorem witness_MixingVectorOps_formats :
    (∀ et ∈ [(3 : BitVec 3), 4, 5], 
      ∀ c ∈ [(2 : BitVec 6), 3, 4, 5, 6, 7], ∀ i ∈ [Instr.vmxq (vec et 2 4 c), .vmxdq (vec et 2 4 c)], i.check = none)
    ∧ (∀ x ∈ [((3 : BitVec 3), (5 : BitVec 6)), (4, 3), (0, 5), (2, 3), (5, 0), (3, 1), (0, 2), (2, 0)], Instr.check (.vcvt (vec x.1 2 0 x.2)) = none) := by decide +kernel

/-- The order of groups of four equal values, and that of 32 equal keys. -/
theorem witness_MixingVectorOps_orders :
    (let A := (issuing 0 5 {}).ctx.vreg 2;
      let pos (_ j : Nat) : Nat := j
      ∀ g, g < 32 → pos g 0 < pos g 1 ∧ pos g 1 < 4 ∧ ∀ j l, j < 2 → l < 4 → l ≠ pos g 0 → l ≠ pos g 1 →
        (A.at 8 (4 * g + l)).toInt.natAbs = (A.at 8 (4 * g + pos g j)).toInt.natAbs ∧ pos g j < l)
    ∧ (let A := (issuing 0 5 {}).ctx.vreg 2;
      (∀ i, i < 32 → id i < 32) ∧ ∀ j, j < 32 → ∀ i, i < j → A.at 32 (id i) = A.at 32 (id j) ∧ id i < id j) := by
  refine ⟨?_, fun i h => h, ?_⟩
  · intro A pos g hg
    refine ⟨by decide, by decide, fun j l hj hl h0 h1 => ⟨?_, ?_⟩⟩
    · have h : (issuing 0 5 {}).ctx.vreg 2 = {} := by decide +kernel
      simp [A, h, VReg.at]
    · simp only [pos] at *; omega
  · decide +kernel

theorem witness_StoredValuesRoundExactly : e5m2 ∈ [f32, f16, bf16, e5m2] ∧ 0x7B < 2 ^ e5m2.bits ∧ (e5m2.num 0x7B).isNan = false
    ∧ 0 < 2 ^ f32.bits ∧ (f32.num 0x80000000).isNan = false ∧ (f32.num 0x7F800000).isNan = false := by decide +kernel

/-- The magnitude of code c of F, in units of 2^u. -/
def magOf (F : Fmt) (u : Int) (c : Nat) : Nat :=
  (if c < 2 ^ F.mb then c else (c % 2 ^ F.mb + 2 ^ F.mb) * 2 ^ (c / 2 ^ F.mb - 1)) * 2 ^ (F.emin - F.mb - u).toNat

/-- m × 2^e between the values of codes c and c + 1 of F, 2^d of its own units apart; `up` is the mode's choice. -/
def between (F : Fmt) (md : Mode) (neg : Bool) (m c d : Nat) (e : Int) (up : Bool) : Bool :=
  let u := min e (F.emin - F.mb)
  let x := m * 2 ^ (e - u).toNat
  decide (0 < m) && decide (md.rm ≤ 5) && decide (c ≤ F.maxCode) && decide (magOf F u c < x) && decide (x < magOf F u (c + 1))
  && decide (magOf F u (c + 1) - magOf F u c = 2 ^ d * 2 ^ (e - u).toNat)
  && md.up neg (decide (c % 2 = 1)) (x - magOf F u c) (magOf F u (c + 1) - magOf F u c) (md.srBits d) == up

/-- Zero's neighbour, the boundary of the normal values, values that store, ties and the largest finite value, in the five modes. -/
theorem witness_StoredValuesRoundExactly_rounding :
    magOf e5m2 (-16) 0x3C = 1 * 2 ^ 16 ∧ between e5m2 { rm := 0 } false 9 0x3C 1 (-3) false ∧ between e5m2 { rm := 0 } false 11 0x3D 1 (-3) true
    ∧ between e5m2 { rm := 1 } true 1 0 2 (-18) false ∧ between e5m2 { rm := 2 } true 1 0 2 (-18) true ∧ between e5m2 { rm := 3 } false 7 3 1 (-17) true
    ∧ between e5m2 { rm := 4 } false 15 3 2 (-18) true ∧ between e5m2 { rm := 5, rill := 0xFFFFFFFF, sig := 24 } false 15 3 2 (-18) true
    ∧ between e5m2 { rm := 3 } false 15 0x7B 1 12 true ∧ between e5m2 { rm := 1 } false 15 0x7B 1 12 false
    ∧ magOf e5m2 (-16) 0x7C ≤ 1 * 2 ^ 32 ∧ e5m2.maxCode = 0x7B
    ∧ between e2m1 { rm := 0 } false 1 0 2 (-3) false ∧ mxFmt 6 = some e2m1 ∧ between e2m1 { rm := 0 } false 7 7 1 0 true ∧ e2m1.maxCode = 7
    ∧ between e2m1 { rm := 0 } false 5 2 1 (-2) false ∧ mxFmt 2 = some e4m3 ∧ magOf e2m1 (-1) 8 ≤ 8 * 2 := by
  decide +kernel

/-- Integers at the ends of their ranges, exact values, and blocks of one value each. -/
theorem witness_StoredValuesRoundExactly_exact :
    (let v (neg : Bool) (m d : Nat) : Int := (if neg then -1 else 1) * (m / 2 ^ d : Nat);
      v true 256 1 = -128 ∧ v true 258 1 = -129 ∧ v false 254 1 = 127 ∧ v false 256 1 = 128 ∧ v false 0 0 = 0)
    ∧ (Machine.Num.fin false 3 (-2) false).isNan = false ∧ (Machine.Num.fin false 3 (-2) false).isInf = false ∧ (Machine.Num.nan true).isNan = true
    ∧ (Machine.Num.inf true).isInf = true ∧ (Machine.Num.fin true 0 0 false).isZero = true
    ∧ ((Machine.Num.fin false 3 (-2) false).inUnits (-2)).natAbs < 2 ^ (1 + 1) ∧ 2 ^ 1 ≤ ((Machine.Num.fin false 3 (-2) false).inUnits (-2)).natAbs := by
  decide +kernel

theorem witness_StoredValuesRoundExactly_sums : (Machine.Num.fin false 3 (-2) false).exactFrom (-2) ∧ (Machine.Num.fin true 5 0 false).exactFrom 0
    ∧ (Machine.Num.fin true 0 (-2) false).exactFrom (-2) := by simp [Machine.Num.exactFrom]

/-- A memory slot with d = 3, a = 1, x = 2. -/
def mem (fn : BitVec 3) (f : BitVec 30) : M := ⟨g0, fn, 3, 1, 2, false, false, f⟩
/-- The same with x zero, and with d zero too. -/
def memA (fn : BitVec 3) (f : BitVec 30) : M := { mem fn f with x := 0 }
def memP (f : BitVec 30) : M := { memA 0 f with d := 0 }

theorem witness_AddressForms :
    fMode (mem 3 0) = 0 ∧ fMode (mem 3 0x10000000) = 1 ∧ fMode (mem 3 0x2C000000) = 2
    ∧ (∀ i ∈ [Instr.ld (memA 3 0), .st (memA 3 0), .ld (memA 3 0x1000000)], i.check = none)
    ∧ (spadding 0 [] four).cur.go = false ∧ (spadding 0 [] four).ctx.addrPoison (memA 3 0) = none
    ∧ (spadding 0 [] four).ctx.canUse (some g0) ((addrSrcs (memA 3 0)).map (·.1) ++ [.s 3]) = true
    ∧ 2 ^ 52 ≤ ((issuing 0 6 (two 0x10000000000000 0)).ctx.addrOf (memA 3 0)).toNat
    ∧ (issuing 0 6 (two 0x1000 0)).feOk ((issuing 0 6 (two 0x1000 0)).ctx.addrOf (memA 3 0x1000000)) = false ∧ fFe (memA 3 0x1000000) = true
    ∧ (issuing 0 6 four).resolve 0xE100000000000 = .bad .clforeign ∧ (issuing 0 6 four).resolve 0xF014000000000 = .bad .spforeign
    ∧ (issuing 0 6 four).resolve 0xD000000000000 = .bad .window
    ∧ fFe (memA 3 0) = false ∧ (spadding 4 [] four).resolve ((spadding 4 [] four).ctx.addrOf (memA 3 0)) = .spad 0 4 0xFFFFC ∧ 8 ≤ 0xFFFFC ∧ 0xFFFC000000004 % 8 ≠ 0
    ∧ (issuing 0 6 (two 0x1004 0)).resolve 0x1004 = .global 0x1004 (13 * 2 ^ 48 - 0x1004) := by decide +kernel

theorem witness_LoadsAndStoresIssue :
    (∀ i ∈ [Instr.ld (memA 3 0), .ld (memA 6 0), .st (memA 3 0), .ldv (memA 2 0), .stv (memA 1 0), .wset (memA 0 0), .ldsc (memA 0 0), .cflushClean (memP 0),
      .cflushFlush (memP 0), .cflushInv (memP 0), .cflushRangenc (memP 0)], i.check = none)
    ∧ (let s := spadding 128 [] four;
      let va := s.ctx.addrOf (memA 3 0);
      s.ctx.canUse (some g0) ((addrSrcs (memA 3 0)).map (·.1) ++ [.s 3]) = true ∧ s.ctx.canUse (some g0) ((addrSrcs (memA 3 0)).map (·.1) ++ [.v 3]) = true
      ∧ s.ctx.canUse (some g0) ((addrSrcs (memA 3 0)).map (·.1) ++ [.w 3]) = true ∧ s.ctx.addrPoison (memA 3 0) = none
      ∧ s.accessCheck va 8 8 .load false true false = .ok [(⟨.spad, 128⟩, 8)] ∧ s.accessCheck va 8 8 .store false false true = .ok [(⟨.spad, 128⟩, 8)]
      ∧ s.accessCheck va 128 32 .load false true false = .ok (sectors 128 128) ∧ s.accessCheck va 64 32 .store false false true = .ok (sectors 128 64)
      ∧ s.accessCheck va 32 8 .load false true false = .ok (sectors 128 32) ∧ s.accessCheck va 1 1 .flush false false false = .ok [(⟨.spad, 128⟩, 1)]
      ∧ s.accessCheck va 1 1 .flushInv false false false = .ok [(⟨.spad, 128⟩, 1)] ∧ s.accessCheck va 128 128 .load false true false = .ok (sectors 128 128)
      ∧ s.cur.slot < 4 ∧ s.ownWindow va = true ∧ s.ctx.ldq = [] ∧ s.ctx.stq.length < 32
      ∧ s.readHeld (s.ctx.entryId s.cur.bslot 0) va.toNat 128 (.ok (sectors 128 128)) = false) := by decide +kernel

theorem witness_AtomicsAndFencesIssue :
    (∀ fn ∈ [(0 : BitVec 3), 1], ∀ i ∈ [Instr.atomSwap (mem fn 0), .atomCas (mem fn 0xFC0000), .atomCas (mem fn 0x80000), .atomAdd (mem fn 0), .atomAnd (mem fn 0),
      .atomOr (mem fn 0), .atomXor (mem fn 0), .atomMin (mem fn 0), .atomMax (mem fn 0), .atomMinu (mem fn 0), .atomMaxu (mem fn 0), .atomIncw (mem fn 0),
      .atomLd (mem fn 0x20000000)], i.check = none) ∧ Instr.WellFormed (.atomFadd (mem 0 0))
    ∧ (let s := spadding 128 [] four;
      s.ctx.canUse (some g0) ([.s 1, .s 2] ++ [.s 2] ++ [.s 3]) = true ∧ (s.ctx.sreg 1).pois = false ∧ (s.ctx.sreg 2).pois = false
      ∧ s.accessCheck (s.ctx.sreg 1).v 8 8 .atomic false true true = .ok [(⟨.spad, 128⟩, 8)]
      ∧ s.accessCheck (s.ctx.sreg 1).v 4 4 .atomic false true true = .ok [(⟨.spad, 128⟩, 4)] ∧ s.ctx.ldq.length < 32 ∧ s.ctx.stq.length < 32)
    ∧ Instr.WellFormed (.qmark { memP 0 with a := 0 }) ∧ Instr.WellFormed (.fence { memP 3 with a := 0, fn := 5 }) := by decide +kernel

/-- An entry at the head of both queues, at its place in one sector. -/
def atHeads (op : QOp) (pa n : Nat) : QEntry × State :=
  let e : QEntry := { id := 256, slot := 6, op, locs := [(⟨.spad, pa⟩, n)] }
  (e, issuing 0 0 { four with ldq := [e], stq := [e] })

theorem witness_ScratchpadAccessesPerform :
    (∀ op ∈ [QOp.store 7 8 0 false, .load 3 8 true false, .atom .add 3 true false 5 0],
      let x := atHeads op 128 8;
      x.1.locs = [(⟨.spad, 128⟩, 8)] ∧ x.1.done = 0 ∧ x.1.got = [] ∧ x.2.bankGated ⟨.spad, 128⟩ = false ∧ x.2.ctx.atHead x.1 = true ∧ x.2.fpBlocks x.1 = false ∧ x.2.waitHolds 256 = false
      ∧ x.2.ctx.stq.head? = some x.1 ∧ x.2.ctx.ldq.head? = some x.1 ∧ x.1.op = op)
    ∧ 512 ≤ 512 ∧ (let x := atHeads (.store 7 32 0 false) 0x1FFFE0 32; x.2.bankGated ⟨.spad, 0x1FFFE0⟩ = false) := by decide +kernel

/-- A range entry from VA 0 to 1 MiB that allows reads and writes, and its copy in an RTLB. -/
def range : RangeEntry := ⟨0, 0, 0x1000, true, false, true, true, true, 0, 0, false, false, false, false, 0, 0, 0, 0xFFFFFFFFFFFFFFFF, false⟩
def cached : Cached := ⟨range, false, 0, 0, 8000⟩

/-- A job card with FP0 to FP3, one count and CTL, at offset 0 of core 0's scratchpad. -/
def card (f0 f1 f2 f3 count ctl : Nat) : Memory :=
  msets [] (2 ^ 60) (leBytes (f0 + f1 * 2 ^ 64 + f2 * 2 ^ 128 + f3 * 2 ^ 192 + count * 2 ^ 256 + ctl * 2 ^ 448) 64)
def rd (a : Nat) : Nat := a + 2 ^ 63
def wr (a : Nat) : Nat := a + 3 * 2 ^ 62
/-- The state in which the card stands, in a launch of cores 0 and 1 with the group [0]. -/
def carding (b : Memory) : State :=
  let s := inLaunch 0 (spadding 0 b four)
  { s with fctxs := s.fctxs.map (fun f => (f.1, { f.2 with launch := f.2.launch.map (fun l => { l with cores := [0, 1], groups := [⟨true, false, 0, [0]⟩] }) })) }
def cardOf (b : Memory) : BitVec 512 := BitVec.ofNat 512 (leNat (pvals ((carding b).rdPieces (sectors 0 64))))

/-- A sluice context whose card, from 0x1000 to group 0, lies at VA 0, which is PA 0. -/
def sluicing : State :=
  let s := { carding [] with mem := { bytes := msets [] (paKey 0) (leBytes (rd 0x1000 + 2 ^ 256) 64) } }
  ({ s with cur := { core := 576, bslot := 6 } }.setCtx { sluice := true, phase := .running }).modCore (fun k => { k with rtlb := [cached] })

theorem witness_EngineCommandsIssue :
    (∀ i ∈ [Instr.copy (memP 0), .put (memP 0), .get (memP 0), .gather (memP 0), .scatter (memP 0), .scadd (memP 0), .awr (memP 0), .slx (memP 0)], i.check = none)
    ∧ (∀ x ∈ [(JobKind.copy, card (rd 0x1000) (wr 0x2000) 0 0 1 (0x3FF * 2 ^ 7)), (.put, card (rd 0x1000) (wr 0xFFFC000000000) 0 0 1 (0x3FF * 2 ^ 7)),
        (.get, card (rd 0xF004000000000) (wr 0xFFFC000000000) 0 0 0xFFFF (0x3FF * 2 ^ 7)), (.gather, card (rd 0x1000) (wr 0x2000) (rd 0x3000) 0 1 (0x3FF * 2 ^ 7)),
        (.scatter, card (rd 0x1000) (wr 0x2000) (rd 0x3000) 0 1 (0x3FF * 2 ^ 7)), (.scadd, card (rd 0x1000) (wr 0x2000) (rd 0x3000) 0 1 (0x3FF * 2 ^ 7 + 2)),
        (.awr, card (rd 0x1000) 0 0 0 1 (0x3FF * 2 ^ 7 + 1))],
      (carding x.2).ctx.canUse (some g0) [.s 1] = true ∧ ((carding x.2).ctx.sreg 1).pois = false ∧ (carding x.2).ownWindow ((carding x.2).ctx.sreg 1).v = true
      ∧ (carding x.2).accessCheck ((carding x.2).ctx.sreg 1).v 64 64 .load false true false = .ok (sectors 0 64)
      ∧ (carding x.2).cardCheck x.1 0xFFFC000000000 (cardOf x.2) = none ∧ (carding x.2).ctx.rinvs = [] ∧ (carding x.2).ctx.jobs.length < 16
      ∧ ∀ q ∈ sectors 0 64, (carding x.2).bankGated q.1 = false)
    ∧ (carding []).isSluice = false ∧ (carding []).cur.go = false
    ∧ sluicing.isSluice = true ∧ sluicing.ctx.canUse (some g0) [.s 1] = true ∧ (sluicing.ctx.sreg 1).v.toNat < 13 * 2 ^ 48
    ∧ sluicing.accessCheck 0 64 64 .load false false false = .ok [(⟨.coh, 0⟩, 32), (⟨.coh, 32⟩, 32)]
    ∧ sluicing.cardCheck .slx 0 (BitVec.ofNat 512 (leNat (pvals (sluicing.rdPieces [(⟨.coh, 0⟩, 32), (⟨.coh, 32⟩, 32)])))) = none := by decide +kernel

/-- A job whose card is at VA 0x40, issued as the first instruction. -/
def job (st : JobState) : Job := { kind := .copy, card := 0, cardVa := 0x40, seq := 5, st := st }

theorem witness_JobControl :
    Instr.WellFormed (.engwait (memA 0 0)) ∧ Instr.WellFormed (.cpresume (memP 0)) ∧ Instr.WellFormed (.cpabort (memP 0))
    ∧ (let c : Ctx := { two 0x40 0 with jobs := [(5, job .active)] };
      c.canUse (some g0) [.s 1, .s 3] = true ∧ c.rinvs = [] ∧ c.jobOf 0x40 = some (job .active) ∧ (job .active).st ≠ .faulted ∧ c.kept = []
      ∧ c.faultedOf 0x40 = none)
    ∧ (let c : Ctx := { two 0x40 0 with jobs := [(5, job .faulted)] };
      c.jobOf 0x40 = some (job .faulted) ∧ (job .faulted).st = .faulted ∧ c.kept = [] ∧ c.faultedOf 0x40 = some (job .faulted) ∧ (job .faulted).phaser = none
      ∧ ({ job .faulted with phaser := some 0 } : Job).phaser = some 0)
    ∧ (let c : Ctx := { two 0x40 0 with kept := [(0x40, 3, 9)] }; c.jobOf 0x40 = none ∧ c.kept.find? (fun e => e.1 = 0x40) = some (0x40, 3, 9))
    ∧ (two 0x40 0).jobOf 0x40 = none ∧ ∀ e ∈ (two 0x40 0).kept, e.1 ≠ 0x40 := by decide +kernel

/-- In the launch of `carding`, s1 = a and s2 = b, and the own cluster's phaser 0 has these members. -/
def syncing (a b : Word) (m : List Member) : State :=
  let s := carding []
  { s.setCtx { four with s := [(1, { v := a }), (2, { v := b })] } with phasers := [(0, { members := m })] }

theorem witness_SignalsAndWaits :
    (∀ i ∈ [Instr.semsig { mem 0 0 with d := 0 }, .phsig (memP 0), .phsw { mem 0 0 with d := 0 }, .phwait { mem 0 0 with d := 0 }, .phstat (memA 0 0), .ring { memP 0 with a := 0 }],
      i.check = none)
    ∧ (∀ v ∈ [0x3FF0, 0x0010, 0x4000], (syncing (BitVec.ofNat 64 v) 1 []).semTargetOk (BitVec.ofNat 64 v) = true)
    ∧ (∀ v ∈ [0x8000, 0x0020, 0x4010], (syncing (BitVec.ofNat 64 v) 1 []).semTargetOk (BitVec.ofNat 64 v) = false)
    ∧ (let s := syncing 0x3FC00000 0 [⟨0, none, .signalWait, false⟩];
      s.ctx.canUse (some g0) [.s 1, .s 2] = true ∧ s.ctx.canUse (some g0) [.s 1, .s 3] = true ∧ s.ctx.canUse (some g0) [] = true ∧ (s.ctx.sreg 1).pois = false
      ∧ (s.ctx.sreg 2).pois = false ∧ s.ctx.stq.length < 32 ∧ s.ctx.ldq.length < 32 ∧ s.cur.go = false ∧ s.phaser? 0x3FC00000 = some 0
      ∧ (s.phaserAt 0).member s.key none = some ⟨0, none, .signalWait, false⟩ ∧ s.ctx.signalQueued 0 = false)
    ∧ (let s := syncing 0x3FC00000 0 []; s.phaser? 0x3FC00000 = some 0 ∧ (s.phaserAt 0).member s.key none = none ∧ ∀ m ∈ (s.phaserAt 0).joining, m.ctx ≠ s.key)
    ∧ (let c : Ctx := { four with brb := mkBrb 8 7 0 }; c.canUse (some g0) [] = true ∧ c.brbNext = none ∧ brbDepth c.brb ≠ 0 ∧ brbDepth c.brb ≤ 8)
    ∧ brbDepth four.brb = 0 := by decide +kernel

theorem witness_PhaserMembership :
    (∀ fn ∈ [(0 : BitVec 3), 1, 2], Instr.WellFormed (.phreg { memP 0 with fn := fn })) ∧ Instr.WellFormed (.phdrop (memP 0))
    ∧ (let s := syncing 0x3FC00000 0 [⟨0, none, .signalWait, false⟩, ⟨8, none, .signalOnly, false⟩];
      s.ctx.canUse (some g0) [.s 1] = true ∧ (s.ctx.sreg 1).pois = false ∧ s.phaser? (s.ctx.sreg 1).v = some 0 ∧ (s.phaserAt 0).ready = false
      ∧ (∀ x ∈ (s.phaserAt 0).members, x.signalled = false) ∧ brbDepth s.ctx.brb = 0 ∧ ((s.phaserAt 0).member s.key none).isSome = true
      ∧ s.key ∉ (s.phaserAt 0).leaving)
    ∧ (let s := syncing 0x3FC00000 0 [⟨0, none, .signalWait, false⟩, ⟨8, none, .signalOnly, true⟩];
      (s.phaserAt 0).ready = false ∧ ∃ x ∈ (s.phaserAt 0).members, x.signalled = true)
    ∧ (let p : Phaser := { members := [⟨0, none, .signalWait, true⟩, ⟨8, none, .waitOnly, false⟩], joining := [⟨16, none, .waitOnly, false⟩], leaving := [8] };
      p.ready = true ∧ (16 ∉ p.leaving) ∧ (0 ∉ p.leaving) ∧ ∀ j ∈ p.joining, j.ctx ≠ 0) := by decide +kernel

theorem witness_PointerOperations :
    (∀ i ∈ [Instr.sptest (memA 0 0), .spcastExplicit (memA 0 0), .spcastSelf (memA 0 0), .spcastTocluster (memA 0 0), .spcastFromcluster (memA 0 0),
      .spcastClexplicit (memA 0 0), .spcastClself (memA 0 0)], i.check = none)
    ∧ (issuing 0 6 (two 0x12345 0)).ctx.canUse (some g0) [.s 1, .s 3] = true ∧ (issuing 0 6 {}).cur.core < 576
    ∧ (∀ v ∈ [0, 13 * 2 ^ 48 - 1], v < 13 * 2 ^ 48) ∧ (∀ v ∈ [13 * 2 ^ 48, 14 * 2 ^ 48 - 1], 13 * 2 ^ 48 ≤ v ∧ v < 14 * 2 ^ 48) ∧ 2 ^ 52 ≤ 2 ^ 64 - 1
    ∧ (∀ off ∈ [0, 2 ^ 21 - 1], off < 2 ^ 21 ∧ 15 * 2 ^ 48 + 0x3FF * 2 ^ 38 + off < 2 ^ 52 ∧ 15 * 2 ^ 48 + 575 * 2 ^ 38 + off < 2 ^ 52
      ∧ 14 * 2 ^ 48 + 0xFF * 2 ^ 40 + 7 * 2 ^ 37 + off < 15 * 2 ^ 48)
    ∧ 575 < 576 ∧ 575 / 8 ≠ 0 / 8 ∧ 7 < 8 ∧ 71 < 72 ∧ 71 ≠ 0 / 8 := by decide +kernel

/-- An object of two methods, the first of them mutating. -/
def object : ObjectDesc := ⟨1, 2, 0, 0, 64, 1, 100, 8, 0, 0, [0, 4]⟩
/-- A partition with jet handler 1 and the object. -/
def pconf : PartConfig :=
  ⟨1, 1, 0, 0, 1000, [], 0, 0, [], 8000, 0, 0, [], [(1, ⟨0xFFFF, 0x10, 0xFFFF, 0x20, 100, 0x100, 64, 0, 0⟩)], [object]⟩
def configured (s : State) : State := { s with parts := [(0, { config := some pconf })] }
/-- A running context whose core has cached a range of handler 1. -/
def jetting : State :=
  let s := configured (carding [])
  (s.setCtx { s.ctx with s := [(1, { v := 0xFFFC000000000 }), (2, { v := 0x100 })] }).modCore (fun k => { k with rtlb := [{ cached with entry := { range with jet := 1 } }] })

theorem witness_ObjectInstructionsIssue :
    Instr.WellFormed (.rocall { memA 0 0 with a := 2, x := 1 }) ∧ Instr.WellFormed (.jetmsg { memP 0 with a := 2, x := 1 }) ∧ Instr.WellFormed (.rowait (memA 0 0))
    ∧ jetting.ctx.canUse (some g0) [.s 2, .s 1, .s 3] = true ∧ jetting.ctx.canUse (some g0) [.s 2, .s 1] = true ∧ (jetting.ctx.sreg 1).pois = false
    ∧ (jetting.ctx.sreg 2).pois = false ∧ (jetting.ctx.sreg 2).v.toNat < 2 ^ 13 ∧ jetting.ownWindow (jetting.ctx.sreg 1).v = true
    ∧ jetting.accessCheck (jetting.ctx.sreg 1).v 64 64 .load false true false = .ok (sectors 0 64) ∧ (sectors 0 64).head?.map (·.1) = some ⟨.spad, 0⟩
    ∧ jetting.ctx.ldq.length < 32 ∧ jetting.ctx.stq.length < 32 ∧ jetting.jetTarget (jetting.ctx.sreg 2).v = .ok [(⟨.coh, 0x100⟩, 1)]
    ∧ (∀ v ∈ [1 * 2 ^ 56, 0xFF * 2 ^ 56], v / 2 ^ 56 ≠ 0)
    ∧ (let o : ObjLog := { applied := [(0, 3)] }; 2 < o.appliedAt 0 ∧ o.appliedAt 0 < 2 + 4096 ∧ o.appliedAt 0 ≤ 3 ∧ (2 ^ 48 + 2) / 2 ^ 56 = 0) := by
  decide +kernel

/-- A ROCALL of method m of object o waits at its home, and the log stands thus. -/
def calling (o m : Nat) (l : ObjLog) : State :=
  { configured State.reset with calls := [⟨0, 7, 0, o, m, 0, 3, 0⟩], objects := [(1, l)] }

theorem witness_LogCalls :
    (calling 2 0 {}).calls[0]? = some ⟨0, 7, 0, 2, 0, 0, 3, 0⟩ ∧ (calling 2 0 {}).desc 0 2 = none
    ∧ (calling 1 0 {}).desc 0 1 = some object ∧ 0 < object.nmeth ∧ object.mbits.testBit 0 = true
    ∧ ((calling 1 0 { tail := 4096 }).objAt 0 1).tail - ((calling 1 0 { tail := 4096 }).objAt 0 1).minApplied = 4096
    ∧ (let o : ObjLog := { tail := 4095 };
      ((calling 1 0 o).objAt 0 1).tail - ((calling 1 0 o).objAt 0 1).minApplied ≠ 4096 ∧ ((calling 1 0 o).objAt 0 1).tail < 2 ^ 48
      ∧ ∀ die, die < 4 → ((calling 1 0 o).sliceAt (12 * die)).fifo = [])
    ∧ (calling 1 0 {}).calls.eraseIdx 0 = []
    ∧ (let s : State := { calling 1 0 {} with calls := [⟨0, 7, 0, 1, 0, 0, 3, 0⟩, ⟨8, 8, 0, 1, 0, 0, 3, 0⟩] };
      s.calls[1]? = some ⟨8, 8, 0, 1, 0, 0, 3, 0⟩ ∧ s.callFirst 1 ⟨8, 8, 0, 1, 0, 0, 3, 0⟩ = true)
    ∧ 1 < object.nmeth ∧ object.mbits.testBit 1 = false ∧ ((calling 1 1 {}).sliceAt (12 * dieOf (0 / 8))).fifo = [] := by decide +kernel

/-- Two items of a FIFO in the order of arrival. -/
theorem witness_LogCalls_order :
    [(1, JetItem.replay 0 0), (2, .replay 0 1)].Pairwise (fun a b => a.1 < b.1 ∨ a.1 = b.1 ∧ a.2.rank ≤ b.2.rank) := by
  simp

/-- A task with a matrix share of 4 that issues in slot b: rows from the start of its scratchpad, 512 bytes apart. -/
def matrix (b : Nat) : State :=
  issuing 0 b { four with s := [(1, { v := 0xFFFC000000000 }), (2, { v := 512 })], matrixShare := 4, ebudget := 16 }

theorem witness_MatrixInstructionsIssue :
    (∀ i ∈ [Instr.mmz { memP 3 with a := 0 }, .mmwr (memP 0xFF3), .mmld { memP 3 with x := 2 }, .mmst { memP 3 with x := 2 }, .mmrd { memA 0 0xFF3 with a := 0 }],
      i.check = none)
    ∧ (let s := matrix 7;
      s.cur.bslot = 7 ∧ s.cur.slot < 4 ∧ s.isSluice = false ∧ s.matFull = false ∧ (∀ k, k < 4 → (s.ctxAt (ctxKey s.cur.core k)).restart = none) ∧ 3 < s.ctx.matrixShare ∧ s.ctx.canUse (some g0) [.s 1, .s 2, .a 3] = true
      ∧ s.ctx.canUse (some g0) [.a 3, .v 3] = true ∧ s.ctx.canUse (some g0) [.v 1] = true ∧ s.rowsVerdict { memP 3 with x := 2 } false = .go
      ∧ s.rowsVerdict { memP 3 with x := 2 } true = .go ∧ s.ctx.ldq.length < 32 ∧ s.ctx.stq.length < 32 ∧ s.cur.go = false)
    ∧ (let w : MmaW := ⟨g0, 2, 3, 3, 0, 0, 0, 0, 1, 0, 0, 1, false, false, false⟩;
      Instr.WellFormed (.mma w) ∧ (matrix 7).ctx.canUse (some g0) ((mmaWalkers w).map FReg.w) = true ∧ w.acc.toNat < (matrix 7).ctx.matrixShare
      ∧ w.gang = 0 ∧ w.shape = 0 ∧ (matrix 7).mmaChecks w = .go ∧ (∀ i ∈ mmaWalkers w, ((matrix 7).ctx.wreg i).misaligned = false ∧ ((matrix 7).ctx.wreg i).pois = false))
    ∧ (matrix 6).cur.bslot = 6 ∧ 4 ≤ ({ matrix 7 with cur := { slot := 4, bslot := 7 } } : State).cur.slot
    ∧ (issuing 0 7 four).ctx.matrixShare ≤ 0 ∧ ((matrix 7).modCore (fun k => { k with matq := List.replicate 4 ⟨0, 0, .mmz 0⟩ })).matFull = true
    ∧ (let s := (matrix 7).setCtx { (matrix 7).ctx with ebudget := 15 }; s.matFull = false ∧ s.ctx.ebudget.toNat < 16 * 2 ^ (0 : BitVec 2).toNat) := by
  decide +kernel

/-- A gang of two: tasks 0 and 1 of the launch, resident in cores 0 and 1. -/
theorem witness_MatrixInstructionsIssue_gang :
    let w : MmaW := ⟨g0, 2, 3, 3, 0, 1, 1, 0, 1, 0, 0, 1, false, false, false⟩;
    let s0 := inLaunch 0 (matrix 7)
    let s : State := { s0 with fctxs := s0.fctxs.map (fun f => (f.1, { f.2 with launch := f.2.launch.map (fun l =>
      { l with groups := [⟨true, false, 0, []⟩, ⟨true, false, 0, [0, 1]⟩], tasks := [(0, .resident 0 0), (1, .resident 1 0)] }) })) }
    w.gang ≠ 0 ∧ s.launchOf s.ctx ≠ none ∧ (∀ l, s.launchOf s.ctx = some l → l.members w.gang.toNat = some [0, 1]
      ∧ sget .waiting l.tasks 0 = .resident 0 0 ∧ sget .waiting l.tasks 1 = .resident 1 0) ∧ shapeMembers w.shape.toNat = 2
      ∧ s.ctx.taskid.toNat ∈ [0, 1] ∧ clusterOf 0 = clusterOf s.cur.core ∧ clusterOf 1 = clusterOf s.cur.core ∧ s.mmaChecks w = .go := by
  intro w s0 s
  refine ⟨by decide, by decide +kernel, fun l h => ?_, by decide, by decide +kernel, by decide +kernel, by decide +kernel, by decide +kernel⟩
  have h' : (s.launchOf s.ctx).map (fun l => (l.members 1, sget .waiting l.tasks 0, sget .waiting l.tasks 1)) = some (some [0, 1], .resident 0 0, .resident 1 0) := by
    decide +kernel
  rw [h] at h'
  simp only [Option.map_some, Option.some.injEq, Prod.mk.injEq] at h'
  exact h'

/-- A supervisor task with s1 = a: its context is bound to the physical function. -/
def supervising (a : Word) : State :=
  let s := issuing 0 6 (two a 0)
  { s with fctxs := [(0, { entry := some ⟨true, 0, 8, 10, 10, 1, 1, 1⟩ })] }

theorem witness_RangeInstructionsIssue :
    (∀ i ∈ [Instr.rsplit (memA 0 0), .rmerge (memA 0 0), .rinv (memP 0), .rprobe (memA 0 0)], i.check = none)
    ∧ (issuing 0 6 (two 0 0)).supervisor = false ∧ (issuing 0 6 (two 0 0)).cur.go = false ∧ (supervising 0x100).supervisor = true
    ∧ (supervising 0x100).ctx.canUse (some g0) [.s 1, .s 3] = true ∧ ((supervising 0x100).ctx.sreg 1).pois = false ∧ 0x100 % 256 = 0
    ∧ (supervising 0x100).ctx.ldq.length < 32 ∧ (supervising 0x100).ctx.stq.length < 32 ∧ 13 * 2 ^ 48 - 256 < 13 * 2 ^ 48 ∧ (13 * 2 ^ 48 - 256) % 256 = 0
    ∧ 13 * 2 ^ 48 ≤ 0xD000000000000 ∧ (supervising 0).resolve 0xD000000000000 = .bad .window ∧ 0xFF % 256 ≠ 0
    ∧ (supervising 0x100).resolve 0x100 = .global 0x100 (13 * 2 ^ 48 - 0x100) ∧ (spadding 0 [] four).resolve 0xFFFC000000000 = .spad 0 0 0x100000
    ∧ lookup (supervising 0x100).core.rtlb 0 (supervising 0x100).ptime 0x100 = none ∧ (supervising 0x100).core.missVa = none
    ∧ ((supervising 0x100).modCore (fun k => { k with missVa := some 8 })).core.missVa = some (0x100 / 32)
    ∧ (let s := (supervising 0x100).modCore (fun k => { k with rtlb := [cached] });
      lookup s.core.rtlb 0 s.ptime 0x100 = some cached ∧ s.ctx.rinvs = [] ∧ range.res.getLsbD ((0x100 - 256 * range.base) / range.sub) = true)
    ∧ (let s := (supervising 0x100).modCore (fun k => { k with rtlb := [{ cached with entry := { range with res := 0 } }] });
      lookup s.core.rtlb 0 s.ptime 0x100 = some { cached with entry := { range with res := 0 } })
    ∧ (let s := (supervising 0x100).setCtx { (supervising 0x100).ctx with ldq := [{ id := 8, slot := 6, op := .rinv 0x100 }], stq := [{ id := 8, slot := 6, op := .rinv 0x100 }] };
      s.ctx.rinvs.any range.covers = true ∧ s.cur.go = false) := by decide +kernel

theorem witness_NoOperations :
    (let s := issuing 0 0 { four with body := [⟨0, 0x700, []⟩] };
      s.bundle = some ⟨0, 0x700, []⟩ ∧ s.ctx.marks = [] ∧ s.ctx.advances = [] ∧ s.ctx.brbNext = none) := by decide +kernel

/-- An MMA of one block of rows and columns that all lie at the start of the scratchpad. -/
def mma (z : Bool) : MmaRec :=
  ⟨⟨g0, 2, 3, 3, 0, 0, 0, 0, 1, 0, 0, 1, z, false, false⟩, { base := 0xFFFC000000000 }, { base := 0xFFFC000000000 }, {}, {}, {}, 0, 0, 0, 0, false⟩

/-- The matrix queue of core 0 holds this operation of slot 0, which executes as given, and one more. -/
def executing (op : MatOp) (m : MatExec) : State :=
  (matrix 7).modCore (fun k => { k with matq := [⟨0, 9, op⟩, ⟨0, 10, .mmz 2⟩], mat := m })

theorem witness_MatrixEvents :
    (∀ op ∈ [MatOp.mma (mma true), .mma (mma false), .mmz 3, .mmwr 3 63 3 1 0, .mmld 3 (some [])],
      (executing op {}).core.matq = ⟨0, 9, op⟩ :: [⟨0, 10, .mmz 2⟩] ∧ (executing op {}).core.mat.started = false
      ∧ (∀ k, k < 4 → ((executing op {}).ctxAt (ctxKey 0 k)).restart = none) ∧ (executing op { started := true }).core.mat.started = true
      ∧ (executing op {}).coreStands 0 = false ∧ ({ executing op {} with dev := { lost := [0] } } : State).coreStands 0 = true)
    ∧ (mma true).w.gang = 0 ∧ (mma true).resumed = false ∧ (mma true).w.z = true ∧ (mma true).start = 0 ∧ (mma false).w.z = false ∧ 63 < 64 ∧ 3 < 4
    ∧ (executing (.mma (mma false)) { started := true, blk := 1 }).core.mat.blk = (mma false).w.kb.toNat
    ∧ (let s := executing (.mma (mma false)) { started := true };
      let x := s.matTranslate 9 (((mma false).addrs 0).drop s.core.mat.ops.length);
      s.core.mat.blk + s.core.mat.blocks.length < (mma false).w.kb.toNat ∧ s.ctx.matTurn 9 = true ∧ s.matHeld 9 ((mma false).addrs 0) = false
      ∧ s.mates (mma false) = [] ∧ x.2 = none ∧ x.1.core.mat.ops.length = 192
      ∧ (x.1.partsWait ((x.1.core.mat.ops.flatMap (fun o => withVas (BitVec.ofNat 64 o.1) o.2)).filter (fun p => (x.1.core.mat.lineOf 0 p.1).isNone))).1 = false)
    ∧ (let r : MmaRec := { mma false with wa := { base := 0x1000 } };
      ((executing (.mma r) { started := true }).matTranslate 9 (r.addrs 0)).2 = some (.walk 0x1000)
      ∧ (((executing (.mma r) { started := true }).modCore (fun k => { k with mrt := [cached] })).matTranslate 9 (r.addrs 0)).2 = none)
    ∧ (let b : MatBlock := ⟨[], [], []⟩; (executing (.mma (mma false)) { started := true, blocks := [b] }).core.mat.blocks = [b])
    ∧ (let r : MmaRec := { mma false with wa := { base := 0xF014000000000 } };
      let s := executing (.mma r) { started := true };
      s.core.mat.blocks = [] ∧ s.core.mat.blk < r.w.kb.toNat
      ∧ (s.matTranslate 9 ((r.addrs 0).drop s.core.mat.ops.length)).2 = some (.trap { cause := .spforeign, va := 0xF014000000000 })) := by decide +kernel

/-- A gang of tasks 0 and 1 in cores 0 and 1, the partner's MMA at the head of its queue or not; its fetch ahead of or behind this one; an
MMA of the core that is restarted. -/
def ganged (q : List MatEntry) (m : MatExec) : State :=
  let s := inLaunch 0 (executing (.mma { mma false with w := { (mma false).w with gang := 1, shape := 1, kb := 2 } }) m)
  { s.modCoreAt 1 (fun k => { k with matq := q, mat := m }) with fctxs := s.fctxs.map (fun f => (f.1, { f.2 with launch := f.2.launch.map (fun l =>
    { l with groups := [⟨true, false, 0, []⟩, ⟨true, false, 0, [0, 1]⟩], tasks := [(0, .resident 0 0), (1, .resident 1 0)] }) })) }

theorem witness_MatrixEvents_gang :
    let r : MmaRec := { mma false with w := { (mma false).w with gang := 1, shape := 1, kb := 2 } }
    let e : MatEntry := ⟨0, 9, .mma r⟩
    r.w.gang ≠ 0 ∧ r.resumed = false ∧ (ganged [e] {}).partners r = [(1, 0)] ∧ (ganged [e] {}).gangHead 1 0 r = true ∧ (ganged [] {}).gangHead 1 0 r = false
    ∧ (∀ k, k < 4 → ((ganged [e] {}).ctxAt (ctxKey 0 k)).restart = none) ∧ (ganged [e] { started := true }).mates r = [(1, 0)]
    ∧ (let s := ganged [e] { started := true, blocks := [⟨[], [], []⟩] }; s.mates r = [(1, 1)] ∧ s.core.mat.blk + s.core.mat.blocks.length = 1)
    ∧ ({ mma false with resumed := true } : MmaRec).resumed = true ∧ ({ four with restart := some (mma false) } : Ctx).restart.isSome = true := by
  decide +kernel

/-- Two exact products, and products of infinities and NaNs. -/
theorem witness_MatrixEvents_sums :
    (∀ x ∈ [Machine.Num.fin false 3 (-2) false, .fin true 0 (-2) false], x.exactFrom (-2))
    ∧ (let p (x y : Machine.Num) := x.mul y;
      (p (.inf true) (.fin false 1 0 false)).1 = .inf true ∧ (p (.inf false) (.fin false 1 0 false)).1 = .inf false
      ∧ (p (.nan true) (.inf false)).1.isNan = true ∧ (p (.nan true) (.inf false)).2 = fNV) := by
  refine ⟨by simp [Machine.Num.exactFrom], ?_⟩
  decide +kernel

/-- Partition 0 is configured, and its range table, of the one entry `range`, lies at PA 0x10000. -/
def tabled (s : State) : State :=
  { s with mem := { s.mem with bytes := msets s.mem.bytes (paKey 0x10000) range.bytes },
           parts := [(0, { config := some pconf, rtbase := 0x10000, rtcap := 1, rtn := 1, resident := some 0 })] }

/-- Jet core 0 runs this item with x1 = a and x2 = b; core 0 is of the resident launch, with an L1. -/
def jet (i : JetItem) (a b : Word) : State :=
  { tabled ((carding []).modCore (fun k => { k with l1gran := 1 })) with slices := [(0, { run := some { item := i, x := [(1, a), (2, b)] }, mode := false })] }
def event (ev : JetEvent) : JetItem := .event ev 0 1 0x100 5 7 0 9 0x200
/-- The line at PA 0x200 is in L2. -/
def lined (s : State) : State := { s with mem := { s.mem with l2 := [(2, ⟨5, 0, false, 0, 0, 0, 0, false⟩)] } }

theorem witness_XjetInstructions :
    (∀ i ∈ [event .miss, event .fill, event .evict, event .msg, .replay 0 1, .read 0 1 1 0 0 0 3 0],
      let r : JetRun := { item := i, x := [(1, 248), (2, 0)] };
      ((jet i 248 0).sliceAt 0).run = some r ∧ r.count < (jet i 248 0).budgetOf i ∧ (r.reg 1).toNat < 256 ∧ (r.reg 1).toNat % 8 = 0 ∧ r.undo = [])
    ∧ (0 : Byte).getLsbD (248 / 32) = false ∧ sget? (lined (jet (event .msg) 248 0)).mem.l2 (0x200 / 256) = some ⟨5, 0, false, 0, 0, 0, 0, false⟩
    ∧ (jet (event .fill) 0 0).jetLine 0 0x200000 = none ∧ (jet (event .fill) 0 0).jetLine 0 0x300 = some (range, ⟨.coh, 0x300⟩) ∧ 2 ^ 14 ≤ 2 ^ 14
    ∧ (let l : L2Line := ⟨5, 128, true, 0, 0, 0, 0, false⟩; l.pois.getLsbD (248 / 32) = true) ∧ (lined (jet (event .msg) 248 0)).parts.filterMap (fun p => p.2.movedTo .copy 0x2E0) = []
    ∧ sget? (jet (event .fill) 0 0).mem.l2 3 = none ∧ (jet (event .fill) 0 0).mem.fills = [] ∧ (JetRun.kind { item := event .fill }) = .handler .fill
    ∧ (JetRun.kind { item := event .msg }) = .handler .msg ∧ (JetRun.kind { item := event .miss }) = .handler .miss ∧ (JetRun.kind { item := .replay 0 1 }) = .method true
    ∧ 0 < 1024 ∧ (jet (event .fill) 0x300 0).runsLaunch 0 0 = true ∧ ((jet (event .fill) 0x300 0).coreAt 0).l1gran ≠ 0
    ∧ (jet (event .fill) 0x300 0).copyOf (0x300 / 128) 0 = none ∧ 15 * 1024 < 2 ^ 14 ∧ 0 ≠ deadKey ∧ 0xFFEF % 65536 ≤ 0xFFEF
    ∧ (let s : State := { configured State.reset with slices := [(0, { mx := [(1, 1)] })], objects := [(1, { tail := 1 })] };
      (s.sliceAt 0).run = none ∧ (s.objAt (s.monitorPart 0) (((s.sliceAt 0).mreg 1).toNat % 256)).appliedAt (0 / 12) = 0
      ∧ 0 ≠ (s.objAt (s.monitorPart 0) 1).tail ∧ ((s.sliceAt 0).mreg 0).toNat = 0 ∧ ((s.sliceAt 0).mreg 1).toNat ≠ 0
      ∧ (s.objAt 0 2).appliedAt 0 = (s.objAt 0 2).tail) := by decide +kernel

/-- Jet core 0 runs an item whose code, in its window or of its object, is this one instruction; s1 = a. -/
def coded (i : JetItem) (w : Nat) (a : Word) : State :=
  let s := jet i a 0
  { s with mem := { s.mem with bytes := msets s.mem.bytes (jetAddr 0 0x100) (leBytes w 4) },
           parts := s.parts.map (fun p => (p.1, { p.2 with code := [(1, 0x100, 4)] })) }

/-- ADDI x5, x1, 1; LD x5, 0(x1); SD x2, 0(x1); an illegal word; JDONE x1. -/
theorem witness_JetEvents :
    (let x : Slice := { raised := [(7, event .fill)] };
      x.raisedAt .fill 0x200 5 = some 0 ∧ x.raised[0]? = some (7, event .fill) ∧ x.fifo.length < 32
      ∧ 32 ≤ ({ x with fifo := List.replicate 32 (0, event .fill) } : Slice).fifo.length)
    ∧ (let x : Slice := { raised := [(7, event .fill), (7, event .msg)] };
      x.raisedAt .fill 0x200 5 = some 0 ∧ x.raised[1]? = some (7, event .msg) ∧ (event .msg).rank < (event .fill).rank)
    ∧ (let s := configured { State.reset with slices := [(0, { fifo := [(3, event .fill)] })] };
      (s.sliceAt 0).run = none ∧ (s.sliceAt 0).mhalt = false ∧ (s.sliceAt 0).fifo = [(3, event .fill)] ∧ (s.jetHandler 0 1).isSome = true)
    ∧ (∀ x ∈ [(0x00108293, (6 : Word)), (0x0000B283, 0xF000000000008), (0x0020B023, 0xF000000000000), (0xFFFFFFFF, 0)],
      (coded (event .fill) x.1 x.2).jetFetch 0 { item := event .fill, x := [(1, x.2), (2, 0)] } = some (4, x.1) ∧ x.1 % 128 ≠ 11)
    ∧ (let r : JetRun := { item := event .fill, x := [(1, 0xF000000000008), (2, 0)] };
      let s := coded (event .fill) 0x0000B283 0xF000000000008;
      (s.sliceAt 0).run = some r ∧ r.count < s.budgetOf r.item ∧ s.jetPlace 0 r .load 0xF000000000008 = .sram 0x108
      ∧ s.jetPlace 0 r .atomic 0xF000000000008 = .sram 0x108 ∧ s.jetPlace 0 r .store 0xF000000000008 = .sram 0x108 ∧ 0xF000000000008 % 8 = 0
      ∧ (∀ w ∈ [0x00108293], (match rvDecode w r.reg (BitVec.ofNat 64 r.pc + Config.jetPcBase) with | .put rd v => decide (rd = 5 ∧ v = 0xF000000000009) | _ => false) = true)
      ∧ (match rvDecode 0x0000B283 r.reg (BitVec.ofNat 64 r.pc + Config.jetPcBase) with | .load rd n g a => decide (rd = 5 ∧ n = 8 ∧ a = 0xF000000000008) || g | _ => false) = true
      ∧ (match rvDecode 0x0020B023 r.reg (BitVec.ofNat 64 r.pc + Config.jetPcBase) with | .store n a v => decide (n = 8 ∧ a = 0xF000000000008 ∧ v = 0) | _ => false) = true
      ∧ (match rvDecode 0xFFFFFFFF r.reg (BitVec.ofNat 64 r.pc + Config.jetPcBase) with | .illegal => true | _ => false) = true
      ∧ (let op (w : Nat) := rvDecode w r.reg (BitVec.ofNat 64 r.pc + Config.jetPcBase);
        (match op 0x1000B2AF with | .lr rd n a => decide (rd = 5 ∧ n = 8 ∧ a = 0xF000000000008) | _ => false) = true
        ∧ (match op 0x1820B2AF with | .sc rd n a v => decide (rd = 5 ∧ n = 8 ∧ a = 0xF000000000008 ∧ v = 0) | _ => false) = true
        ∧ (match op 0x0020B2AF with | .amo f5 rd n a v => decide (f5 = 0 ∧ rd = 5 ∧ n = 8 ∧ a = 0xF000000000008 ∧ v = 0) | _ => false) = true
        ∧ (match op 0x008000EF with | .jump rd _ => decide (rd = 1) | _ => false) = true ∧ (match op 0x0000000F with | .nop => true | _ => false) = true)
      ∧ amoNew 0 8 5 (7 % 2 ^ 64) = some 12 ∧ s.jetPlace 0 r .load 0x300 = .global ⟨.coh, 0x300⟩ 0x300 ∧ s.jetPlace 0 r .store 0x300 = .global ⟨.coh, 0x300⟩ 0x300
      ∧ (s.jetReady r ⟨.coh, 0x300⟩ 0x300).1 = false ∧ ((lined s).jetReady r ⟨.coh, 0x200⟩ 0x200).1 = true
      ∧ s.jetPlace 0 r .load 0xE000000000008 = .fault ∧ s.jetPlace 0 r .store 0xE000000000008 = .fault ∧ 0xF00000000000C % 8 ≠ 0
      ∧ r.kind.mayStore = false ∧ ({ r with item := event .msg } : JetRun).kind.mayStore = true
      ∧ s.budgetOf r.item ≤ ({ r with count := 100 } : JetRun).count)
    ∧ (let r : JetRun := { item := .replay 0 1, x := [(1, 7), (2, 0)] };
      let s := coded (.replay 0 1) 0x0A00800B 7;
      (s.sliceAt 0).run = some r ∧ r.count < s.budgetOf r.item ∧ (match s.jetNext 0 r with | .done t low => decide (low = 7) && decide (t = s) | _ => false) = true)
    ∧ (let e : QEntry := { id := 5, slot := 6, op := .jetmsg 0x200 ⟨.spad, 0⟩, locs := [(⟨.coh, 0x200⟩, 1)] };
      let s : State := { lined ((carding []).setCtx { four with stq := [e] }) with slices := [(0, { msgs := [(0, 5)] })] };
      (s.sliceAt 0).msgs = [(0, 5)] ∧ (s.ctxAt 0).stq.find? (fun e => e.id = 5) = some e ∧ (s.sliceAt 0).fifo.length < 32 ∧ s.lineBusy (2 * (0x200 / 256)) = false
      ∧ s.lineBusy (2 * (0x200 / 256) + 1) = false ∧ s.inL2 0x200 = true) := by decide +kernel

/-- L2 holds the line 5 of 128 bytes; its directory entry, the messages in flight and the cores are these. -/
def homed (d : SMap DirEntry) (ms : List Msg) (k : SMap Core) : State :=
  { State.reset with mem := { l2 := [(2, ⟨5, 0, false, 0, 0, 0, 0, false⟩)], dir := d, msgs := ms }, cores := k }
def msg (k : MsgKind) (core : Nat) : Msg := { kind := k, line := 5, core }
/-- Core 3 holds line 5 in this state. -/
def holding (st : L1State) : SMap Core := [(3, { l1 := [(10, ⟨st, 9, 0⟩)] })]
def owned (st : DirState) (busy : Option Txn) : SMap DirEntry := [(5, { st, owner := 3, age := 2, busy })]
def sharedBy (l : List Nat) (busy : Option Txn) : SMap DirEntry := [(5, { st := .s, sharers := l, age := 2, busy })]

/-- An MS access, or a far atomic, of the context with this operation, to PA 0x280, waits at the slice. -/
def msWaiting (op : QOp) (far : Bool) : QEntry × State :=
  let e : QEntry := { id := 5, slot := 6, op, locs := [(⟨.ms, 0x280⟩, 8)] }
  let s := homed [] [] []
  (e, { s.setCtx { four with ldq := [e], stq := [e] } with mem := { s.mem with homeops := [⟨0, 5, far⟩] } })

theorem witness_CoherenceEvents :
    (∀ k ∈ [MsgKind.gets, .getm],
      let s := homed [] [msg k 575] [];
      s.mem.msgs[0]? = some (msg k 575) ∧ s.stale (msg k 575) = false ∧ sget? s.mem.dir 5 = none ∧ (sget? s.mem.l2 (5 / 2)).isSome = true ∧ s.lineBusy 5 = false
      ∧ (s.setOf 5).length < 16 ∧ sget? (s.coreAt 575).l1 (2 * 5) = none)
    ∧ (∀ l ∈ [[3], [3, 4], [3, 4, 5]],
      let s := homed (sharedBy l none) [msg .gets 7] [];
      s.stale (msg .gets 7) = false ∧ l ≠ [] ∧ 7 ∉ l ∧ (l.length < 3 ∨ l.length = 3) ∧ s.lineBusy 5 = false)
    ∧ (∀ st ∈ [DirState.e, .m], ∀ k ∈ [MsgKind.gets, .getm, .pute, .putm],
      let s := homed (owned st none) [msg k 7] (holding .modified);
      s.lineBusy 5 = false ∧ s.stale (msg k 7) = false ∧ 3 ≠ 7 ∧ (homed (owned st none) [msg k 3] []).stale (msg k 3) = false)
    ∧ (let s := homed (sharedBy [7] none) [msg .getm 7] [(7, { l1 := [(10, ⟨.shared, 9, 0⟩)] })];
      s.lineBusy 5 = false ∧ (∀ o ∈ [7], o = 7) ∧ sget? (s.coreAt 7).l1 (2 * 5) = some ⟨.shared, 9, 0⟩)
    ∧ (let s := homed (sharedBy [3, 7] none) [msg .getm 7] []; s.lineBusy 5 = false ∧ [3, 7].filter (fun o => o ≠ 7) ≠ [])
    ∧ (∀ x ∈ [(MsgKind.fwdGets, Txn.fwdGets 7), (.fwdGetm, .fwdGetm 7)],
      let s := homed (owned .m (some x.2)) [msg x.1 3] (holding .modified);
      s.stale (msg x.1 3) = false ∧ s.copyOf 5 3 = some ⟨.modified, 9, 0⟩ ∧ 7 ≠ 3 ∧ sget? (s.coreAt 3).l1 (2 * 5) = some ⟨.modified, 9, 0⟩)
    ∧ (homed (sharedBy [3] (some (.getm 7 1 { line := 2 }))) [msg .inv 3] (holding .shared)).stale (msg .inv 3) = false
    ∧ (∀ st ∈ [L1State.modified, .exclusive],
      let s := homed (owned .m (some (.recall 1 (msg .gets 7)))) [msg .fwdRecall 3] (holding st);
      s.stale (msg .fwdRecall 3) = false ∧ s.copyOf 5 3 = some ⟨st, 9, 0⟩ ∧ (sget? s.mem.l2 (5 / 2)).isSome = true) := by decide +kernel

theorem witness_CoherenceEvents_answers :
    (∀ b ∈ [Txn.recall 1 { msg .gets 7 with line := 4 }, .recall 1 { msg .getm 7 with line := 4 }, .recall 2 (msg .gets 7), .getm 7 1 { line := 2 }, .getm 7 2 { line := 2 }],
      let s := homed (sharedBy [3] (some b)) [msg .ack 3] [];
      s.stale (msg .ack 3) = false ∧ sget? s.mem.dir 5 = some { st := .s, sharers := [3], age := 2, busy := some b } ∧ (sget? s.mem.l2 (5 / 2)).isSome = true)
    ∧ (homed [] [msg .putAck 3] []).stale (msg .putAck 3) = false ∧ (homed [] [] []).stale { msg .gets 7 with line := 4, inc := 1 } = true
    ∧ (sget? (homed [] [] []).mem.l2 (4 / 2)).isSome = true ∧ (homed [] [] []).parts.filterMap (fun p => p.2.movedTo .copy (128 * 5)) = []
    ∧ (let s : State := { homed (owned .m (some (.fwdGets 7))) [msg .fwdGets 3] (holding .modified) with mem := { (homed (owned .m (some (.fwdGets 7))) [msg .fwdGets 3] []).mem with l2 := [] } };
      ¬ (sget? s.mem.l2 (5 / 2)).isSome = true ∧ s.lineBusy 4 = false ∧ sget? s.mem.dir 4 = none ∧ (s.setOf 4).length < 16)
    ∧ (∀ k ∈ [MsgKind.gets, .getm, .pute, .putm, .fwdGets, .fwdGetm, .inv, .fwdRecall], (homed [] [{ msg k 3 with inc := 1 }] []).stale { msg k 3 with inc := 1 } = true)
    ∧ ({ msg .putAck 3 with inc := 1 } : Msg).inc ≠ ((homed [] [] []).dieAt (dieOf 3)).incarnation ∧ dieOf 3 < 4
    ∧ (let s := homed [] [{ msg .ack 3 with hinc := 1 }] [];
      s.mem.msgs[0]? = some { msg .ack 3 with hinc := 1 } ∧ ({ msg .ack 3 with hinc := 1 } : Msg).hinc ≠ (s.dieAt (homeDie 5)).incarnation ∧ 4 ≤ homeDie 5) := by decide +kernel

/-- The set of line 5 full of sixteen other lines, each held by core 3; the one at k = 0 is the oldest, and all or none are busy. -/
def crowded (busy : Option Txn) : State :=
  homed ((List.range 16).map (fun k => (5 + (k + 1) * 6291456, { st := .s, sharers := [3], age := k, busy }))) [msg .gets 7] []

theorem witness_CoherenceEvents_fullSet :
    (let s := crowded none;
      s.stale (msg .gets 7) = false ∧ s.lineBusy 5 = false ∧ sget? s.mem.dir 5 = none ∧ 16 ≤ (s.setOf 5).length
      ∧ (6291461, ({ st := .s, sharers := [3], age := 0, busy := none } : DirEntry)) ∈ s.setOf 5
      ∧ (∀ y ∈ s.setOf 5, y.2.busy = none → y = (6291461, { st := .s, sharers := [3], age := 0, busy := none }) ∨ 0 < y.2.age)
      ∧ ({ st := .s, sharers := [3], age := 0, busy := none } : DirEntry).holders ≠ [])
    ∧ (let s := crowded (some (.fwdGets 9)); s.lineBusy 5 = false ∧ 16 ≤ (s.setOf 5).length ∧ ∀ y ∈ s.setOf 5, y.2.busy.isSome = true) := by decide +kernel

theorem witness_CoherenceEvents_homeOperations :
    (∀ op ∈ [QOp.store 7 8 0 false, .load 3 8 true false],
      let x := msWaiting op false;
      x.2.homeOp 0 false = some (⟨0, 5, false⟩, x.1) ∧ x.1.done = 0 ∧ x.1.got = [] ∧ x.1.locs = [(⟨.ms, 0x280⟩, 8)] ∧ x.2.redirect ⟨.ms, 0x280⟩ = ⟨.ms, 0x280⟩
      ∧ (sget? x.2.mem.l2 (0x280 / 256)).isSome = true ∧ x.2.lineBusy (0x280 / 128) = false ∧ sget? x.2.mem.dir (0x280 / 128) = none
      ∧ x.2.parts.filterMap (fun p => p.2.movedTo .copy 0x280) = [])
    ∧ (let x := msWaiting (.atom .add 3 true true 5 0) true; x.2.homeOp 0 true = some (⟨0, 5, true⟩, x.1) ∧ x.1.op = .atom .add 3 true true 5 0)
    ∧ (let m : Mem := { fills := [{ line := 2 }] };
      m.fills.find? (fun y => y.line = 2) = some { line := 2 } ∧ sget false m.failed (chanOf (256 * 2)) = false)
    ∧ (let y : L2Line := ⟨5, 0, true, 0, 0, 0, 15, false⟩;
      let v := 2 + 3145728;
      let s : State := { State.reset with mem := { fills := [{ line := 2 }], l2 := [(v, y)] }, basins := [(0, { blocked := [(bankOf (256 * 2), 9)] })] };
      s.bankBlocked (256 * 2) = true ∧ unitOf (256 * 2) = 0 ∧ ({ s with basins := [] } : State).bankBlocked (256 * 2) = false
      ∧ ({ s with basins := [] } : State).bankBlocked (256 * v) = false ∧ (∀ k, k < 8 → ([] : List EccResult).getD k .clean = .clean)
      ∧ (s.mem.l2.filter (fun y => lineSlice y.1 = lineSlice 2)).length < 4096 ∧ sget? s.mem.l2 v = some y ∧ v ≠ 2 ∧ lineSlice v = lineSlice 2
      ∧ y.way ∈ s.waysFor none ∧ sget false s.mem.failed (chanOf (256 * v)) = false)
    ∧ (let s := configured State.reset; ((s.partAt 0).config.map (·.l2ways)) = some 1)
    ∧ (let s := homed (owned .m (some (.fwdGets 7))) [] []; s.lineBusy 5 = true)
    ∧ (let s := homed [] [] [(3, { l1 := [(11, ⟨.ncDirty, 9, 0⟩)] })];
      sget? (s.coreAt 3).l1 (2 * 5 + 1) = some ⟨.ncDirty, 9, 0⟩ ∧ (sget? s.mem.l2 (5 / 2)).isSome = true ∧ s.lineBusy 5 = false ∧ s.redirect ⟨.nc, 128 * 5⟩ = ⟨.nc, 128 * 5⟩
      ∧ s.parts.filterMap (fun p => p.2.movedTo .copy (128 * 5)) = [] ∧ sget? ({ s with mem := {} } : State).mem.l2 (5 / 2) = none) := by decide +kernel

/-- Partition 0 with its range table, and this range change of it in progress. -/
def changing (c : RangeChange) : State := { tabled State.reset with changes := [c], now := 72000 }
def compacting (st : CmpState) (r : RangeEntry) (va off : Nat) : State :=
  let s : State := { State.reset with mem := { bytes := msets [] (paKey 0x10000) r.bytes } }
  { s with parts := [(0, { rtbase := 0x10000, rtcap := 1, rtn := 1, cmpva := BitVec.ofNat 52 va, cmpoff := BitVec.ofNat 64 off, cmpstate := st, cmpentry := some r })] }

theorem witness_RangeEvents :
    (∀ va ∈ [0, 0x1000FF],
      let s := { tabled State.reset with dies := [(0, { walks := [⟨0, va, 0, false⟩] })] };
      (s.dieAt 0).walks = [⟨0, va, 0, false⟩] ∧ (match s.walk 0 va with | some e => decide (e = range) | none => false) = true ∧ (s.coreAt 0).rtlb.length < 64
      ∧ s.walk 0 0x100100 = none)
    ∧ (let c : RangeChange := { part := 0, time := 0, va := some 0, ahead := [(0, 5)], copies := [2], entries := [(0, 3)], issuer := some (0, 9) };
      (changing c).changes[0]? = some c ∧ (∀ a ∈ c.ahead, (changing c).jobRuns a = false) ∧ (∀ n ∈ c.copies, ∀ j ∈ (changing c).copyjobs, j.num = n → j.k / 64 ≠ c.part)
      ∧ (∀ a ∈ c.entries, (changing c).entryWaits a = false) ∧ c.complete = none ∧ c.swap = false ∧ c.flip = false ∧ ({ c with drained := true } : RangeChange).drained = true
      ∧ c.time + ((changing c).partAt c.part).leasens.toNat ≤ (changing c).now / 9)
    ∧ (let r := { range with limit := 0 };
      let s := compacting .idle r 0 0x200;
      (s.partAt 0).cmpstate ≠ .copy ∧ (s.partAt 0).cmpstate ≠ .forward ∧ (match s.compactable 0 with | .ok e => decide (e = r) | .error _ => false) = true
      ∧ (match (compacting .idle r 0 0).compactable 0 with | .error n => decide (n = 4) | .ok _ => false) = true
      ∧ (match (compacting .idle r 0 0x210).compactable 0 with | .error n => decide (n = 5) | .ok _ => false) = true
      ∧ (compacting .idle r 0x100 0).walk 0 0x100 = none ∧ (compacting .idle { r with kind := 1 } 0 0).walk 0 0 = some { r with kind := 1 }
      ∧ (compacting .idle { r with lock := true } 0 0).walk 0 0 = some { r with lock := true }
      ∧ r.kind ≠ 1 ∧ r.host = false ∧ r.remote = false ∧ r.vers = false
      ∧ (let s := compacting .copy r 0 0x200;
        (s.partAt 0).cmpstate = .copy ∧ (s.partAt 0).cmpentry = some r ∧ ∀ k, k < r.size / 128 → s.lineBusy (r.firstPa (r.offset * 256) / 128 + k) = false ∧ s.lineBusy (r.firstPa 0x200 / 128 + k) = false)
      ∧ (let c : RangeChange := { part := 0, time := 0, va := some 0, swap := true };
        c.part = 0 ∧ c.swap = true ∧ c.complete = none ∧ ({ c with complete := some 9 } : RangeChange).complete.isSome = true)) := by
  decide +kernel

/-- The line of the table is in L2, and two walks of one granule wait, one of them of the matrix unit; the core's walker or table is full
or not. -/
def walking (l : List Walk) (n : Nat) : State :=
  let s := tabled State.reset
  { s with mem := { s.mem with l2 := [(256, { data := BitVec.ofNat 2048 (leNat range.bytes), pois := 0, dirty := false })] },
           dies := [(0, { walks := l })], cores := [(0, { rtlb := List.replicate n cached })] }

theorem witness_RangeEvents_walks :
    (∀ va ∈ [0, 0x1000FF],
      (tabled State.reset).walkLacks 0 va = some 256 ∧ (walking [⟨0, va, 0, true⟩] 0).walkLacks 0 va = none
      ∧ (match (walking [⟨0, va, 0, true⟩] 0).walk 0 va with | some e => decide (e = range) | none => false) = true
      ∧ ((walking [⟨0, va, 0, true⟩] 0).coreAt 0).mrt.length < 16 ∧ ((walking [⟨0, va, 0, false⟩] 63).coreAt 0).rtlb.length < 64)
    ∧ (walking [] 0).walk 0 0x100100 = none ∧ (walking [] 0).walkLacks 0 0x100100 = none
    ∧ (let s := walking [⟨0, 0, 0, false⟩, ⟨1, 0xFFF, 0, false⟩] 0;
      (s.dieAt 0).walks = ⟨0, 0, 0, false⟩ :: [⟨1, 0xFFF, 0, false⟩] ∧ (∀ x ∈ [(⟨1, 0xFFF, 0, false⟩ : Walk)], x.joins ⟨0, 0, 0, false⟩ = true)
      ∧ ∀ y ∈ [(⟨1, 0xFFF, 0, false⟩ : Walk)], y.core ≠ 0) := by decide +kernel

/-- Changes that jobs, entries or the lease hold back; a swap; a flip with and without a ROUND that waits for it. -/
theorem witness_RangeEvents_changes :
    (let c : RangeChange := { part := 0, time := 0, va := none, entries := [(0, 3)], drained := true, flip := true };
      let r : RoundCmd := { k := 0, part := 0, n := 255, handles := [(0, 1)], semv := false, rsem := 0, group := 0, csem := none, recLocs := [], rxrows := 0, flip := some 0 };
      (changing { c with drained := false }).changes[0]? = some { c with drained := false } ∧ c.complete = none ∧ c.swap = false ∧ c.flip = true
      ∧ ((changing { c with time := 1 }).now / 9 < 1 + ((changing { c with time := 1 }).partAt 0).leasens.toNat)
      ∧ c.time + ((changing c).partAt 0).leasens.toNat ≤ (changing c).now / 9 ∧ (∃ r' ∈ ({ changing c with rounds := [r] } : State).rounds, r'.part = 0 ∧ r'.flip.isSome = true)
      ∧ (changing c).rounds = [])
    ∧ (let j : Job := { kind := .copy, card := 0, cardVa := 0, seq := 5, st := .active };
      let s : State := (changing { part := 0, time := 0, va := some 0, ahead := [(0, 5)] }).setCtxAt 0 { four with jobs := [(5, j)] };
      s.jobRuns (0, 5) = true)
    ∧ (let e : QEntry := { id := 3, slot := 6, op := .load 3 8 true false, locs := [(⟨.coh, 0⟩, 8)] };
      let s : State := (changing { part := 0, time := 0, va := some 0, entries := [(0, 3)] }).setCtxAt 0 { four with ldq := [e] };
      s.entryWaits (0, 3) = true) := by decide +kernel

/-- A compaction of one line, from PA 0 to PA 0x200, at each of its stages. -/
def moving (st : CmpState) (n : Nat) : State :=
  let r := { range with limit := 0 }
  let s := compacting st r 0 0x200
  { s with mem := { s.mem with l2 := [(0, ⟨5, 0, false, 0, 0, 0, 0, false⟩), (2, ⟨6, 0, false, 0, 0, 0, 0, false⟩)] },
           parts := s.parts.map (fun p => (p.1, { p.2 with cmpnew := 0x200, cmplines := n })) }

theorem witness_RangeEvents_compaction :
    (let s := moving .copy 0;
      (s.partAt 0).cmpentry = some { range with limit := 0 } ∧ ({ range with limit := 0 } : RangeEntry).firstPa 0 = 0 ∧ ({ range with limit := 0 } : RangeEntry).firstPa 0x200 = 0x200
      ∧ 0 < ({ range with limit := 0 } : RangeEntry).size / 256 ∧ firstWait [s.lineWait 0, s.lineWait 0x200] = .ready
      ∧ (∀ b, b < 2 → sget? s.mem.dir b = none ∧ sget? s.mem.dir (4 + b) = none ∧ s.parts.filterMap (fun x => x.2.movedTo .copy (0x200 + 128 * b)) = []
        ∧ ∀ a ∈ [0, 0x200], s.parts.findSome? (fun x => x.2.movedTo .forward (a + 128 * b)) = none) ∧ 0x200 % 256 = 0)
    ∧ (let s := moving .copy 1;
      ({ range with limit := 0 } : RangeEntry).size / 256 ≤ 1 ∧ (∀ k, k < 2 → s.lineBusy k = false ∧ sget? s.mem.dir k = none)
      ∧ s.parts.filterMap (fun x => x.2.movedTo .copy 0xFF) = [0x2FF] ∧ sget? s.mem.dir (0x2FF / 128) = none)
    ∧ (moving .forward 1).parts.findSome? (fun x => x.2.movedTo .forward 0xFF) = some 0x2FF ∧ ((moving .forward 1).partAt 0).cmpstate = .forward := by decide +kernel

/-- The task of `carding` has this job, the first instruction that it issued; its group's member is the task itself. -/
def working (k : JobKind) (b : Memory) (done : Nat) : Job × State :=
  let j : Job := { kind := k, card := cardOf b, cardVa := 0xFFFC000000000, seq := 5, st := .active, streams := [(0, done)] }
  let s := carding b
  (j, { s.setCtx { s.ctx with jobs := [(5, j)], engwaits := [(3, 6, 5, 256)] } with
        fctxs := s.fctxs.map (fun f => (f.1, { f.2 with launch := f.2.launch.map (fun l => { l with tasks := [(0, .resident 0 0)] }) })) })
def shape : Shape := ⟨0, 0, 0, 128, 0, 1, 0⟩
/-- A bucket set of 128 elements in segments of 64, of one contributor. -/
def bset : BucketSet :=
  { part := 0, mode := 0, wcrne := false, policy1 := false, fwd := false, elems := 128, seglog2 := 6, thresh := 1, expect := 1, seed := 0, bucket := shape, m1 := shape,
    m2 := shape, master := shape, wc := shape, ws := none, stage := none, wcvsh := 0, hpva := 0, prog := 0, wcfmt := 0, round := 0, agpkg := [], budget := 100,
    fwdhandle := 0, fwdpkg := 0 }

/-- The state with the choice of JobEvents taken. -/
def chosen (w : Job × State) : State := { w.2 with freeIx := w.2.freeIx + 1 }
def movesOf (w : Job × State) : Except MoveFail (List Move) :=
  (chosen w).jobMoves w.1 none ((granuleElems w.1.card 0).take (256 / cardEsz w.1.card))
def isMoved (x : Except MoveFail (List Move)) : Option Nat := match x with | .ok l => some l.length | .error _ => none

/-- A job that still reads and writes: of its own scratchpad, of a foreign one, of a poisoned index. -/
theorem witness_JobEvents :
    (∀ x ∈ [(JobKind.copy, card (rd 0x5FFFC000001000) (wr 0x5FFFC000002000) 0 0 300 (0x3FF * 2 ^ 7)), (.scadd, card (rd 0xFFFC000001000) (wr 0xFFFC000002000) (rd 0xFFFC000003000) 0 1 (0x3FF * 2 ^ 7 + 2))],
      let w := working x.1 x.2 0;
      sget? w.2.ctx.jobs 5 = some w.1 ∧ w.1.st = .active ∧ w.1.seq = 5 ∧ w.1.multicast = false ∧ w.1.retile = false ∧ w.2.jobHeld w.1 = false ∧ 0 < cardTotal w.1.card
      ∧ w.2.readyStreams w.1 = [(0, 0)] ∧ ((chosen w).partsWait ((chosen w).indexParts w.1 ((granuleElems w.1.card 0).take (256 / cardEsz w.1.card)))).1 = false
      ∧ (match movesOf w with
        | .ok m => !((chosen w).partsWait (m.flatMap (fun (x : Move) => withVas x.sva x.src ++ withVas x.dva x.dst))).1 | .error _ => false) = true
      ∧ (match (chosen w).retilePad w.1 0 with | .ok l => l.isEmpty | .error _ => false) = true)
    ∧ (∀ x ∈ [(0x5F014000001000, 0x13), (0x50000000001000, 0x10)],
      let w := working .copy (card (rd x.1) (wr 0x5FFFC000002000) 0 0 300 (0x3FF * 2 ^ 7)) 0;
      (match movesOf w with | .error (.fault f) => decide (f.1 = x.2) | _ => false) = true)
    ∧ (let w := working .gather (card (rd 0x5FFFC000001000) (wr 0x5FFFC000002000) (rd 0xFFFC000003000) 0 1 (0x3FF * 2 ^ 7)) 0;
      let u : Job × State := (w.1, { w.2 with mem := { w.2.mem with pois := [((2 ^ 60 + 0x3000) / 32, true)] } });
      w.1.phaser = none ∧ (match movesOf u with | .error (.poisonedIndex _ pa) => decide (pa = 0x3000) | _ => false) = true)
    ∧ (let w := working .copy (card (rd 0x5FFFC000001000) (wr 0x5FFFC000002000) 0 0 300 (0x3FF * 2 ^ 7)) 0;
      let b : Ctx := { w.2.ctx with stq := [{ id := 1, slot := 6, op := .fence 7 true false }] };
      (w.2.setCtx b).jobHeld w.1 = true) := by decide +kernel

/-- A RETILE of three bytes to row 0, or to a byte that begins no row of 64; its lines are in L2. -/
def retiling (a : Nat) : Job × State :=
  let w := working .copy (card (rd 0x5FFFC000001000) (wr (4 * 2 ^ 52 + a)) 0 (wr (2 * 2 ^ 52 + 0x8000)) (3 + 2 * 2 ^ 184) (0x3FF * 2 ^ 7)) 0
  let j := { w.1 with copies := [cached] }
  (j, { w.2.setCtx { w.2.ctx with jobs := [(5, j)] } with mem := { w.2.mem with
    l2 := [(0, ⟨5, 0, false, 0, 0, 0, 0, false⟩), (0x80, ⟨5, 0, false, 0, 0, 0, 0, false⟩)] } })

theorem witness_JobEvents_retile :
    (retiling 0).1.retile = true ∧ (retiling 0).1.phaser = none
    ∧ (match (chosen (retiling 0)).retileRow (retiling 0).1 with | .ok x => decide (x = (0, 0)) | .error _ => false) = true
    ∧ (match (chosen (retiling 0x100)).retileRow (retiling 0x100).1 with | .ok _ => false | .error f => decide (f = (97, 256))) = true
    ∧ isMoved (movesOf (retiling 0)) = some 3
    ∧ (match (chosen (retiling 0)).retilePad (retiling 0).1 0 with | .ok l => decide (l.length = 8) | .error _ => false) = true
    ∧ (let va := BitVec.ofNat 64 (cardRegion (retiling 0).1.card 3).base;
      (match (chosen (retiling 0)).jobAccess (retiling 0).1 true va 64 with | .ok ps => !((chosen (retiling 0)).partsWait (withVas va ps)).1 | .error _ => false) = true)
    ∧ (let w := working .copy (card (rd 0x5FFFC000001000) (wr 0) 0 (wr (2 * 2 ^ 52 + 0x8000)) (17 + 2 * 2 ^ 184) (0x3FF * 2 ^ 7)) 0;
      let u : Job × State := ({ w.1 with copies := [cached] }, w.2);
      (match (chosen u).retilePad u.1 0 with | .ok _ => false | .error f => decide (f.1 = 0x3FF)) = true) := by decide +kernel

/-- AWRs: a segment at a time, beyond the elements, of a forwarded handle, of an unknown one, and with every segment under way or answered. -/
theorem witness_JobEvents_awr :
    (∀ x ∈ [(64, 0), (1, 2 ^ 32), (128, 0)],
      let w := working .awr (card (rd 0x4FFFC000001000) x.2 0 0 x.1 (0x3FF * 2 ^ 7 + 1)) 0;
      let s := { w.2 with basins := [(1, { sets := [(0, bset)] })] };
      let cnt := (cardCounts w.1.card).headD 0;
      s.findSet (partOfKey s.ctx.owner) (bucketHandle w.1.card) = some (1, bset) ∧ w.2.findSet (partOfKey s.ctx.owner) (bucketHandle w.1.card) = none ∧ bset.fwd = false
      ∧ s.jobHeld w.1 = false ∧ awrRangeOk bset (bucketOff w.1.card) cnt (bucketId w.1.card) = decide (x.2 = 0) ∧ w.1.answered = []
      ∧ (s.basinAt 1).inbound = [] ∧ 0 < (cnt + 63) / 64 ∧ bucketOff w.1.card / 64 + 0 ∈ ({ w.1 with answered := [bucketOff w.1.card / 64] } : Job).answered
      ∧ (match s.awrMoves w.1 ((List.range (min 64 cnt)).map (fun i => 0 + i)) with
        | .ok m => !(s.partsWait (m.flatMap (fun (x : Move) => withVas x.sva x.src))).1 | .error _ => false) = true)
    ∧ (let w := working .awr (card (rd 0x4FFFC000001000) 0 0 0 64 (0x3FF * 2 ^ 7 + 1)) 0;
      let s := { w.2 with basins := [(1, { sets := [(0, { bset with fwd := true })] })] };
      s.findSet (partOfKey s.ctx.owner) (bucketHandle w.1.card) = some (1, { bset with fwd := true }) ∧ w.1.sent = 0 ∧ w.1.phaser = none
      ∧ (match s.awrMoves w.1 ((List.range 64).map (fun i => 0 + i)) with
        | .ok m => !(s.partsWait (m.flatMap (fun (x : Move) => withVas x.sva x.src))).1 | .error _ => false) = true)
    ∧ (let w := working .awr (card (rd 0x1000) 0 0 0 64 (0x3FF * 2 ^ 7 + 1)) 0;
      (match w.2.awrMoves w.1 [0 + 0] with | .ok _ => false | .error _ => true) = true) := by decide +kernel

/-- Jobs whose bytes are all delivered: with a semaphore, or with a handler whose queue has room or none. -/
theorem witness_JobEvents_completion :
    (∀ ctl ∈ [2 ^ 6, 2 ^ 21],
      let w := working .copy (card (rd 0xFFFC000001000) (wr 0xFFFC000002000) 0 0 3 (0x3FF * 2 ^ 7 + ctl)) 3;
      w.1.multicast = false ∧ w.1.retile = false ∧ cardTotal w.1.card ≤ 3 ∧ w.1.finished = [] ∧ cardHv w.1.card = decide (ctl = 2 ^ 21) ∧ cardSemv w.1.card = decide (ctl = 2 ^ 6)
      ∧ w.2.jobTargets w.1 = [0] ∧ w.2.completable w.1 = [(0, 0)] ∧ w.2.completionCore w.1 0 = some 0 ∧ (chosen w).completionCore w.1 0 = some 0
      ∧ (match (chosen w).writeRecord w.1 with | .ok (b, x) => b && decide (x.freeIx = w.2.freeIx + 1) | .error _ => false) = true
      ∧ (((chosen w).takeArrivals 0 (chosen w).ctx.owner 16).coreAt 0).inq.length < 16
      ∧ w.1.phaser = none ∧ w.1.poisoned = none ∧ w.1.dup = false ∧ w.2.ctx.kept = [] ∧ w.2.ctx.engwaits.filter (fun e => e.2.2.1 = 5) = [(3, 6, 5, 256)])
    ∧ (let w := working .copy (card (rd 0xFFFC000001000) (wr 0xFFFC000002000) 0 0 3 (0x3FF * 2 ^ 7)) 2; w.2.jobTargets w.1 = [0] ∧ w.2.completable w.1 = [] ∧ ¬ cardTotal w.1.card ≤ 2)
    ∧ (let a : HArrival := ⟨0, 0, 0, 0, 0, 0, 0⟩;
      let w := working .copy (card (rd 0xFFFC000001000) (wr 0xFFFC000002000) 0 0 3 (0x3FF * 2 ^ 7 + 2 ^ 21)) 3;
      let u : Job × State := (w.1, w.2.modCore (fun k => { k with inq := List.replicate 16 a }));
      16 ≤ (((chosen u).takeArrivals 0 (chosen u).ctx.owner 16).coreAt 0).inq.length)
    ∧ (let w := working .slx (card (rd 0xFFFC000001000) (wr 0xFFFC000002000) 0 0 4 (2 ^ 6)) 0;
      w.2.jobHeld w.1 = false ∧ w.2.jobTargets w.1 = [0] ∧ w.2.memberAt 0 = .here 0 ∧ 0 < cardTotal w.1.card ∧ (cardCounts w.1.card).headD 0 * cardEsz w.1.card = 4
      ∧ (((chosen w).chunkGranules 5 0 0 2 4).activeJob 5).map (fun k => sget 0 k.streams 0) = some 4) := by decide +kernel

/-- A task whose pending segment is the one at VA 0x40, which core 0 holds with these waits; q0 = n. -/
def starting (waits : List (Nat × Nat)) (n : BitVec 16) : State :=
  let s := inLaunch 0 (issuing 0 0 { four with phase := .pending 0x40 })
  s.modCore (fun k => { k with q := [(0, n)], chosen := some 0, h0 := { va := 0x40, complete := true, hdr := { waits, cycles := 64 } } })

theorem witness_SequencerEvents :
    (let s := inLaunch 0 (issuing 0 0 { four with phase := .pending 0x80 });
      let t := s.modCore (fun k => { k with chosen := some 0 });
      t.core.running = none ∧ t.core.chosen = some 0 ∧ (t.atSlot 0).ctx.phase = .pending 0x80 ∧ t.core.holdsSeg 0x80 = none)
    ∧ (let s := starting [(0, 3)] 3;
      let h : Half := { va := 0x40, complete := true, hdr := { waits := [(0, 3)], cycles := 64 } };
      s.core.running = none ∧ s.core.stopped = false ∧ s.core.frozen = false ∧ s.core.stopReq = false ∧ s.core.chosen = some 0 ∧ (s.atSlot 0).ctx.phase = .pending 0x40
      ∧ s.core.holdsSeg 0x40 = some h ∧ h.fault = none ∧ h.hdr.handler = (s.atSlot 0).isHandler ∧ (s.atSlot 0).startsTrap 0x40 = false
      ∧ distinct (h.hdr.waits.map (·.1)) = true ∧ (s.atSlot 0).startsTrap h.va = false ∧ s.core.met h.hdr.waits = true)
    ∧ (starting [(0, 3)] 2).core.met [(0, 3)] = false
    ∧ (let s := (starting [] 0).modCore (fun k => { k with active := [4] });
      let t := s.setCtxAt (ctxKey 0 4) { phase := .pending 0x40 };
      t.isSluice = false ∧ t.core.active.filter t.eligible = [4] ∧ t.core.hrun < t.core.hmax.toNat)
    ∧ (let s := (starting [] 0).setDeficit 0 1;
      s.isSluice = false ∧ s.core.active.filter s.eligible = [] ∧ [0, 1, 2, 3].filter s.eligible = [0] ∧ 0 < s.deficit 0) := by decide +kernel

/-- A task that waits for the segment at VA 0x80, whose table and code lie in L2 or not, with the half that the last segment used. -/
def fetching (held : Bool) (e : Option Bool) : State :=
  let s := tabled (inLaunch 0 (issuing 0 0 { four with phase := .pending 0x80 }))
  let z : L2Line := ⟨0, 0, false, 0, 0, 0, 0, false⟩
  ({ s with mem := { s.mem with l2 := if held then [(0, z), (256, { z with data := BitVec.ofNat 2048 (leNat range.bytes) })] else [] } }).modCore (fun k =>
    { k with chosen := some 0, ended := e })

theorem witness_SequencerEvents_expansion :
    (∀ e ∈ [none, some true, some false],
      let s := fetching true e;
      s.core.running = none ∧ s.core.chosen = some 0 ∧ (s.atSlot 0).ctx.phase = .pending 0x80 ∧ s.core.holdsSeg 0x80 = none ∧ s.core.ended = e
      ∧ (s.atSlot 0).expandWait 0x80 = .ready)
    ∧ (match ((fetching false none).atSlot 0).expandWait 0x80 with | .fill _ _ => true | _ => false) = true
    ∧ (some true = some (decide (0 = 0)) ∧ some false = some (decide (1 = 0)))
    ∧ (let s := (fetching true (some true)).modCore (fun k => { k with running := some 1 }); s.core.running.isSome = true ∧ s.core.ended = some (decide (1 = 1))) := by
  decide +kernel

/-- The trap handler's segment in a half, for a context in its trap frame, with a record of its partition still to be written or not; a safe
entry that a stop waits for; and a drained segment past twice its count. -/
theorem witness_SequencerEvents_stops :
    (let f : TrapFrame := ⟨0, false, {}, .inactive, .none, false, 0, [], [], none, false⟩;
      let h : Half := { va := 0x40, complete := true, hdr := { cycles := 64 } };
      let s := (inLaunch 0x40 (issuing 0 0 { four with phase := .pending 0x40, frame := some f })).modCore (fun k => { k with chosen := some 0, h0 := h });
      s.core.running = none ∧ s.core.stopped = false ∧ s.core.frozen = false ∧ s.core.stopReq = false ∧ s.core.chosen = some 0 ∧ (s.atSlot 0).ctx.phase = .pending 0x40
      ∧ s.core.holdsSeg 0x40 = some h ∧ h.fault = none ∧ h.hdr.waits = [] ∧ (s.atSlot 0).startsTrap h.va = true
      ∧ (∃ x ∈ ({ s with dev := { logq := [⟨some 0, 0, [], [], 0⟩] } } : State).dev.logq, x.log = some (partOfKey (s.atSlot 0).ctx.owner)) ∧ s.dev.logq = [])
    ∧ (let h : Half := { va := 0x40, complete := true, hdr := { cycles := 64, safeEntry := true } };
      let s := (starting [] 0).modCore (fun k => { k with h0 := h, stopReq := true });
      s.core.holdsSeg 0x40 = some h ∧ h.fault = none ∧ h.hdr.handler = (s.atSlot 0).isHandler ∧ (s.atSlot 0).startsTrap h.va = false ∧ s.core.stopReq = true ∧ h.hdr.safeEntry = true)
    ∧ (let s : State := { issuing 0 0 { four with phase := .draining, segStart := some 0, hdr := { cycles := 64 } } with now := 4 * 129 };
      s.ctx.phase = .draining ∧ s.ctx.pend = [] ∧ s.overran = true ∧ s.ctx.segStart = some 0)
    ∧ (issuing 0 0 { four with phase := .draining, pend := [landing 0 0 (.s 1)] }).ctx.pend ≠ [] := by decide +kernel

/-- A segment that has drained, with each exit action. -/
def drained (slot : Nat) (sel : Bool) (act : ExitAct) (p : Bool) : State :=
  issuing slot 0 { four with s := [(1, { v := 0, pois := p })], phase := .draining, sel, act, hdr := { next0 := 0, next1 := 0x80 }, retstack := [0x40] }

theorem witness_SequencerEvents_segmentEnd :
    (∀ sel ∈ [false, true], ∀ act ∈ [ExitAct.none, .call 0x80, .ret, .finish, .exit, .hdone],
      let s := drained 0 sel act false;
      s.ctx.phase = .draining ∧ s.ctx.pend = [] ∧ s.overran = false ∧ s.ctx.act = act ∧ (s.ctx.sreg 1).pois = false)
    ∧ (drained 4 false .none false).cur.slot = 4 ∧ ((drained 0 false .exit true).ctx.sreg 1).pois = true ∧ (issuing 0 0 four).ctx.retstack = [] := by decide +kernel

/-- The launch of fontanier context 0, changed. -/
def withLaunch (g : Launch → Launch) (s : State) : State :=
  { s with fctxs := s.fctxs.map (fun f => (f.1, { f.2 with launch := f.2.launch.map g })) }

def missed : TrapInfo := { cause := .rangeMiss, deferred := true, va := 0x40 }

theorem witness_TaskEvents :
    (let c : Ctx := { four with deferred := [missed] };
      let f : TrapFrame := ⟨0, false, {}, .inactive, .none, false, 0, [], [], none, false⟩;
      let s := issuing 0 0 c;
      s.ctx.phase = .running ∧ s.ctx.hold = 0 ∧ s.ctx.bend = false ∧ s.ctx.phwait = [] ∧ s.ctx.frame = none ∧ s.ctx.deferred = [missed]
      ∧ (issuing 0 0 { four with deferred := [{ missed with deferred := false }, missed] }).ctx.deferred = [{ missed with deferred := false }] ++ missed :: [] ∧ missed.deferred = true
      ∧ (issuing 0 0 { four with bend := true }).ctx.bend = true ∧ (issuing 0 0 { four with hold := 7 }).ctx.hold ≠ 0
      ∧ (issuing 0 0 { c with frame := some f, mmaTrap := some missed }).ctx.frame ≠ none
      ∧ (issuing 0 0 { c with frame := some f, mmaTrap := some missed }).ctx.mmaTrap = some missed
      ∧ (let b : RawBundle := ⟨0, 0, [(0, 0x3FFFFFFFFF)]⟩;
        let s := issuing 0 0 { four with body := [b] };
        s.ctx.deferred = [] ∧ s.ctx.mmaTrap = none ∧ s.bundle = some b ∧ (match s.bundleVerdict b with | .trap _ => true | _ => false) = true))
    ∧ (let s := inLaunch 0 (issuing 0 0 { four with phase := .retiring 7 0 });
      s.ctx.phase = .retiring 7 0 ∧ s.mayLeave = true ∧ s.isSluice = false ∧ s.publishWait = none ∧ (s.fctxAt s.ctx.owner).launch.isSome = true)
    ∧ (inLaunch 0 (issuing 0 0 { four with phase := .retiring 7 0, ldq := [{ id := 1, slot := 6, op := .rinv 0 }] })).mayLeave = false
    ∧ (let s := (inLaunch 0 (issuing 0 0 { four with phase := .retiring 7 0 })).modCore (fun k => { k with l1 := [(11, ⟨.ncDirty, 9, 0⟩)] });
      s.mayLeave = true ∧ s.publishWait.isSome = true)
    ∧ (let s := withLaunch (fun l => { l with handlers := [(0x80, 0x1F)] }) (inLaunch 0 (issuing 4 0 { phase := .ending, hindex := 0 }));
      s.ctx.phase = .ending ∧ s.mayLeave = true ∧ s.publishWait = none ∧ s.core.inq = [] ∧ (s.fctxAt s.ctx.owner).launch.bind (fun l => l.handlers[s.ctx.hindex]?) = some (0x80, 0x1F))
    ∧ (let s := withLaunch (fun l => { l with delivered := 1, assigned := [(0, 0)] }) (inLaunch 0 { State.reset with parts := [(0, { resident := some 0 })] });
      match (s.fctxAt 0).launch with
      | none => false
      | some l => s.inPlace 0 && l.waiting 0 && decide (l.ending = none) && decide (l.unitOf 0 = [0]) && decide (sget? l.assigned 0 = some 0) && l.delivered.getLsbD (0 / 144)
        && decide (s.freeSlot 0 l.nteam = some 0) && decide (l.held = []) && l.assigned.all (fun a => !(l.waiting a.1 && decide (a.2 = 0) && decide ((l.unitOf a.1).headD 0 < 0)))) = true
    ∧ (let s := withLaunch (fun l => { l with delivered := 1, assigned := [(0, 0), (1, 0)], ntask := 2 }) (inLaunch 0 { State.reset with parts := [(0, { resident := some 0 })] });
      match (s.fctxAt 0).launch with
      | none => false
      | some l => l.waiting 0 && l.waiting 1 && decide (sget? l.assigned 1 = some 0) && decide ((l.unitOf 0).headD 0 < 1)) = true := by decide +kernel

/-- Context 0 of partition 0 runs its ring of four words at VA 0, whose first word has in slot 1 a command of this kind, mask and payload;
block 0 of its parameter blocks, at VA 0x1000, holds this. -/
def commanding (kind mask pay block : Nat) : State :=
  let s := tabled State.reset
  let line (n : Nat) : L2Line := ⟨BitVec.ofNat 2048 n, 0, false, 0, 0, 0, 0, false⟩
  { s with mem := { l2 := [(0, line (kind + mask * 16 + pay * 2 ^ 32)), (16, line block), (256, line (leNat range.bytes))] },
           fctxs := [(0, { cpsize := 4, tail := 1, pbase := 0x1000, cstate := .running, csem := [(0, 7)] })] }
def commands (kind mask pay block : Nat) : Bool :=
  let s := commanding kind mask pay block
  let f := s.fctxAt 0
  f.wordPending && (match s.block 0 (f.cpbase.toNat + 16 * (f.head.toNat % f.cpsize.toNat)) 16 with
    | .ok w => decide (fieldAt w 3 1 = 0) && decide (slotsOf w = [⟨1, kind, mask, pay⟩, ⟨2, 0, 0, 0⟩, ⟨3, 0, 0, 0⟩])
    | .error _ => false)
def isOk {α : Type} (x : Except Stop α) : Bool := match x with | .ok _ => true | .error _ => false

/-- A LAUNCH block: entry 0x100, a 1 × 1 × 1 grid, 64 bytes of scratch, a team of 1 and the record at VA 0x2000. -/
def launchBlock : Nat := 0x100 + 2 ^ 64 + 2 ^ 96 + 2 ^ 128 + 64 * 2 ^ 160 + 2 ^ 208 + 0x2000 * 2 ^ 576

/-- At the ends of the ranges of their payloads; then the blocks. -/
theorem witness_RingCommands :
    (∀ x ∈ [(1, 15, 0), (1, 1, 2 ^ 28 - 1), (2, 1, 16), (2, 1, 2 ^ 20 - 1), (3, 1, 16), (3, 1, 2 ^ 20 - 1), (4, 1, 0), (4, 15, 2 ^ 28 - 1), (5, 8, 0), (6, 4, 0)],
      commands x.1 x.2.1 x.2.2 0 = true ∧ x.2.1 < 16)
    ∧ (∀ x ∈ [(7, 2, 0), (8, 1, 2 ^ 28 - 1), (9, 1, 0), (9, 1, 1), (10, 1, 1), (10, 1, 2047), (11, 1, 3), (11, 1, 4), (12, 1, 0), (12, 1, 1)],
      commands x.1 x.2.1 x.2.2 0 = true)
    ∧ ((commanding 2 1 112 0).fctxAt 0).launch = none ∧ 112 / 16 ≤ (sget (0 : Word32) [(0, 7)] (112 % 16)).toNat
    ∧ (sget (0 : Word32) [(0, 7)] (128 % 16)).toNat < 128 / 16
    ∧ isOk ((commanding 1 1 0 launchBlock).parseLaunch 0 0x1000 1) = true ∧ isOk ((commanding 1 1 0 0).parseLaunch 0 0x1000 1) = false
    ∧ isOk ((commanding 4 1 0 0x41).parseSluice 0 0x1000) = false ∧ isOk ((commanding 5 1 0 (2 ^ 250)).parseCpyp 0 0x1000) = false
    ∧ isOk ((commanding 8 1 0 0).parseRound 0 0x1000) = false ∧ (commanding 8 1 0 0).roundWaits 0 0x1000 = false
    ∧ (match (commanding 4 1 0 0x40).parseSluice 0 0x4000 with | .error (.wait _) => true | _ => false) = true
    ∧ isOk ((commanding 4 1 0 0x40).parseSluice 0 0x1000) = true ∧ (inLaunch 0 State.reset).fctxs ≠ [] ∧ isOk ((commanding 5 1 0 (0x100 * 2 ^ 128)).parseCpyp 0 0x1000) = true
    ∧ isOk ((commanding 6 1 0 (1 + 32 * 2 ^ 24 + 2 ^ 80)).parseBkcfg 0 0x1000 (dieOfMask 1)) = true ∧ isOk ((commanding 6 1 0 0).parseBkcfg 0 0x1000 (dieOfMask 1)) = false
    ∧ isOk ((commanding 7 1 0 0).parseBasin 0 0x1000 (dieOfMask 1)) = false ∧ (commanding 9 1 0 0).quietCmds 0 = true
    ∧ ({ commanding 9 1 0 0 with deliveries := [⟨0, 0, 3, 0, 0, 0, 1, .sigq 0 1⟩] } : State).quietCmds 0 = false
    ∧ isOk ((commanding 7 1 0 (1 + 2 ^ 16 + 0x1040 * 2 ^ 64 + 0xFFFFC * (1 + 2 ^ 20 + 2 ^ 40) * 2 ^ 512)).parseBasin 0 0x1000 (dieOfMask 1)) = true
    ∧ (let s := { commanding 8 1 0 (1 + 2 ^ 64 + 0x2000 * 2 ^ 320) with basins := [(0, { sets := [(1, bset)] })] };
      let r : RoundCmd := { k := 0, part := 0, n := 255, handles := [(0, 1)], semv := false, rsem := 0, group := 0, csem := none, recLocs := [], rxrows := 0 };
      s.roundWaits 0 0x1000 = false ∧ isOk (s.parseRound 0 0x1000) = true ∧ ({ s with rounds := [r] } : State).roundWaits 0 0x1000 = true) := by decide +kernel

def delivering (p : Payload) : State :=
  let s := inLaunch 0 State.reset
  { s with deliveries := [⟨5, 0, 3, 0, 0, 0, 1, p⟩], now := 54, basins := [(0, { sets := [(1, bset)] })], parts := [(0, { config := some pconf })] }
def copying (len done : Nat) : CopyJob :=
  { k := 0, die := 0, src := 0, dst := 0x100, len := len, done := done, csem := some 3, tissue := 0, copies := [cached, { cached with entry := { range with base := 0 } }] }

theorem witness_Deliveries :
    (∀ p ∈ [Payload.launch, .sigq 0 65535, .bkcfg 0 1 bset, .bkrelease 0 1, .basin 0 1 ⟨[], []⟩, .round 0, .hostint 1, .cpyp 0 0x100 0x100 none],
      let s := delivering p;
      let d : Delivery := ⟨5, 0, 3, 0, 0, 0, 1, p⟩;
      s.deliveries[0]? = some d ∧ (∀ e ∈ s.deliveries, e.before d = false) ∧ (s.fctxAt d.k).launch.isSome = true ∧ d.die < 4 ∧ s.dev.pcieUp = true
      ∧ s.waitFor none (s.launchWait d.k d.die) = none)
    ∧ (let s := (delivering .launch).modCoreAt 8192 (fun k => { k with l1 := [(11, ⟨.ncDirty, 9, 0⟩)] }); (s.waitFor none (s.launchWait 0 0)).isSome = true)
    ∧ (let s := withLaunch (fun l => { l with ending := some 2, crecLocs := [(⟨.coh, 0x200⟩, 32)] }) (lined (inLaunch 0 State.reset));
      match (s.fctxAt 0).launch with | some l => l.ending.isSome && s.canWrite l.crecLocs | none => false) = true
    ∧ (let s := withLaunch (fun l => { l with delivered := 1, tasks := [(0, .retired 0 0)] }) (inLaunch 0 State.reset);
      match (s.fctxAt 0).launch with | some l => s.launchDone 0 l | none => false) = true
    ∧ (let c : SluiceCmd := { num := 4, va := 0, csem := some 15, waiting := 0 };
      let s : State := { State.reset with fctxs := [(0, { sluiceCmds := [c] })] };
      (s.fctxAt 0).sluiceCmds.find? (fun c => c.waiting = 0) = some c)
    ∧ (∀ x ∈ [(0x100, 0), (0x100, 0x100), (0, 0)],
      let s := { (carding []) with copyjobs := [copying x.1 x.2], mem := { l2 := [(0, ⟨5, 0, false, 0, 0, 0, 0, false⟩), (1, ⟨5, 0, false, 0, 0, 0, 0, false⟩)] } };
      s.copyjobs[0]? = some (copying x.1 x.2) ∧
      (match s.copyPieces (copying x.1 x.2).copies .load ((copying x.1 x.2).src + 0), s.copyPieces (copying x.1 x.2).copies .store ((copying x.1 x.2).dst + 0) with
        | some a, some b => (s.waitFor (some 0) (firstWait [s.agentWait 0 a, s.agentWait 0x100 b])).isNone
          && (({ s with mem := {} } : State).waitFor (some 0) (firstWait [({ s with mem := {} } : State).agentWait 0 a, ({ s with mem := {} } : State).agentWait 0x100 b])).isSome
        | _, _ => false) = true)
    ∧ (carding []).copyPieces [] .load 0 = none := by decide +kernel

def entry : ContextEntry := ⟨true, 1, 8, 10, 10, 16, 65536, 1⟩
/-- Partition 0 whose resident context 0 has run since ptime 0, with other contexts. -/
def sliced (e : List (Nat × FCtx)) (q : Part → Part) : State :=
  { State.reset with fctxs := (0, { entry := some entry, since := some 0, cstate := .running, cpsize := 4, tail := 1, rate := 8 }) :: e,
                     parts := [(0, q { config := some { pconf with contexts := [(0, entry), (1, entry)] }, resident := some 0 })] }
def runnable : FCtx := { entry := some { entry with func := 2 }, cstate := .running, cpsize := 4, tail := 1 }

theorem witness_ContextEvents :
    (∀ n ∈ [0, 22], (∃ n', n' < 23 ∧ 2 ^ (n + 2) = 2 ^ (n' + 2)) ∧ (BitVec.ofNat 25 (2 ^ (n + 2))).toNat = 2 ^ (n + 2))
    ∧ (∀ n, n < 23 → (0 : BitVec 25).toNat ≠ 2 ^ (n + 2)) ∧ (32 : BitVec 52).toNat % 64 ≠ 0
    ∧ (inLaunch 0 State.reset).fctxs.all (fun f => f.2.launch.any (fun l => l.ending.isNone)) = true
    ∧ (let s := sliced [] id;
      let t := sliced [(1, runnable)] id;
      (s.partAt 0).resident = some 0 ∧ (s.fctxAt 0).since = some 0 ∧ (s.fctxAt 0).entry = some entry ∧ (s.partAt 0).expired = none ∧ (s.partAt 0).swapping = none
      ∧ s.eunderSum 0 - (s.fctxAt 0).eunder0 ≤ entry.underlim ∧ s.nextAfter 0 (0 % 64) = none ∧ t.nextAfter 0 (0 % 64) = some 1
      ∧ t.eunderSum 0 - (t.fctxAt 0).eunder0 ≤ entry.underlim)
    ∧ (let s := sliced [(1, runnable)] (fun p => { p with expired := some 100 });
      (s.partAt 0).resident = some 0 ∧ (s.partAt 0).expired = some 100 ∧ (s.partAt 0).swapping = none ∧ s.nextAfter 0 (0 % 64) = some 1
      ∧ 0 ∈ s.stoppers 0 0 ∧ 0 ∉ s.dev.lost ∧ s.freezable 0 = true)
    ∧ (let s := (sliced [(1, runnable)] (fun p => { p with expired := some 100 })).refilled;
      let halt (t : State) : State := { t with cores := (List.range 9).map (fun c => (c, { t.coreAt c with frozen := true })) };
      let u := (halt s).refilled;
      (∀ c ∈ u.stoppers 0 0, u.still c = true) ∧ u.nextAfter 0 (0 % 64) = some 1 ∧ u.waitFor none (firstWait ((u.stoppers 0 0).map u.emptyWait)) = none
      ∧ (halt (sliced [] (fun p => { p with expired := some 100 }))).refilled.nextAfter 0 (0 % 64) = none
      ∧ (let v := u.modCoreAt 0 (fun k => { k with l1 := [(11, ⟨.ncDirty, 9, 0⟩)] }); (v.waitFor none (firstWait ((v.stoppers 0 0).map v.emptyWait))).isSome = true))
    ∧ (let s := sliced [(1, runnable)] (fun p => { p with resident := none }); (s.partAt 0).swapping = none ∧ (s.partAt 0).resident = none ∧ s.refilled.firstRunnable 0 = some 0)
    ∧ (let s := sliced [] (fun p => { p with swapping := some 0 });
      (s.partAt 0).swapping = some 0 ∧ (∀ c ∈ s.stoppers 0 0, s.againWait c = none))
    ∧ (let s := sliced [] (fun p => { p with swapping := some 0 });
      (s.partAt 0).swapAt + 12000 < ({ s with now := 9 * 12001 } : State).now / 9)
    ∧ (let u := fetching false none;
      let s : State := { u with parts := u.parts.map (fun p => (p.1, { p.2 with swapping := some 0 })) };
      (s.partAt 0).swapping = some 0 ∧ (s.stoppers 0 0).find? (fun c => (s.againWait c).isSome) = some 0 ∧ (s.againWait 0).isSome = true)
    ∧ (let s := sliced [] id; s.parts.length = 1 ∧ ∀ p ∈ s.parts, p.2.resident = some 0 ∧ p.2.swapping = none) := by decide +kernel

/-- Bucket set 1 of partition 0 stands on basin die 2 with this segment 0, and this contribution arrives. -/
def contributing (g : Seg) (c : Contribution) : State :=
  { State.reset with basins := [(2, { sets := [(1, { bset with expect := 2, segs := [(0, g)] })], inbound := [c] })] }
def contribution (round id seg : Nat) : Contribution := { part := 0, handle := 1, round, id, seg, data := [(0x3F800000, false)], ctx := 0, job := 5 }

theorem witness_Contributions :
    (let c := contribution 0 1 0;
      let s := contributing {} c;
      (s.basinAt 2).inbound[0]? = some c ∧ (s.basinAt 2).comesFirst 0 c = false ∧ (s.setAt 2 (c.part * 4096 + c.handle)).map (fun x => (x.seg 0).cnt) = some 0)
    ∧ (∀ x ∈ [((0, 0, 0) : Nat × Nat × Nat), (0, 1, 0), (0, 1, 1), (1, 0, 0), (2, 0, 0), (255, 0, 0)],
      let c := contribution x.1 x.2.1 x.2.2;
      let s := contributing { cnt := 1, bitmap := [0] } c;
      (s.basinAt 2).inbound[0]? = some c ∧ (s.basinAt 2).comesFirst 0 c = false ∧ (s.setAt 2 (c.part * 4096 + c.handle)).isSome = true)
    ∧ bset.mode = 0 ∧ 0 ∈ [0] ∧ 1 ∉ [0] ∧ (0 + 1) % 256 = 1 ∧ 255 ≠ (0 + 1) % 256
    ∧ (let s := (carding []).modCtx (fun c => { c with jobs := [(5, job .active)] }); sget? (s.ctxAt 0).jobs 5 = some (job .active) ∧ (job .active).seq = 5) := by
  decide +kernel

/-- Engine 0 of basin die 2, of its partition's program 0 of these words. -/
def basin (g : Engine) (words : List Word) (seg : Seg) (queue : List (Nat × Nat)) : State :=
  { State.reset with basins := [(2, { sets := [(1, { bset with started := true, segs := [(0, seg)] }), (4097, { bset with part := 1, started := true, segs := [(0, { st := .queued })] })],
                                      progs := [(0, ⟨words, []⟩)], engines := [(0, g)], queue })] }
/-- One move from port src to port dst, and two null moves. -/
def portMoves (src dst : Nat) : Word := BitVec.ofNat 64 (src * 2 ^ 11 + dst * 4 + 0xFFFFC * (2 ^ 20 + 2 ^ 40))

theorem witness_BasinEngineEvents :
    (∀ p ∈ [false, true],
      let s := basin {} [] { st := .queued, poisonf := p } [(1, 0)];
      (s.engineAt 2 0).run = none ∧ (s.basinAt 2).nextQueued (fun _ => true) = some (1, 0) ∧ (s.basinAt 2).saved = []
      ∧ (s.setAt 2 1).map (fun x => (x.seg 0).poisonf) = some p)
    ∧ (∀ x ∈ [(0, 0), (1, 0), (0, 100), (0, 99)],
      let g : Engine := { run := some (1, 0), pc := x.1, retired := x.2 };
      let s := basin g [portMoves 0 1] { st := .running } [];
      s.engineAt 2 0 = g ∧ (s.setAt 2 1).map (fun x => (x.part * 256 + x.prog, x.budget)) = some (0, 100) ∧ wordOk (portMoves 0 1) = true
      ∧ g.stalls (Machine.movesOf (portMoves 0 1)) = false)
    ∧ (match ({ run := some (1, 0) } : Engine).issue bset 0 (portMoves 0 1) with | .ok _ => true | .error _ => false) = true
    ∧ (match ({ run := some (1, 0) } : Engine).issue bset 0 (portMoves 0 0xBE) with | .ok _ => false | .error _ => true) = true
    ∧ (∀ n ∈ [0, 1, 2, 3], Machine.movesOf (portMoves 0x3F 0x3F + BitVec.ofNat 64 n) = [⟨0x3F, 0x3F, n⟩])
    ∧ (∀ u ∈ [0, 1, 2, 3, 4, 5, 8, 9, 10], Machine.movesOf (portMoves 0 (0x82 + 4 * u)) = [⟨0, 0x82 + 4 * u, 0⟩])
    ∧ (∀ e ∈ [UnitEffect.value, .cmp false], ∀ d ∈ [6, 7],
      let r : UnitResult := { unit := 5, due := 7, eff := e };
      let g := (basin { inflight := [r], bcy := d } [] {} []).engineAt 2 0;
      g.inflight = [r] ∧ g.strq = [] ∧ r.eff = e ∧ (r.due ≤ g.bcy ∨ g.bcy < r.due)) := by
  decide +kernel

theorem witness_BasinEngineEvents_rows :
    (∀ n ∈ [0, 2],
      let s := basin { strq := [(1, 3, 0, {})], ldrq := [(n, 3)], run := some (1, 0) } [] { st := .running } [];
      let g := s.engineAt 2 0;
      let pa := (rowLoc 2 (g.base + 3)).pa;
      g.inflight = [] ∧ g.strq = [(1, 3, 0, {})] ∧ (s.setAt 2 1).isSome = true ∧ s.lineBusy (pa / 128) = false ∧ s.lineBusy (pa / 128 + 1) = false
      ∧ ((∀ q ∈ g.ldrq, q.2 = 3 → 1 ≤ q.1) ∨ (∃ q ∈ g.ldrq, q.2 = 3 ∧ q.1 < 1)))
    ∧ (let s := basin { ldrq := [(0, 0)], strq := [(1, 0, 0, {})] } [] {} [];
      let t := { s with mem := { l2 := [((rowLoc 2 0).pa / 256, ⟨5, 0, false, 0, 0, 0, 0, false⟩)] } };
      (t.engineAt 2 0).ldrq = [(0, 0)] ∧ (∀ w ∈ (t.engineAt 2 0).strq, w.2.1 = 0 → 0 ≤ w.1) ∧ s.inL2 (rowLoc 2 0).pa = false ∧ t.lineBusy ((rowLoc 2 0).pa / 128) = false ∧ t.lineBusy ((rowLoc 2 0).pa / 128 + 1) = false ∧ t.inL2 (rowLoc 2 0).pa = true)
    ∧ (∀ x ∈ [(true, none), (false, some HaltReason.brow)],
      let g : Engine := { run := some (1, 0), halting := x.1, halt := x.2 };
      let s := basin g [] { st := .running } [];
      s.engineAt 2 0 = g ∧ (s.setAt 2 1).isSome = true)
    ∧ (let g : Engine := { run := some (1, 0), bcy := 5000 };
      let s := basin g [] { st := .running } [(4097, 0)];
      (s.basinAt 2).nextQueued (fun z => z.part ≠ 0) = some (4097, 0) ∧ (s.setAt 2 4097).map (fun z => (z.seg 0).poisonf) = some false ∧ s.bquant 0 ≤ g.bcy)
    ∧ (let h : Engine := { run := some (1, 0), saving := true };
      let s := (basin {} [] { st := .running } []).modBasin 2 (fun y => { y with saved := [h] });
      (s.engineAt 2 0).run = none ∧ (s.basinAt 2).nextQueued (fun _ => true) = none ∧ (s.basinAt 2).saved = [h] ∧ (s.setAt 2 1).isSome = true) := by
  decide +kernel

def round0 : RoundCmd :=
  { k := 0, part := 0, n := 0, handles := [], semv := false, rsem := 0, group := 0, csem := some 3, recLocs := [(⟨.coh, 0x200⟩, 32)], rxrows := 0, arrived := true }

theorem witness_RoundEvents :
    (∀ off ∈ [0, 12 * 2 ^ 36 - 256], off < 12 * 2 ^ 36 ∧ off % 256 = 0)
    ∧ (let r : GatherRow := ⟨0, 0, 0x100, 5, 0⟩;
      let s := { State.reset with rounds := [round0] };
      State.reset.roundOf r = none ∧ ({ s with rounds := [{ round0 with rxrows := 1 }] } : State).roundOf r = some 0)
    ∧ (let b : Basin := { sets := [(1, { bset with agout := 1 })] };
      b.sets.filter (fun x => x.2.agout ≠ 0) = [(1, { bset with agout := 1 })])
    ∧ (let s := lined { State.reset with rounds := [round0] };
      s.rounds[0]? = some round0 ∧ round0.flip = none ∧ s.roundReady round0 = true ∧ s.flipping 0 = false ∧ s.canWrite round0.recLocs = true
      ∧ s.roundReady { round0 with arrived := false } = false)
    ∧ (let c : RangeChange := { part := 0, time := 0, va := none, flip := true, complete := some 9 };
      let s := lined { State.reset with rounds := [{ round0 with flip := some 1 }], changes := [c], basins := [(2, { sets := [(1, bset)] })] };
      s.changes.find? (fun c => c.part = 0 && c.flip && c.complete.isSome) = some c ∧ s.canWrite round0.recLocs = true ∧ s.setAt 2 1 = some bset) := by
  decide +kernel

/-- Function 1 is bound to context 0 of partition 0, and the link is up. -/
def hosted : State := { State.reset with fctxs := [(0, { entry := some entry })] }

theorem witness_RegisterAccesses :
    (∀ who ∈ [Requester.function 0, .sideband], hosted.reachable who = true ∧ regExists (.basin 12 .duprej) = false ∧ hosted.mayAccess who (.basin 0 .duprej) = true
      ∧ hosted.mayAccess who (.basin 11 .duprej) = true ∧ hosted.mayAccess who (.basin 11 .mth) = true ∧ hosted.mayAccess who (.slice 47 .jkill) = true
      ∧ hosted.mayAccess who (.dev .capevt) = true ∧ hosted.mayAccess who (.dev .pscale) = true ∧ hosted.mayAccess who (.dev .fwsvn) = true)
    ∧ hosted.reachable (.function 1) = true ∧ hosted.mayAccess (.function 1) (.ctx 0 .skewlate) = true ∧ hosted.mayAccess (.function 1) (.ctx 0 .head) = true
    ∧ hosted.mayAccess (.function 1) (.ctx 0 .tail) = true ∧ hosted.mayAccess (.function 1) (.ctx 1 .head) = false ∧ hosted.mayAccess (.function 1) (.dev .pcap) = false
    ∧ entry.func ≠ 2 ∧ (hosted.fctxAt 0).cstate = .stopped ∧ ({ hosted.fctxAt 0 with cstate := .running } : FCtx).cstate ≠ .stopped
    ∧ (Requester.function 1 ≠ .sideband) ∧ hosted.dev.pcieUp = true ∧ 2047 < 2048 ∧ 31 < 32
    ∧ hosted.dev.pcapNext = none ∧ ({ hosted.dev with pcapNext := some (0, hosted.now / 9, true) } : Dev).pcapNext = some (0, hosted.now / 9, true)
    ∧ (let s := { tabled State.reset with dev := { State.reset.dev with log := { base := 0x40, size := 2 } } };
      s.dev.log.size.toNat ≤ 2 ∧ 1 < s.dev.log.size.toNat
      ∧ (match s.readVa 0 .load (pieces (s.dev.log.base.toNat + 64 * 1) 64 64) with | .ok _ => true | .error _ => false) = true)
    ∧ (∀ who ∈ [Requester.function 0, .sideband], hosted.mayAccess who (.basin 11 (.chan 63 .arrayCe)) = true ∧ hosted.mayAccess who (.die 0 (.chan 0 .linkCe)) = true)
    ∧ 0 ∈ linkEnds 0 ∧ 3 ∈ linkEnds 27 ∧ hosted.mayAccess (.function 0) (.die 3 (.chan 27 .linkCe)) = true
    ∧ (State.reset.partAt 31).resident = none ∧ (1 : Word).getLsbD 0 = true ∧ (2 : Word).getLsbD 0 = false := by decide +kernel

/-- The error log's entry as it is ready in L2, waits for its line, and stands where nothing translates. -/
theorem witness_RegisterAccesses_log :
    (∀ x ∈ [((0x40, true, true) : Nat × Bool × Bool), (0x1C0, false, true), (0x40000000, true, false)],
      let u := tabled { State.reset with dev := { State.reset.dev with bootstat := 0x80 } };
      let z : L2Line := ⟨0, 0, false, 0, 0, 0, 0, false⟩;
      let s : State := { u with mem := { u.mem with l2 := [(0, z), (256, { z with data := BitVec.ofNat 2048 (leNat range.bytes) })] },
                                dev := { u.dev with log := { base := BitVec.ofNat 52 x.1, size := 2 } } };
      let ps := pieces (s.dev.log.base.toNat + 64 * 1) 64 64;
      1 < s.dev.log.size.toNat ∧ (s.waitFor (some 0) (s.vaWait 0 .load ps)).isNone = x.2.1
      ∧ (match s.readVa 0 .load ps with | .ok _ => true | .error _ => false) = x.2.2) := by decide +kernel

/-- On basin die 11's pseudo-channel 63: row 0x7FFF has had n ACTs, and its bank is blocked or not. -/
def acted (n : Nat) (b : SMap Nat) : State :=
  { State.reset with basins := [(11, { acts := [(actKey 63 15 0x7FFF, n)], blocked := b })] }
def linked (l : Nat) (x : Link) : State := { State.reset with dev := { State.reset.dev with links := [(l, x)] }, now := 900000 }

theorem witness_RasEvents :
    unitOk 11 63 = true ∧ unitOk 15 19 = true ∧ bankOk 11 63 15 0x7FFF = true ∧ bankOk 11 63 16 0 = false ∧ bankOk 12 20 0 0 = false ∧ bankOk 15 19 0 0x7FFF = true
    ∧ (let s := { State.reset with basins := [(11, { chans := [(63, { retries := 7 })] })] };
      (s.chanAt (chanNo 11 63)).retries = 7 ∧ (s.chanAt (chanNo 11 0)).retries < 7)
    ∧ (let s := acted 0 [];
      sget? (s.basinAt 11).blocked (bankKey 63 15) = none ∧ sget 0 (s.basinAt 11).acts (actKey 63 15 0x7FFF) < s.mthOf 11
      ∧ s.mthOf 11 ≤ sget 0 ((acted (s.mthOf 11) []).basinAt 11).acts (actKey 63 15 0x7FFF)
      ∧ sget? ((acted 0 [(bankKey 63 15, 100)]).basinAt 11).blocked (bankKey 63 15) = some 100)
    ∧ sget false State.reset.mem.failed (chanNo 11 0) = false ∧ sget false ({ failed := [(chanNo 11 0, true)] } : Mem).failed (chanNo 11 0) = true
    ∧ (∀ l ∈ [0, 27], ((linked l {}).link l).st = .up ∧ ((linked l {}).link l).replays < 15 ∧ 15 ≤ ((linked l { replays := 15 }).link l).replays
      ∧ ((linked l { st := .retraining 5 }).link l).st = .retraining 5 ∧ ((linked l { st := .failed }).link l).st ≠ .up)
    ∧ (∀ x ∈ [(100, true), (101, false)],
      let s := { State.reset with dies := [(15, { lastReset := some x.1 })], now := 900900 };
      (s.dieAt 15).lastReset = some x.1 ∧ decide (x.1 + 100000 ≤ s.now / 9) = x.2)
    ∧ (let b : Basin := { alertDue := [(bankKey 63 15, (0x7FFF, none))] };
      let s := { State.reset with basins := [(11, b)] };
      sget? (s.basinAt 11).alertDue (bankKey 63 15) = some (0x7FFF, none) ∧ sget? (s.basinAt 11).blocked (bankKey 63 15) = none ∧ (0x7FFF : Nat) ≠ 5)
    ∧ (let f : FillReq := { line := 7 };
      let b : Basin := { alertDue := [(bankKey 63 15, (0x7FFF, some f))] };
      let s := { State.reset with basins := [(11, b)] };
      sget? (s.basinAt 11).alertDue (bankKey 63 15) = some (0x7FFF, some f) ∧ s.askedRow 11 (bankKey 63 15) 0x7FFF = none)
    ∧ sget? (State.reset.basinAt 11).alertDue (bankKey 0 0) = none
    ∧ (∀ u ∈ [0, 11, 12, 15], unitOk u 0 = true)
    ∧ (let s := { State.reset with basins := [(0, { blocked := [(bankKey 0 0, 5)] })] };
      (s.basinAt 0).scrubnext = 0 ∧ sget? (s.basinAt 0).blocked (bankKey 0 0) ≠ none ∧ sget? (s.basinAt 0).alertDue (bankKey 0 0) = none)
    ∧ (State.reset.waitFor none (State.reset.emptyWait 575)).isNone = true
    ∧ (let s := State.reset.modCoreAt 575 (fun k => { k with l1 := [(11, ⟨.ncDirty, 9, 0⟩)] });
      s.freezable 575 = true ∧ 575 ∉ s.dev.lost ∧ (s.waitFor none (s.emptyWait 575)).isSome = true)
    ∧ (let s := withLaunch (fun l => { l with links := [3] }) (inLaunch 0 (linked 3 { st := .retraining 5 }));
      (s.link 3).st = .retraining 5
      ∧ (match (s.fctxAt 0).launch with | some l => l.ending.isNone && l.links.contains 3 && l.cores.all (fun c => c < 576) | none => false) = true)
    ∧ State.reset.freezable 575 = true ∧ (575 ∉ State.reset.dev.lost) ∧ State.reset.dev.spareUsed.getLsbD (575 / 8) = false
    ∧ ({ State.reset.dev with spareUsed := BitVec.ofNat 72 (2 ^ 71) } : Dev).spareUsed.getLsbD (575 / 8) = true
    ∧ (State.reset.coreAt 575).gated.getLsbD 7 = false ∧ ({ gated := 0x80 } : Core).gated.getLsbD 7 = true := by decide +kernel

theorem witness_RasEvents_lines : ∀ line, State.reset.lineBusy line = false := fun _ => rfl

/-- The boot window, with an image's first bytes. -/
def booting (l : List Byte) : State :=
  { State.reset with dev := { State.reset.dev with powered := true, verifying := true }, mem := { bytes := msets [] (bootAddr 0) l } }
def image (magic len : Nat) : List Byte := leBytes magic 4 ++ leBytes 3 4 ++ leBytes len 4

/-- What the checks of keys, versions and signatures find rests on the ROM's constants, which are open. -/
theorem witness_BootAndPower :
    ((booting []).dev.powered = true ∧ State.reset.dev.powered = false ∧ State.reset.dev.bootstat ≠ 0x80 ∧ State.reset.dev.verifying = false
      ∧ (booting []).dev.verifying = true)
    ∧ leNat (((booting []).window 0 256).take 4) ≠ 0x5A465731
    ∧ (∀ x ∈ [(1, true), (2 ^ 26 - 256, true), (0, false), (2 ^ 26 - 255, false)],
      let h := (booting (image 0x5A465731 x.1)).window 0 256;
      let len := leNat ((h.drop 8).take 4);
      leNat (h.take 4) = 0x5A465731 ∧ decide (1 ≤ len ∧ len ≤ 2 ^ 26 - 256) = x.2 ∧ leNat (h.drop 183) = 0)
    ∧ (let d := { State.reset.dev with pcieUp := false, intwait := [(0, 1)] }; d.pcieUp = false ∧ d.intwait = [(0, 1)])
    ∧ (State.reset.dev.funcmode.getLsbD 11 = false ∧ State.reset.dev.funcmode.toNat / 256 % 8 ≠ 2 ∧ State.reset.dev.pscale.toNat ≤ 256
      ∧ State.reset.dev.pcap.toNat < (3601 : BitVec 16).toNat ∧ State.reset.dev.pcap.toNat - State.reset.dev.pcap.toNat / 16 ≤ (3375 : BitVec 16).toNat
      ∧ (3374 : BitVec 16).toNat < State.reset.dev.pcap.toNat - State.reset.dev.pcap.toNat / 16)
    ∧ (let d : Dev := { State.reset.dev with islands := [(0, { gated := false, step := 3 })], pscale := 32, funcmode := 0x200 };
      (d.island 0).gated = false ∧ (d.island 0).step ≠ 0 ∧ d.funcmode.toNat / 256 % 8 = 2 ∧ d.pscale.toNat = 32)
    ∧ (let d : Dev := { State.reset.dev with funcmode := 0x800, pscaleRaw := some 40, islandRaw := [(703, 7)] };
      d.funcmode.getLsbD 11 = true ∧ d.pscaleRaw = some 40 ∧ d.islandRaw = [(703, 7)] ∧ { d with pscaleRaw := none }.pscaleRaw = none) := by decide +kernel

theorem witness_Attestation :
    State.reset.dev.bootstat ≠ 0x80
    ∧ (let s := { hosted with dev := { hosted.dev with bootstat := 0x80 } };
      s.dev.bootstat = 0x80 ∧ s.reachable .sideband = true ∧ s.reachable (.function 0) = true ∧ s.reachable (.function 1) = true ∧ s.boundTo 1 = some 0 ∧ s.boundTo 2 = none) := by decide +kernel

/-- Function 1 bound to context 0, the firmware running, partition 0 with its table and the line of VA 0x200 in L2 or not. -/
def trafficked (held : Bool) : State :=
  let z : L2Line := ⟨0, 0, false, 0, 0, 0, 0, false⟩
  let s := tabled { hosted with dev := { hosted.dev with bootstat := 0x80 } }
  { s with mem := { s.mem with l2 := [(0, z)] ++ (if held then [(2, z)] else []) ++ [(256, { z with data := BitVec.ofNat 2048 (leNat range.bytes) })] } }

theorem witness_HostTraffic :
    (let s := trafficked true;
      s.dev.pcieUp = true ∧ s.dev.bootstat = 0x80 ∧ State.reset.dev.bootstat ≠ 0x80 ∧ ([5] : List Byte) ≠ [] ∧ 2 ^ 26 - 1 + 1 ≤ 2 ^ 26
      ∧ (∀ va ∈ [0x10000000, 0x13FFFFFF], 0x10000000 ≤ va ∧ va < 0x14000000))
    ∧ (∀ h ∈ [true, false],
      let s := trafficked h;
      (match s.locsVa 0 .store (pieces 0x200 1 1) with | .ok _ => true | .error _ => false) = true
      ∧ (match s.locsVa 0 .load (pieces 0x200 64 64) with | .ok _ => true | .error _ => false) = true)
    ∧ (∀ h ∈ [true, false], (let s := trafficked h;
      (s.waitFor (some 0) (s.vaWait 0 .store (pieces 0x200 1 1))).isNone = h ∧ (s.waitFor (some 0) (s.vaWait 0 .load (pieces 0x200 64 64))).isNone = h
      ∧ (s.waitFor none (firstWait ((windowPlaces 0x200 1).map (fun p => s.locWait p.1)))).isNone = h))
    ∧ (let s := trafficked true;
      (match s.locsVa 0 .store (pieces 0x40000000 1 1) with | .ok _ => false | .error _ => true) = true
      ∧ (match s.locsVa 0 .load (pieces 0x40000000 64 64) with | .ok _ => false | .error _ => true) = true
      ∧ (s.waitFor (some 0) (s.vaWait 0 .store (pieces 0x40000000 1 1))).isNone = true ∧ (s.waitFor (some 0) (s.vaWait 0 .load (pieces 0x40000000 64 64))).isNone = true)
    ∧ 0x200 + 1 ≤ 12 * 2 ^ 36 ∧ 12 * 2 ^ 36 < 12 * 2 ^ 36 + 1
    ∧ (hosted.fctxs.map (·.1)).find? (hosted.bound 1) = some 0 ∧ ctxRegAt 0x10 = some .head ∧ devRegAt 0x340 = some .pcap
    ∧ (let c := { pconf with rtbase := 0x10000, rtcap := 1, contexts := [(0, entry), (63, { entry with func := 256 })], handlers := [], objects := [] };
      let s := State.reset;
      let u := s.loadTable 31 c;
      s.dev.pcieUp = true ∧ (s.partAt 31).resident = none ∧ (s.partAt 31).swapping = none ∧ s.clustersApart 31 c = true ∧ s.contextsLegal 31 c = true
      ∧ tableLegal c = true ∧ s.tableBusy c = false ∧ (u.waitFor (some 31) (u.configWait 31 c)).isNone = true
      ∧ tableLegal { c with rtcap := 0 } = false ∧ s.contextsLegal 31 { c with contexts := [(64, entry)] } = false) := by
  decide +kernel

/-- Core 0 runs a segment of this bundle in its task context 0. -/
def stepping (b : RawBundle) : State := (State.reset.withFetchWord 32 0).placeBundle b

theorem witness_StepRunsDecoded :
    (∀ n ∈ [0, 5, 7], let b := leBytes (2 ^ n) 2 ++ leBytes 0x04092000 (slotBytes n);
      n < 8 ∧ leNat ((b.drop 0).take 2) = 2 ^ n ∧ leNat ((b.drop (0 + 2)).take (slotBytes n)) = (0x04092000 : Word).toNat)
    ∧ (let b : RawBundle := ⟨0, 1, [(0, 0x04092000)]⟩;
      let s := stepping b;
      let a : State := { s with agenda := [], now := max s.now (s.coreAt 0).busy, cur := { core := 0 } };
      let d : State := (match a.core.resident with | some q => a.takeArrivals 0 q 16 | none => a).refilled.landDividers;
      let u : State := { d with cur := { core := 0, slot := 0 } };
      s.agenda = [.core 0] ∧ s.dev.bootstat = 0x80 ∧ s.coreStands 0 = false ∧ d.core.running = some 0 ∧ u.core.stopped = false ∧ u.bankStops = false ∧ u.ctx.pend = []
      ∧ u.ctx.phase = .running ∧ u.ctx.phwait = [] ∧ u.ctx.hold = 0 ∧ u.ctx.bend = false ∧ u.ctx.nextDeferred = none ∧ u.ctx.mmaTrap = none ∧ u.bundle = some b
      ∧ (match u.bundleVerdict b with | .go [(n, .add r)] => n = 0 && r.d = 9 && r.a = 8 | _ => false) = true
      ∧ (match u.bundleVerdict ⟨0, 1, [(0, 0xFFFFFFFF)]⟩ with | .trap x => decide (x.cause = .illegal) | _ => false) = true)
    ∧ (let s := { coded (event .fill) 0x0003028B 0 with agenda := [.jet 0], dev := { State.reset.dev with bootstat := 0x80 } };
      let r : JetRun := { item := event .fill, x := [(1, 0), (2, 0)] };
      let u : State := { s with agenda := [], cur := { jet := 0 } };
      (s.sliceAt 0).run = some r ∧ u.jetFetch 0 r = some (4, 0x0003028B) ∧ (decodeXjet 0x0003028B).isSome = true)
    ∧ (let s : State := { State.reset with dev := { State.reset.dev with bootstat := 0x80 } }; s.agenda = [] ∧ s.moves.isEmpty = false)
    ∧ moveKind (.cctlGo 0) = .firmware ∧ moveKind .powerUp = .control ∧ moveKind .taskRetire = .ctx ∧ 0 ∉ State.reset.dev.lost := by decide +kernel

theorem witness_SlotEffectsFrame :
    (match semOf (.add { g := g0, d := 3, a := 1, b := 2, ta := false, tb := false }) with
      | some m => (let i : Instr := .add { g := g0, d := 3, a := 1, b := 2, ta := false, tb := false };
        let s := issuing 0 0 (two 1 2);
        s.ctx.canUse m.guard (m.srcs.map (·.1) ++ m.dsts) && decide (staticOf i m s = none) && (match m.run s with | .go => true | _ => false) && s.ctx.room m.need
          && s.ctx.jobRoom m.jobs)
      | none => false) = true
    ∧ (match exec (.add { g := g0, d := 3, a := 1, b := 2, ta := false, tb := false }) (issuing 0 0 (two 1 2)) with | .next _ => true | _ => false) = true := by
  decide +kernel

theorem witness_SlotsKeepMemoryForm : (issuing 0 0 four).mem.bytes.wf = true ∧ (semOf (.trap { g := g0, code := 7 })).isSome = true
    ∧ (match exec (.trap { g := g0, code := 7 }) (inLaunch 0x40 (issuing 0 0 four)) with | .next _ => true | _ => false) = true := by decide +kernel

theorem witness_StepsKeepMemoryForm : (stepping ⟨0, 1, [(0, 0x04092000)]⟩).mem.bytes.wf = true
    ∧ (match step (stepping ⟨0, 1, [(0, 0x04092000)]⟩) with | .next _ => true | _ => false) = true := by decide +kernel

/-! ### The spec's worked examples -/

/-- 04, after R77: a block of 300.0, −5.0, 1.0 and 0.0004 under policy 0, and under policy 1 once its count has gone past the threshold. -/
theorem test_mxWorkedConversion :
    (let block := ([0x43960000, 0xC0A00000, 0x3F800000, 0x39D1B717] : List Nat).map f32.num;
      scaleByte 2 block false 0 0 = 0x7F ∧ block.map (mxQuant 2 0x7F { rm := 0 }) = [(0x79, fNX, false), (0xCA, 0, false), (0x38, 0, false), (0, fUF ||| fNX, true)]
      ∧ scaleByte 2 block true 1 0 = 0x7E
      ∧ block.map (mxQuant 2 0x7E { rm := 0 }) = [(0x7E, fOF ||| fNX, false), (0xD2, 0, false), (0x40, 0, false), (0, fUF ||| fNX, true)]) := by decide +kernel

/-- 12, encodings: the memory and matrix words, and the regions and CTL of the PUT card. -/
theorem test_worked_encodings :
    (match decodeMemory 0x6000000014000C00 with | .ok (.mma w) => decide (w.wA = 1 ∧ w.wB = 2 ∧ w.acc = 0 ∧ w.kb = 1 ∧ w.z = true) | _ => false) = true
    ∧ (decodeMemory 0x0209625521000000).toOption = some (.ld { g := ⟨0, false⟩, fn := 2, d := 22, a := 9, x := 21, ta := false, tb := false, f := 0x21000000 })
    ∧ (decodeMemory 0x1000520602000000).toOption = some (.atomAdd { g := ⟨0, false⟩, fn := 0, d := 5, a := 8, x := 6, ta := false, tb := false, f := 0 })
    ∧ parseRegion 0x808FFFC000001000 = ⟨true, false, 0xFFFC000001000, 4096, 8⟩ ∧ parseRegion 0xC08FFFC000001000 = ⟨true, true, 0xFFFC000001000, 4096, 8⟩ := by
  decide +kernel

/-- 05, closing program: DIV of 6 by 3 has n = 3 and latency 10. -/
theorem test_div_latency : divCycles true 6 3 = 10 := by decide +kernel

/-! ### Single steps from reset with an instruction placed where the step fetches -/

def stepped (nbits w : Nat) (f : State → Bool) : Bool := match step (State.reset.withFetchWord nbits w) with | .next t => f t | _ => false

theorem test_reset_memory : State.reset.mem.bytes.wf = true := by decide +kernel
/-- ADD s9, s8, s0: 0 is on its way to s9, for the next cycle. -/
theorem test_step_add : stepped 32 0x04092000 (fun t => (t.ctxAt 0).issued = 1 && (t.ctxAt 0).pend.length = 1 && (t.ctxAt 0).bend) = true := by decide +kernel
/-- 05, closing program: TRAP 7 leaves TRAPCAUSE 0x740. -/
theorem test_step_trap : stepped 32 0xBC000700 (fun t => (t.ctxAt 0).trapcause = 0x740 && (t.ctxAt 0).issued = 0) = true := by decide +kernel
/-- JL2RD x5, x6. -/
theorem test_step_jl2rd : stepped 32 0x0003028B (fun t => match (t.sliceAt 0).run with | some r => r.pc = 4 && r.count = 1 | none => false) = true := by
  decide +kernel
/-- An unassigned opcode. -/
theorem test_step_illegal : stepped 32 0xFC000000 (fun t => (t.ctxAt 0).trapcause = BitVec.ofNat 19 Cause.illegal.code.toNat) = true := by decide +kernel

end Sys2Proof.Tests
end

section
/-! PROOFS. Laws that the proofs below share: sparse maps and folds, what a write to translated locations leaves unchanged, error logs. -/

namespace Sys2Proof.Machine

/-! ### Sparse maps and folds -/

theorem sget_sset {α : Type} (d : α) (m : SMap α) (k j : Nat) (v : α) : sget d (sset m k v) j = if j = k then v else sget d m j := by
  by_cases h : j = k
  · rw [if_pos h, h, sget_sset_same]
  · rw [if_neg h, sget_sset_ne _ _ _ _ _ h]

theorem sget_foldl_sset {α : Type} (d : α) (g : Nat → α) (l : List Nat) (m : SMap α) (j : Nat) :
    sget d (l.foldl (fun m i => sset m i (g i)) m) j = if j ∈ l then g j else sget d m j := by
  induction l generalizing m with
  | nil => simp
  | cons i l ih =>
    rw [List.foldl_cons, ih, sget_sset]
    by_cases hj : j = i <;> simp [hj]

/-- A read of the entries whose keys satisfy p. -/
theorem sget_filter {α : Type} (d : α) (p : Nat → Bool) (m : SMap α) (k : Nat) :
    sget d (m.filter (fun e => p e.1)) k = if p k = true then sget d m k else d := by
  induction m with
  | nil => simp [sget]
  | cons e m ih =>
    obtain ⟨j, v⟩ := e
    by_cases hj : j = k
    · subst hj
      by_cases hp : p j = true <;> simp [hp, sget, ih]
    · by_cases hp : p j = true <;> simp [hp, sget, hj, ih]

/-- What every step of a fold keeps, the fold keeps. -/
theorem foldl_keeps {σ β γ : Type} (f : σ → γ) (g : σ → β → σ) (l : List β) (s : σ) (h : ∀ s x, f (g s x) = f s) :
    f (l.foldl g s) = f s := by
  induction l generalizing s with
  | nil => rfl
  | cons x l ih => rw [List.foldl_cons, ih, h]

/-! ### What a write to translated locations leaves unchanged -/

/-- A part of the state that memory, the cores' caches and the slices' counters do not reach. -/
structure State.BesideCaches {γ : Type} (f : State → γ) : Prop where
  modMem : ∀ (s : State) (g : Mem → Mem), f (s.modMem g) = f s
  modCoreAt : ∀ (s : State) (c : Nat) (g : Core → Core), f (s.modCoreAt c g) = f s
  modSlice : ∀ (s : State) (x : Nat) (g : Slice → Slice), f (s.modSlice x g) = f s

theorem State.besideCaches_dev : State.BesideCaches (·.dev) := ⟨fun _ _ => rfl, fun _ _ _ => rfl, fun _ _ _ => rfl⟩
theorem State.besideCaches_fctxs : State.BesideCaches (·.fctxs) := ⟨fun _ _ => rfl, fun _ _ _ => rfl, fun _ _ _ => rfl⟩

section
variable {γ : Type} {f : State → γ} (hf : State.BesideCaches f)
include hf

theorem State.recallWith_keeps (put : State → Nat → List PByte → State) (hp : ∀ s a l, f (put s a l) = f s) (s : State) (line : Nat) :
    f (s.recallWith put line) = f s := by
  unfold State.recallWith
  split
  · rfl
  · rw [hf.modMem]
    refine foldl_keeps f _ _ _ fun u c => ?_
    rw [State.dropL1, hf.modCoreAt]
    split
    · split
      · exact hp ..
      · rfl
    · rfl

theorem State.homeWr_keeps (s : State) (pa : Nat) (l : List PByte) : f (s.homeWr pa l) = f s := by
  unfold State.homeWr
  have hput : ∀ (s : State) (a : Nat) (b : List PByte), f (s.modMem (fun m => (m.homeWr a b).storeTo a)) = f s :=
    fun s a b => hf.modMem s _
  rw [foldl_keeps f _ _ _ fun u a => (hput _ _ _).trans (State.recallWith_keeps hf _ hput u _), hput]

theorem State.recallNow_keeps (s : State) (line : Nat) : f (s.recallNow line) = f s :=
  State.recallWith_keeps hf _ (State.homeWr_keeps hf) s line

theorem State.countedRecall_keeps (s : State) (line : Nat) : f (s.countedRecall line) = f s := by
  unfold State.countedRecall
  split
  · rw [hf.modSlice, State.recallNow_keeps hf]
  · rfl

theorem State.wrLoc_keeps (s : State) (l : Loc) (b : List PByte) : f (s.wrLoc l b) = f s := by
  unfold State.wrLoc
  dsimp only
  split
  · exact hf.modMem ..
  · rw [State.cohWr, State.homeWr_keeps hf, State.recallNow_keeps hf]
  · exact State.homeWr_keeps hf ..
  · rw [State.homeWr_keeps hf, State.countedRecall_keeps hf]
  · exact hf.modMem ..
  · exact hf.modMem ..

theorem State.wrPieces_keeps (ps : List (Loc × Nat)) : ∀ (s : State) (b : List PByte), f (s.wrPieces ps b) = f s := by
  induction ps with
  | nil => exact fun _ _ => rfl
  | cons p ps ih => exact fun s b => (ih _ _).trans (State.wrLoc_keeps hf s p.1 _)

theorem State.writeVa_keeps (s t : State) (part v : Nat) (b : List Byte) (h : s.writeVa part v b = some t) : f t = f s := by
  unfold State.writeVa at h
  split at h
  · injection h with h
    rw [← h, State.wrPieces_keeps hf]
  · cases h

end

/-! ### Error logs -/

/-- The device's state beside its error log's registers. -/
def Dev.besideLog (d : Dev) : Dev := { d with log := {} }

@[simp] theorem State.setLog_fctxs (s : State) (k : Option Nat) (l : ErrLog) : (s.setLog k l).fctxs = s.fctxs := by cases k <;> rfl
@[simp] theorem State.setLog_besideLog (s : State) (k : Option Nat) (l : ErrLog) : (s.setLog k l).dev.besideLog = s.dev.besideLog := by
  cases k <;> rfl

/-- A record, written or dropped, leaves every part of the state beside the logs and what a memory write reaches. -/
theorem State.writeLog_keeps {γ : Type} {f : State → γ} (hf : State.BesideCaches f)
    (hl : ∀ (s : State) (k : Option Nat) (l : ErrLog), f (s.setLog k l) = f s) (s : State) (w : LogWrite) : f (s.writeLog w) = f s := by
  unfold State.writeLog
  dsimp only
  split
  · exact hl ..
  · split
    · exact hl ..
    · rename_i u hu
      rw [hl, State.writeVa_keeps hf _ _ _ _ _ hu]

theorem State.flushLogs_fctxs (s : State) : s.flushLogs.fctxs = s.fctxs :=
  foldl_keeps State.fctxs _ _ _ fun u w => State.writeLog_keeps State.besideCaches_fctxs State.setLog_fctxs u w

theorem State.flushLogs_besideLog (s : State) : s.flushLogs.dev.besideLog = ({ s.dev with logq := [] } : Dev).besideLog :=
  foldl_keeps (fun u : State => u.dev.besideLog) _ _ _ fun u w =>
    State.writeLog_keeps (f := fun u : State => u.dev.besideLog) ⟨fun _ _ => rfl, fun _ _ _ => rfl, fun _ _ _ => rfl⟩
      State.setLog_besideLog u w

@[simp] theorem State.flushLogs_pcieUp (s : State) : s.flushLogs.dev.pcieUp = s.dev.pcieUp := by
  simpa [Dev.besideLog] using congrArg Dev.pcieUp s.flushLogs_besideLog
@[simp] theorem State.flushLogs_intwait (s : State) : s.flushLogs.dev.intwait = s.dev.intwait := by
  simpa [Dev.besideLog] using congrArg Dev.intwait s.flushLogs_besideLog
@[simp] theorem State.flushLogs_logq (s : State) : s.flushLogs.dev.logq = [] := by
  simpa [Dev.besideLog] using congrArg Dev.logq s.flushLogs_besideLog
@[simp] theorem State.flushLogs_fctxAt (s : State) (k : Nat) : s.flushLogs.fctxAt k = s.fctxAt k := by
  rw [State.fctxAt, State.fctxAt, State.flushLogs_fctxs]

end Sys2Proof.Machine
end

section
/-! PROOFS. Reset, boot, power and the PCIe link (00 R5, R8; 23 R360 to R363, R367 to R370). -/

namespace Sys2Proof.Machine

/-! ### Reset -/

theorem State.reset_ctxAt (k : Nat) : State.reset.ctxAt k = {} := rfl

theorem Ctx.sreg_empty (i : BitVec 6) : ({} : Ctx).sreg i = {} := by
  unfold Ctx.sreg
  split <;> rfl
theorem Ctx.preg_empty_ne (i : BitVec 3) (h : i ≠ 0) : ({} : Ctx).preg i = {} := if_neg h

/-- Settles O57: nothing stands in any map at reset, so that every part reads as its default. -/
theorem resetState : Obligations.ResetState := by
  refine ⟨rfl, Memory.wf_nil, fun _ => rfl, rfl, rfl, rfl, fun k => ?_, fun k => ⟨rfl, fun _ => rfl, rfl, rfl⟩,
    fun k => ⟨rfl, rfl, rfl, rfl, fun _ => rfl⟩, fun p => ⟨rfl, rfl, rfl, rfl⟩, fun b => ⟨rfl, rfl, rfl, rfl⟩,
    fun d => ⟨rfl, rfl⟩, fun x => ⟨rfl, rfl⟩, rfl, rfl, rfl, rfl, rfl, rfl, rfl, fun i => rfl⟩
  rw [State.reset_ctxAt]
  refine ⟨Ctx.sreg_empty, fun i hi => ?_, rfl, fun i => ⟨rfl, rfl, rfl⟩, fun _ _ _ => rfl, rfl, rfl, rfl, rfl, rfl, rfl, rfl, rfl⟩
  rw [Ctx.preg_empty_ne i hi]
  exact ⟨rfl, rfl⟩

/-! ### Power, reset and boot -/

/-- What 23 R361 and log 20 leave after a device reset. -/
theorem State.mget_deviceReset (s : State) (a : Nat) :
    mget s.deviceReset.mem.bytes a = if 2 ^ 50 ≤ a ∧ a < 2 ^ 60 then mget s.mem.bytes a else 0 := by
  have h : mget s.deviceReset.mem.bytes a = if outsideKey a = true then mget s.mem.bytes a else 0 := sget_filter 0 outsideKey _ _
  simpa only [outsideKey, Bool.and_eq_true, decide_eq_true_eq] using h

theorem mgets_drop (m : Memory) (k : Nat) : ∀ a n : Nat, (mgets m a n).drop k = mgets m (a + k) (n - k) := by
  induction k with
  | zero => exact fun _ _ => rfl
  | succ k ih =>
    intro a n
    cases n with
    | zero => simp [mgets]
    | succ n => simp [mgets, ih, Nat.add_right_comm, Nat.add_assoc]

theorem mgets_take (m : Memory) (k : Nat) : ∀ a n : Nat, (mgets m a n).take k = mgets m a (min k n) := by
  induction k with
  | zero => simp [mgets]
  | succ k ih =>
    intro a n
    cases n with
    | zero => simp [mgets]
    | succ n => simp [mgets, ih, Nat.succ_min_succ]

/-- A field of the image's header, as it stands in the window. -/
theorem State.window_field (s : State) (o n : Nat) (h : o + n ≤ 256) : ((s.window 0 256).drop o).take n = s.window o n := by
  unfold State.window
  rw [mgets_drop, mgets_take, show min n (256 - o) = n by omega]
  rfl

theorem State.bootBody_eq (s : State) : s.bootBody = s.window 256 (leNat (((s.window 0 256).drop 8).take 4)) := by
  rw [s.window_field 8 4 (by omega)]
  rfl

/-- The reserved bytes end the header. -/
theorem State.reserved_field (s : State) : fieldAt (s.window 0 256) 183 73 = leNat ((s.window 0 256).drop 183) := by
  unfold fieldAt
  rw [List.take_of_length_le (by simp [State.window])]

/-- A header that passes the first check: magic number, length and reserved bytes. -/
def State.headerOk (s : State) : Prop :=
  let h := s.window 0 256
  leNat (h.take 4) = 0x5A465731 ∧ 1 ≤ leNat ((h.drop 8).take 4) ∧ leNat ((h.drop 8).take 4) ≤ bootWindow - 256 ∧ leNat (h.drop 183) = 0

theorem State.bootCheck_of_not_headerOk (s : State) (h : ¬ s.headerOk) : s.bootCheck = some 0x01 := by
  unfold State.bootCheck
  refine if_pos (Decidable.byContradiction fun hc => h ?_)
  rw [s.reserved_field] at hc
  simp only [Bool.or_eq_true, decide_eq_true_eq, not_or, Decidable.not_not] at hc
  obtain ⟨⟨⟨hm, hl⟩, hw⟩, hr⟩ := hc
  exact ⟨hm, Nat.one_le_iff_ne_zero.2 hl, Nat.le_of_not_lt hw, hr⟩

/-- Past the first check, the others fail in the order of their codes. -/
theorem State.bootCheck_of_headerOk (s : State) (hok : s.headerOk) :
    let h := s.window 0 256
    let pub := (h.drop 12).take 57
    s.bootCheck =
      if shake256 pub 32 ≠ leBytes Config.keyDigest.toNat 32 then some 0x02
      else if leNat ((h.drop 4).take 4) < Config.minSvn then some 0x03
      else if !edVerify Config.ed448Cofactored pub (h.take 69 ++ s.bootBody) ((h.drop 69).take 114) then some 0x04
      else none := by
  obtain ⟨hm, hl, hw, hr⟩ := hok
  unfold State.bootCheck
  refine if_neg ?_
  rw [s.reserved_field]
  simp only [Bool.or_eq_true, decide_eq_true_eq, not_or, Decidable.not_not]
  exact ⟨⟨⟨hm, Nat.one_le_iff_ne_zero.1 hl⟩, Nat.not_lt.2 hw⟩, hr⟩

theorem exec_bootVerifyComplete_some (s : State) (c : Byte) (hv : s.dev.verifying = true) (h : s.bootCheck = some c) :
    exec .bootVerifyComplete s = .next { s with dev := { s.dev with verifying := false, bootstat := c } } := by
  change execBootVerifyComplete s = _
  simp [execBootVerifyComplete, hv, h]

/-- The firmware starts (23 R362, R363). -/
def State.started (s : State) : State :=
  { s with dev := { s.dev with
    verifying := false, bootstat := 0x80, mr1 := extendMr s.dev.mr1 s.bootBody, fwsvn := BitVec.ofNat 8 (leNat (s.window 4 4)) } }

theorem exec_bootVerifyComplete_none (s : State) (hv : s.dev.verifying = true) (h : s.bootCheck = none) :
    exec .bootVerifyComplete s = .next (s.started.gate [648, 649, 650, 651] false) := by
  change execBootVerifyComplete s = _
  simp [execBootVerifyComplete, hv, h, State.started]

/-! ### Islands -/

theorem Dev.island_setIslands (d : Dev) (l : List Nat) (f : Island → Island) (i : Nat) :
    (d.setIslands l f).island i = if i ∈ l then f (d.island i) else d.island i :=
  sget_foldl_sset _ (fun j => f (d.island j)) l d.islands i

/-- A core island that runs. -/
def Dev.runs (d : Dev) (i : Nat) : Bool := decide (i < 648) && !(d.island i).gated

theorem Dev.mem_coreIslands (d : Dev) (i : Nat) : i ∈ d.coreIslands ↔ d.runs i = true := by
  simp [Dev.coreIslands, Dev.runs]

/-- A core island runs and has a step to give. -/
def Dev.slowable (d : Dev) : Prop := ∃ i, d.runs i = true ∧ (d.island i).step ≠ 0

theorem Dev.slowable_iff (d : Dev) : d.coreIslands.any (fun i => (d.island i).step ≠ 0) = true ↔ d.slowable := by
  simp only [Dev.slowable, List.any_eq_true, d.mem_coreIslands, decide_eq_true_eq]

/-! ### The PCIe link -/

theorem exec_pcieLinkChange_up (s : State) (k n : Nat) (hd : s.dev.pcieUp = false) (hw : s.dev.intwait = [(k, n)]) :
    exec (.pcieLinkChange true) s = .next (({ s with dev := { s.dev with pcieUp := true, intwait := [] } } : State).flushLogs.msix k n) := by
  change execPcieLinkChange true s = _
  simp [execPcieLinkChange, hd, hw]

theorem State.msix_up (s : State) (k n : Nat) (h : s.dev.pcieUp = true) :
    s.msix k n = s.modFctx k (fun f => { f with msix := f.msix ++ [n] }) := if_pos h

/-! ### Power windows (23 R370) -/

/-- Refills reach the budgets of contexts alone. -/
theorem State.refillTo_keeps {γ : Type} (f : State → γ) (h : ∀ (s : State) (k : Nat) (g : Ctx → Ctx), f (s.modCtxAt k g) = f s)
    (s : State) (n : Nat) : f (s.refillTo n) = f { s with dev := { s.dev with refills := n } } := by
  refine foldl_keeps f _ _ _ fun u p => ?_
  split
  · exact foldl_keeps f _ _ _ fun v x => h v x _
  · rfl

theorem State.refilled_now (s : State) : s.refilled.now = s.now := by
  unfold State.refilled
  split
  · exact State.refillTo_keeps State.now (fun _ _ _ => rfl) s _
  · rfl

theorem State.refilled_dev (s : State) : s.refilled.dev = { s.dev with refills := max s.dev.refills (s.now / 9000) } := by
  unfold State.refilled
  split
  · rw [State.refillTo_keeps State.dev (fun _ _ _ => rfl), Nat.max_eq_right (by omega)]
  · rw [Nat.max_eq_left (by omega)]

/-- POWER_WINDOW: the time, and the window of the device in which the refills that are due have been made. -/
theorem exec_powerWindow (s : State) (pwr : BitVec 16) : ∃ t d, exec (.powerWindow pwr) s = .next t
    ∧ t.now = max s.now (900000 * (s.dev.windows + 1)) ∧ t.dev = Dev.window d pwr
    ∧ d = { s.dev with refills := max s.dev.refills (t.now / 9000) } := by
  refine ⟨_, _, rfl, State.refilled_now _, rfl, ?_⟩
  rw [State.refilled_dev]
  exact congrArg (fun n => ({ s.dev with refills := max s.dev.refills (n / 9000) } : Dev)) (State.refilled_now _).symm

section
variable (d : Dev) (pwr : BitVec 16)

/-- A window over the cap is counted. -/
def Dev.countOver : Dev := if d.pcap.toNat < pwr.toNat then { d with capevt := satInc d.capevt } else d

/-- PSCALE and the islands' steps as a window of measured power p moves them under a cap. -/
def Dev.rescaled (cap p : Nat) : Dev :=
  if d.funcmode.getLsbD 11 then d.expert
  else if cap < p then
    if d.coreIslands.any (fun i => (d.island i).step ≠ 0) && (d.funcmode.toNat / 256 % 8 = 2 || d.pscale.toNat ≤ 32) then d.slower
    else { d with pscale := BitVec.ofNat 9 (max (d.pscale.toNat - 32) 32) }
  else if p < cap - cap / 16 then
    if d.pscale.toNat = 256 then d.faster else { d with pscale := BitVec.ofNat 9 (min (d.pscale.toNat + 16) 256) }
  else d

/-- The window is over, and a written PCAP holds. -/
def Dev.closeWindow : Dev :=
  { d with pwr, pcap := match d.pcapNext with | some x => x.1 | none => d.pcap, pcapNext := none, windows := d.windows + 1 }

@[simp] theorem Dev.closeWindow_pscale : (d.closeWindow pwr).pscale = d.pscale := rfl
@[simp] theorem Dev.closeWindow_island (i : Nat) : (d.closeWindow pwr).island i = d.island i := rfl

theorem Dev.window_eq : d.window pwr = ((d.countOver pwr).rescaled d.pcap.toNat pwr.toNat).closeWindow pwr := rfl

/-- The count leaves the rest of the device. -/
theorem Dev.countOver_keeps {γ : Type} (f : Dev → γ) (h : ∀ (d : Dev) (x : Word32), f { d with capevt := x } = f d) :
    f (d.countOver pwr) = f d := by
  unfold Dev.countOver
  split
  · exact h d _
  · rfl

theorem Dev.countOver_capevt : (d.countOver pwr).capevt =
    if d.pcap.toNat < pwr.toNat ∧ d.capevt ≠ 0xFFFFFFFF then d.capevt + 1 else d.capevt := by
  unfold Dev.countOver satInc
  by_cases ha : d.pcap.toNat < pwr.toNat
  · by_cases hc : d.capevt = 0xFFFFFFFF <;> simp [ha, hc]
  · simp [ha]

@[simp] theorem Dev.countOver_funcmode : (d.countOver pwr).funcmode = d.funcmode := d.countOver_keeps pwr Dev.funcmode fun _ _ => rfl
@[simp] theorem Dev.countOver_pscale : (d.countOver pwr).pscale = d.pscale := d.countOver_keeps pwr Dev.pscale fun _ _ => rfl
@[simp] theorem Dev.countOver_pscaleRaw : (d.countOver pwr).pscaleRaw = d.pscaleRaw := d.countOver_keeps pwr Dev.pscaleRaw fun _ _ => rfl
@[simp] theorem Dev.countOver_islandRaw : (d.countOver pwr).islandRaw = d.islandRaw := d.countOver_keeps pwr Dev.islandRaw fun _ _ => rfl
@[simp] theorem Dev.countOver_pcap : (d.countOver pwr).pcap = d.pcap := d.countOver_keeps pwr Dev.pcap fun _ _ => rfl
@[simp] theorem Dev.countOver_pcapNext : (d.countOver pwr).pcapNext = d.pcapNext := d.countOver_keeps pwr Dev.pcapNext fun _ _ => rfl
@[simp] theorem Dev.countOver_refills : (d.countOver pwr).refills = d.refills := d.countOver_keeps pwr Dev.refills fun _ _ => rfl
@[simp] theorem Dev.countOver_windows : (d.countOver pwr).windows = d.windows := d.countOver_keeps pwr Dev.windows fun _ _ => rfl
@[simp] theorem Dev.countOver_island (i : Nat) : (d.countOver pwr).island i = d.island i :=
  d.countOver_keeps pwr (Dev.island · i) fun _ _ => rfl
@[simp] theorem Dev.countOver_runs (i : Nat) : (d.countOver pwr).runs i = d.runs i := by simp only [Dev.runs, Dev.countOver_island]
@[simp] theorem Dev.countOver_slowable : (d.countOver pwr).slowable ↔ d.slowable := by
  simp only [Dev.slowable, Dev.countOver_runs, Dev.countOver_island]

/-- The device beside PSCALE and the islands. -/
def Dev.besideScale : Dev := { d with pscale := 0, islands := [] }

@[simp] theorem Dev.setIslands_pscale (l : List Nat) (f : Island → Island) : (d.setIslands l f).pscale = d.pscale := rfl
theorem Dev.setIslands_besideScale (l : List Nat) (f : Island → Island) : (d.setIslands l f).besideScale = d.besideScale := rfl

theorem Dev.rescaled_besideScale (cap p : Nat) : (d.rescaled cap p).besideScale = d.besideScale := by
  unfold Dev.rescaled
  split
  · exact foldl_keeps Dev.besideScale _ _ _ fun _ _ => Dev.setIslands_besideScale ..
  · split
    · split
      · exact Dev.setIslands_besideScale ..
      · rfl
    · split
      · split
        · exact Dev.setIslands_besideScale ..
        · rfl
      · rfl

theorem Dev.expert_pscale : d.expert.pscale.toNat = match d.pscaleRaw with | some x => min 256 (max 32 x.toNat) | none => d.pscale.toNat := by
  have h : d.expert.pscale = match d.pscaleRaw with | some x => BitVec.ofNat 9 (min 256 (max 32 x.toNat)) | none => d.pscale :=
    foldl_keeps Dev.pscale _ _ _ fun _ _ => rfl
  rw [h]
  cases d.pscaleRaw with
  | none => rfl
  | some x => exact Nat.mod_eq_of_lt (by omega)

theorem Dev.expert_island (i : Nat) (x : BitVec 4) (h : d.islandRaw = [(i, x)]) (j : Nat) :
    d.expert.island j = if j = i then { d.island i with step := x } else d.island j := by
  simp only [Dev.expert, h, List.foldl_cons, List.foldl_nil, Dev.island_setIslands, List.mem_singleton]
  split
  · rename_i hj
    rw [hj]
    rfl
  · rfl

@[simp] theorem Dev.slower_pscale : d.slower.pscale = d.pscale := Dev.setIslands_pscale ..
@[simp] theorem Dev.faster_pscale : d.faster.pscale = d.pscale := Dev.setIslands_pscale ..

/-- The core islands that run step down together. -/
theorem Dev.slower_island (i : Nat) : d.slower.island i =
    if d.runs i = true then { d.island i with step := BitVec.ofNat 4 ((d.island i).step.toNat - 1) }
    else d.island i := by
  unfold Dev.slower
  simp only [Dev.island_setIslands, d.mem_coreIslands]

theorem Dev.faster_island (i : Nat) : d.faster.island i =
    if d.runs i = true then
      { d.island i with step := BitVec.ofNat 4 (min ((d.island i).step.toNat + 1) 15) }
    else d.island i := by
  unfold Dev.faster
  simp only [Dev.island_setIslands, d.mem_coreIslands]

section
variable (cap p : Nat) (hm : d.funcmode.getLsbD 11 = false)
include hm

/-- Over the cap the islands are slowed, with POWERPRE 2 first and otherwise once PSCALE stands at its least. -/
theorem Dev.rescaled_slower (ha : cap < p) (hs : d.slowable) (hp : d.funcmode.toNat / 256 % 8 = 2 ∨ d.pscale.toNat = 32) :
    d.rescaled cap p = d.slower := by
  have hs := d.slowable_iff.2 hs
  have hp : d.funcmode.toNat / 256 % 8 = 2 ∨ d.pscale.toNat ≤ 32 := hp.imp_right Nat.le_of_eq
  simp only [Dev.rescaled, hm, ha, hs, hp, Bool.false_eq_true, if_true, if_false, Bool.true_and, Bool.or_eq_true, decide_eq_true_eq]

theorem Dev.rescaled_lower (ha : cap < p) (hl : 32 ≤ d.pscale.toNat)
    (hn : ¬(d.slowable ∧ (d.funcmode.toNat / 256 % 8 = 2 ∨ d.pscale.toNat = 32))) :
    d.rescaled cap p = { d with pscale := BitVec.ofNat 9 (max (d.pscale.toNat - 32) 32) } := by
  rw [← d.slowable_iff] at hn
  have hle : d.pscale.toNat ≤ 32 ↔ d.pscale.toNat = 32 := ⟨fun h => Nat.le_antisymm h hl, Nat.le_of_eq⟩
  simp only [Dev.rescaled, hm, ha, Bool.false_eq_true, if_true, if_false, Bool.and_eq_true, Bool.or_eq_true, decide_eq_true_eq, hle, if_neg hn]

theorem Dev.rescaled_rest (ha : ¬ cap < p) (hu : ¬ p < cap - cap / 16) : d.rescaled cap p = d := by
  simp only [Dev.rescaled, hm, ha, hu, Bool.false_eq_true, if_false]

/-- Well under the cap PSCALE rises, and the islands' steps once it is whole. -/
theorem Dev.rescaled_faster (ha : ¬ cap < p) (hu : p < cap - cap / 16) (h : d.pscale = 256) : d.rescaled cap p = d.faster := by
  have h : d.pscale.toNat = 256 := congrArg BitVec.toNat h
  simp only [Dev.rescaled, hm, ha, hu, h, Bool.false_eq_true, if_true, if_false]

theorem Dev.rescaled_raise (ha : ¬ cap < p) (hu : p < cap - cap / 16) (h : d.pscale ≠ 256) :
    d.rescaled cap p = { d with pscale := BitVec.ofNat 9 (min (d.pscale.toNat + 16) 256) } := by
  have h : ¬ d.pscale.toNat = 256 := fun e => h (BitVec.eq_of_toNat_eq e)
  simp only [Dev.rescaled, hm, ha, hu, h, Bool.false_eq_true, if_true, if_false]
end
end

section
variable (d : Dev) (pwr : BitVec 16)

/-- Of what a window measures and takes over, PSCALE and the islands have no part. -/
theorem Dev.window_measures : (d.window pwr).pwr = pwr ∧ (d.window pwr).windows = d.windows + 1
    ∧ (d.window pwr).pcap = (match d.pcapNext with | some x => x.1 | none => d.pcap) ∧ (d.window pwr).pcapNext = none
    ∧ (d.window pwr).refills = d.refills
    ∧ (d.window pwr).capevt = if d.pcap.toNat < pwr.toNat ∧ d.capevt ≠ 0xFFFFFFFF then d.capevt + 1 else d.capevt := by
  have h := (d.countOver pwr).rescaled_besideScale d.pcap.toNat pwr.toNat
  have hw := congrArg Dev.windows h
  have hn := congrArg Dev.pcapNext h
  have hc := congrArg Dev.pcap h
  have hr := congrArg Dev.refills h
  have he := congrArg Dev.capevt h
  simp only [Dev.besideScale, Dev.countOver_windows, Dev.countOver_pcapNext, Dev.countOver_pcap, Dev.countOver_refills,
    Dev.countOver_capevt] at hw hn hc hr he
  rw [Dev.window_eq]
  simp only [Dev.closeWindow, hw, hn, hc, hr, he, and_self]

/-- Expert control sets PSCALE and the islands' steps; the measurement does not. -/
theorem Dev.window_expert (hm : d.funcmode.getLsbD 11 = true) :
    ((d.window pwr).pscale.toNat = match d.pscaleRaw with | some x => min 256 (max 32 x.toNat) | none => d.pscale.toNat)
    ∧ ∀ i x, d.islandRaw = [(i, x)] → ∀ j, (d.window pwr).island j = if j = i then { d.island i with step := x } else d.island j := by
  have hm : (d.countOver pwr).funcmode.getLsbD 11 = true := by simpa using hm
  rw [Dev.window_eq, Dev.rescaled, if_pos hm]
  constructor
  · simpa using (d.countOver pwr).expert_pscale
  · intro i x h j
    simpa using (d.countOver pwr).expert_island i x (by simpa using h) j

section
variable (hm : d.funcmode.getLsbD 11 = false)
include hm

theorem Dev.window_slower (ha : d.pcap.toNat < pwr.toNat) (hs : d.slowable)
    (hp : d.funcmode.toNat / 256 % 8 = 2 ∨ d.pscale.toNat = 32) :
    (d.window pwr).pscale = d.pscale ∧ ∀ i, (d.window pwr).island i =
      if d.runs i = true then { d.island i with step := BitVec.ofNat 4 ((d.island i).step.toNat - 1) }
      else d.island i := by
  rw [Dev.window_eq, Dev.rescaled_slower _ _ _ (by simpa using hm) ha (by simpa using hs) (by simpa using hp)]
  simp only [Dev.closeWindow_pscale, Dev.closeWindow_island, Dev.slower_pscale, Dev.slower_island, Dev.countOver_pscale,
    Dev.countOver_runs, Dev.countOver_island, implies_true, and_self]

theorem Dev.window_lower (ha : d.pcap.toNat < pwr.toNat) (hl : 32 ≤ d.pscale.toNat)
    (hn : ¬(d.slowable ∧ (d.funcmode.toNat / 256 % 8 = 2 ∨ d.pscale.toNat = 32))) :
    (d.window pwr).pscale.toNat = max (d.pscale.toNat - 32) 32 ∧ ∀ i, (d.window pwr).island i = d.island i := by
  rw [Dev.window_eq, Dev.rescaled_lower _ _ _ (by simpa using hm) ha (by simpa using hl) (by simpa using hn), Dev.countOver_pscale]
  exact ⟨Nat.mod_eq_of_lt (by have := d.pscale.isLt; omega), d.countOver_island pwr⟩

theorem Dev.window_rest (ha : ¬ d.pcap.toNat < pwr.toNat) (hu : ¬ pwr.toNat < d.pcap.toNat - d.pcap.toNat / 16) :
    (d.window pwr).pscale = d.pscale ∧ ∀ i, (d.window pwr).island i = d.island i := by
  rw [Dev.window_eq, Dev.rescaled_rest _ _ _ (by simpa using hm) ha hu]
  exact ⟨d.countOver_pscale pwr, d.countOver_island pwr⟩

theorem Dev.window_raise (ha : ¬ d.pcap.toNat < pwr.toNat) (hu : pwr.toNat < d.pcap.toNat - d.pcap.toNat / 16)
    (hl : d.pscale.toNat ≤ 256) :
    (d.window pwr).pscale.toNat = min (d.pscale.toNat + 16) 256 ∧ ∀ i, (d.window pwr).island i =
      if d.runs i = true ∧ d.pscale = 256 then
        { d.island i with step := BitVec.ofNat 4 (min ((d.island i).step.toNat + 1) 15) }
      else d.island i := by
  have hm : (d.countOver pwr).funcmode.getLsbD 11 = false := by simpa using hm
  by_cases h : d.pscale = 256
  · rw [Dev.window_eq, Dev.rescaled_faster _ _ _ hm ha hu (by simpa using h)]
    simp only [Dev.closeWindow_pscale, Dev.closeWindow_island, Dev.faster_pscale, Dev.faster_island, Dev.countOver_pscale,
      Dev.countOver_runs, Dev.countOver_island, h, and_true, implies_true]
    rfl
  · rw [Dev.window_eq, Dev.rescaled_raise _ _ _ hm ha hu (by simpa using h), Dev.countOver_pscale]
    refine ⟨Nat.mod_eq_of_lt (by omega), fun i => (d.countOver_island pwr i).trans ?_⟩
    simp only [h, and_false, if_false]
end
end

/-! ### The boot events -/

theorem exec_powerUp_powered (s : State) (h : s.dev.powered = true) : exec .powerUp s = .next s := if_pos h

theorem exec_powerUp_dark (s : State) (h : s.dev.powered = false) : exec .powerUp s = .next s.deviceReset.startRom :=
  if_neg (by simp [h])

theorem State.bootGo_starts (s : State) (hb : s.dev.bootstat ≠ 0x80) (hv : s.dev.verifying = false) :
    s.bootGo = { s with dev := { s.dev with verifying := true, bootstat := 0x40 } } :=
  if_neg (by simpa [State.booted, hv] using hb)

theorem State.bootGo_ignored (s : State) (h : s.dev.bootstat = 0x80 ∨ s.dev.verifying = true) : s.bootGo = s :=
  if_pos (by simpa [State.booted] using h)

theorem exec_bootVerifyComplete_idle (s : State) (h : s.dev.verifying = false) : exec .bootVerifyComplete s = .next s :=
  if_pos (by simp [h])

/-- Settles O51: the boot checks through the header's fields, and a power window regime by regime. -/
theorem bootAndPower : Obligations.BootAndPower := by
  intro s
  refine ⟨exec_powerUp_powered s, ⟨s.deviceReset.startRom, exec_powerUp_dark s, rfl, ?freshOn, rfl, rfl⟩,
    ⟨s.deviceReset, rfl, ?freshOff, rfl, rfl⟩, fun hb hv => congrArg _ (s.bootGo_starts hb hv),
    fun h => congrArg _ (s.bootGo_ignored h), exec_bootVerifyComplete_idle s,
    fun hv => ⟨fun hm => ?badMagic, fun hl => ?badLength, fun hm hl hw hr => ?goodHeader⟩, rfl, ⟨_, rfl, rfl⟩,
    fun k n hd hw => ?linkUp, fun pwr => ?window⟩
  case freshOn | freshOff =>
    exact ⟨rfl, rfl, rfl, rfl, rfl, rfl, rfl, rfl, rfl, rfl, rfl, rfl, rfl, rfl, s.mget_deviceReset⟩
  case badMagic => exact exec_bootVerifyComplete_some s _ hv (s.bootCheck_of_not_headerOk fun h => hm h.1)
  case badLength =>
    refine exec_bootVerifyComplete_some s _ hv (s.bootCheck_of_not_headerOk fun ⟨_, h1, h2, _⟩ => ?_)
    rcases hl with hl | hl
    · rw [hl] at h1
      exact absurd h1 (by decide)
    · exact Nat.not_lt.2 h2 hl
  case goodHeader =>
    have hc := s.bootCheck_of_headerOk ⟨hm, hl, hw, hr⟩
    refine ⟨fun hk => exec_bootVerifyComplete_some s _ hv (hc.trans (if_pos hk)), fun hk => ?_⟩
    have hc := hc.trans (if_neg (Decidable.not_not.2 hk))
    refine ⟨fun hs => exec_bootVerifyComplete_some s _ hv (hc.trans (if_pos hs)), fun hs => ?_⟩
    have hc := hc.trans (if_neg (Nat.not_lt.2 hs))
    rw [s.bootBody_eq] at hc
    refine ⟨fun hg => exec_bootVerifyComplete_some s _ hv (hc.trans (if_pos (by rw [hg]; rfl))), fun hg => ?_⟩
    have hx := exec_bootVerifyComplete_none s hv (hc.trans (if_neg (by rw [hg]; decide)))
    refine ⟨_, hx, rfl, rfl, rfl, ?_, rfl, ?_, fun i hi => ?_⟩
    · exact congrArg (extendMr s.dev.mr1) s.bootBody_eq
    · exact congrArg (fun b => BitVec.ofNat 8 (leNat b)) (s.window_field 4 4 (by decide)).symm
    · exact congrArg Island.gated ((Dev.island_setIslands _ _ _ i).trans (if_pos hi))
  case linkUp =>
    refine ⟨_, exec_pcieLinkChange_up s k n hd hw, ?_⟩
    rw [State.msix_up _ _ _ (State.flushLogs_pcieUp _)]
    refine ⟨State.flushLogs_pcieUp _, State.flushLogs_intwait _, State.flushLogs_logq _, ?_, fun j hj => ?_⟩
    · rw [State.modFctx_same, State.flushLogs_fctxAt]
      rfl
    · rw [State.modFctx_ne _ _ _ _ hj, State.flushLogs_fctxAt]
      rfl
  case window =>
    obtain ⟨t, d, ht, hnow, hdev, hd⟩ := exec_powerWindow s pwr
    have hx := d.window_measures pwr
    rw [← hdev, hd] at hx
    obtain ⟨hp, hw, hc, hn, hr, he⟩ := hx
    refine ⟨t, ht, hp, hw, hnow, hc, hn, hr, he.trans (by simp only [decide_eq_true_eq]),
      fun hm hl hu => ⟨fun ⟨ha, hs, hp⟩ => ?_, fun ha hn => ?_, fun ha hb => ?_, fun hb ha => ?_⟩, fun hm => ?_⟩ <;> rw [hdev, hd]
    · exact Dev.window_slower _ pwr hm (of_decide_eq_true ha) hs (hp.imp_left of_decide_eq_true)
    · exact Dev.window_lower _ pwr hm (of_decide_eq_true ha) hl fun ⟨hs, hp⟩ => hn ⟨ha, hs, hp.imp_left decide_eq_true⟩
    · exact Dev.window_rest _ pwr hm (of_decide_eq_false ha) (of_decide_eq_false hb)
    · exact Dev.window_raise _ pwr hm (of_decide_eq_false ha) (of_decide_eq_true hb) hu
    · exact Dev.window_expert _ pwr hm

end Sys2Proof.Machine
end

section
/-! PROOFS. Registers reached from outside the cores (00 R7; 14 R242, R255; 21 R346 to R352; 23 R367 to R370). -/

namespace Sys2Proof.Machine

/-! ### Other places after an update -/

theorem State.modBasin_ne (s : State) (k j : Nat) (f : Basin → Basin) (h : j ≠ k) : (s.modBasin k f).basinAt j = s.basinAt j :=
  sget_smod_ne _ _ _ _ _ h
theorem State.modSlice_ne (s : State) (k j : Nat) (f : Slice → Slice) (h : j ≠ k) : (s.modSlice k f).sliceAt j = s.sliceAt j :=
  sget_smod_ne _ _ _ _ _ h
theorem State.modDie_ne (s : State) (k j : Nat) (f : Die → Die) (h : j ≠ k) : (s.modDie k f).dieAt j = s.dieAt j :=
  sget_smod_ne _ _ _ _ _ h

/-! ### Who may reach what (14 R255; 23 R360, R367) -/

theorem State.reachable_of_mayAccess (s : State) (who : Requester) (a : RegAddr) (h : s.mayAccess who a = true) :
    s.reachable who = true := (Bool.and_eq_true_iff.1 h).1

/-- A context's registers are reached together. -/
theorem State.mayAccess_ctx (s : State) (who : Requester) (k : Nat) (r r' : CtxReg) :
    s.mayAccess who (.ctx k r) = s.mayAccess who (.ctx k r') := by
  cases who <;> rfl

theorem State.mayAccess_unbound (s : State) (f k : Nat) (r : CtxReg)
    (h : ∀ e, (s.fctxAt k).entry = some e → e.valid = true → e.func ≠ f) : s.mayAccess (.function f) (.ctx k r) = false := by
  have hb : s.bound f k = false := by
    unfold State.bound
    split
    · rename_i e he
      by_cases hv : e.valid = true
      · simp [h e he hv]
      · simp [hv]
    · rfl
  simp [State.mayAccess, hb]

theorem State.mayAccess_dev_ne (s : State) (f : Nat) (r : DevReg) (h : f ≠ 0) : s.mayAccess (.function f) (.dev r) = false := by
  simp [State.mayAccess, h]

theorem State.mayAccess_sideband_ctx (s : State) (k : Nat) (r : CtxReg) : s.mayAccess .sideband (.ctx k r) = false := rfl

/-- The physical function reaches the registers of partitions, the device and its dies while the PCIe link is up. -/
theorem State.mayAccess_physical (s : State) (h : s.dev.pcieUp = true) :
    (∀ p r, s.mayAccess (.function 0) (.part p r) = true) ∧ (∀ r, s.mayAccess (.function 0) (.dev r) = true)
    ∧ ∀ d r, s.mayAccess (.function 0) (.die d r) = true := by
  simp [State.mayAccess, State.reachable, h]

/-! ### Reads -/

/-- A read answers and leaves memory, contexts and cores. -/
def State.Answers (s : State) (i : Instr) (who : Requester) (x : List Byte) (t : State) : Prop :=
  exec i s = .next t ∧ t.dev.answers = { who, data := x } :: s.dev.answers ∧ t.mem = s.mem ∧ t.ctxs = s.ctxs ∧ t.cores = s.cores

theorem State.readBy_hidden (s : State) (who : Requester) (a : RegAddr) (hr : s.reachable who = true)
    (h : regExists a = false ∨ s.mayAccess who a = false) : s.readBy who a = s.answer who (leBytes 0 8) := by
  unfold State.readBy
  rcases h with h | h <;> simp [hr, h]

theorem State.readBy_shown (s : State) (who : Requester) (a : RegAddr) (he : regExists a = true) (h : s.mayAccess who a = true) :
    s.readBy who a = (s.readReg a).1.answer who (leBytes (s.readReg a).2 8) := by
  simp [State.readBy, s.reachable_of_mayAccess who a h, he, h]

theorem exec_registerReadClear (s : State) (who : Requester) (a : RegAddr) (he : regExists a = true) (h : s.mayAccess who a = true) :
    exec (.registerReadClear who a) s = .next ((s.readReg a).1.answer who (leBytes (s.readReg a).2 8)) :=
  congrArg _ (s.readBy_shown who a he h)

/-- A part of the state that no read clears. -/
structure State.BesideRegisters {γ : Type} (f : State → γ) : Prop where
  modFctx : ∀ (s : State) (k : Nat) (g : FCtx → FCtx), f (s.modFctx k g) = f s
  modPart : ∀ (s : State) (k : Nat) (g : Part → Part), f (s.modPart k g) = f s
  modBasin : ∀ (s : State) (k : Nat) (g : Basin → Basin), f (s.modBasin k g) = f s
  modDie : ∀ (s : State) (k : Nat) (g : Die → Die), f (s.modDie k g) = f s
  modSlice : ∀ (s : State) (k : Nat) (g : Slice → Slice), f (s.modSlice k g) = f s
  dev : ∀ (s : State) (l : ErrLog) (c : Word32) (x : SMap Link), f { s with dev := { s.dev with log := l, capevt := c, links := x } } = f s

theorem State.besideRegisters_mem : State.BesideRegisters State.mem := by constructor <;> intros <;> rfl
theorem State.besideRegisters_ctxs : State.BesideRegisters State.ctxs := by constructor <;> intros <;> rfl
theorem State.besideRegisters_cores : State.BesideRegisters State.cores := by constructor <;> intros <;> rfl
theorem State.besideRegisters_answers : State.BesideRegisters (fun s => s.dev.answers) := by constructor <;> intros <;> rfl

section
variable {γ : Type} {f : State → γ} (hf : State.BesideRegisters f)
include hf

theorem State.chanReg_keeps (s : State) (ch link die : Nat) (r : ChanReg) : f (s.chanReg ch link die r).1 = f s := by
  unfold State.chanReg
  split
  · exact hf.dev s s.dev.log s.dev.capevt _
  · rfl
  · change f (s.modChan _ _) = f s
    unfold State.modChan
    split
    · exact hf.modBasin ..
    · exact hf.modDie ..

theorem State.readReg_keeps (s : State) (a : RegAddr) : f (s.readReg a).1 = f s := by
  unfold State.readReg
  split
  case h_1 =>
    change f (if _ then _ else _) = f s
    split
    · exact hf.modFctx ..
    · rfl
  case h_2 => exact hf.modPart ..
  case h_4 => exact hf.dev s _ s.dev.capevt s.dev.links
  case h_5 => exact hf.dev s s.dev.log _ s.dev.links
  case h_7 | h_9 => exact State.chanReg_keeps hf ..
  case h_8 => exact hf.modBasin ..
  case h_10 => exact hf.modDie ..
  case h_13 => exact hf.modSlice ..
  all_goals rfl
end

section
variable (s : State) (who : Requester)

theorem State.answers_shown (a : RegAddr) (he : regExists a = true) (h : s.mayAccess who a = true) :
    s.Answers (.registerReadClear who a) who (leBytes (s.readReg a).2 8) ((s.readReg a).1.answer who (leBytes (s.readReg a).2 8)) :=
  ⟨exec_registerReadClear s who a he h, congrArg (_ :: ·) (State.readReg_keeps State.besideRegisters_answers s a),
    State.readReg_keeps State.besideRegisters_mem s a, State.readReg_keeps State.besideRegisters_ctxs s a,
    State.readReg_keeps State.besideRegisters_cores s a⟩

theorem State.read_duprej (b : Nat) (hb : b < 12) (hm : s.mayAccess who (.basin b .duprej) = true) :
    ∃ t, s.Answers (.registerReadClear who (.basin b .duprej)) who (leBytes (s.basinAt b).duprej.toNat 8) t
      ∧ t.basinAt b = { s.basinAt b with duprej := 0 } ∧ ∀ j, j ≠ b → t.basinAt j = s.basinAt j :=
  ⟨_, s.answers_shown who _ (by simp [regExists, hb]) hm, s.modBasin_same b (Basin.cleared · .duprej),
    fun _ hj => s.modBasin_ne b _ (Basin.cleared · .duprej) hj⟩

theorem State.read_mth (b : Nat) (hb : b < 12) (hm : s.mayAccess who (.basin b .mth) = true) :
    ∃ t, s.Answers (.registerReadClear who (.basin b .mth)) who (leBytes (s.basinAt b).mth.toNat 8) t
      ∧ ∀ j, t.basinAt j = s.basinAt j := by
  refine ⟨_, s.answers_shown who _ (by simp [regExists, hb]) hm, fun j => ?_⟩
  by_cases hj : j = b
  · rw [hj]
    exact s.modBasin_same b (Basin.cleared · .mth)
  · exact s.modBasin_ne b _ (Basin.cleared · .mth) hj

theorem State.modChan_same (ch : Nat) (f : Chan → Chan) : (s.modChan ch f).chanAt ch = f (s.chanAt ch) := by
  unfold State.modChan State.chanAt
  split <;> simp

theorem State.read_arrayCe (b pc : Nat) (hb : b < 12) (hpc : pc < 64) (hm : s.mayAccess who (.basin b (.chan pc .arrayCe)) = true) :
    ∃ t, s.Answers (.registerReadClear who (.basin b (.chan pc .arrayCe))) who (leBytes (s.chanAt (chanNo b pc)).arrayCe.toNat 8) t
      ∧ t.chanAt (chanNo b pc) = { s.chanAt (chanNo b pc) with arrayCe := 0 } :=
  ⟨_, s.answers_shown who _ (by simp [regExists, hb, hpc]) hm, s.modChan_same _ _⟩

/-- FAILED channels stay so when PCFAILED is read. -/
theorem State.read_pcfailed (b pc : Nat) (hb : b < 12) (hpc : pc < 64) (hm : s.mayAccess who (.basin b (.chan pc .arrayCe)) = true) :
    exec (.registerReadClear who (.basin b (.chan pc .pcfailed))) s
      = .next (s.answer who (leBytes (if sget false s.mem.failed (chanNo b pc) = true then 1 else 0) 8)) := by
  refine (exec_registerReadClear s who _ (by simp [regExists, hb, hpc]) (by cases who <;> exact hm)).trans ?_
  change Host.Outcome.next (s.answer who (leBytes (sget false s.mem.failed (chanNo b pc)).toNat 8)) = _
  cases sget false s.mem.failed (chanNo b pc) <;> rfl

theorem State.read_linkCe (l d : Nat) (hl : l < 28) (hd : d < 4) (he : d ∈ linkEnds l) (hm : s.mayAccess who (.die d (.chan l .linkCe)) = true) :
    ∃ t, s.Answers (.registerReadClear who (.die d (.chan l .linkCe))) who (leBytes ((s.link l).ce d).toNat 8) t
      ∧ ∀ e, (t.link l).ce e = if e = d then 0 else (s.link l).ce e := by
  refine ⟨_, s.answers_shown who _ (by simp [regExists, hl, hd, he]) hm, fun e => ?_⟩
  change Link.ce (sget {} (smod {} s.dev.links l (fun x => { x with ces := sset x.ces d 0 })) l) e = _
  rw [sget_smod_same]
  exact sget_sset 0 _ _ _ _

theorem State.read_jkill (x : Nat) (hx : x < 48) (hm : s.mayAccess who (.slice x .jkill) = true) :
    ∃ t, s.Answers (.registerReadClear who (.slice x .jkill)) who (leBytes (s.sliceAt x).jkill.toNat 8) t
      ∧ t.sliceAt x = { s.sliceAt x with jkill := 0 } ∧ ∀ j, j ≠ x → t.sliceAt j = s.sliceAt j :=
  ⟨_, s.answers_shown who _ (by simp [regExists, hx]) hm, s.modSlice_same x (Slice.cleared · .jkill),
    fun _ hj => s.modSlice_ne x _ (Slice.cleared · .jkill) hj⟩

theorem State.read_skewlate (k : Nat) (hk : k < 2048) (hm : s.mayAccess who (.ctx k .skewlate) = true) :
    ∃ t, s.Answers (.registerReadClear who (.ctx k .skewlate)) who (leBytes (s.fctxAt k).skewlate.toNat 8) t
      ∧ t.fctxAt k = { s.fctxAt k with skewlate := 0 } ∧ ∀ j, j ≠ k → t.fctxAt j = s.fctxAt j :=
  ⟨_, s.answers_shown who _ (by simp [regExists, hk]) hm, s.modFctx_same k (fun f => { f with skewlate := 0 }),
    fun _ hj => s.modFctx_ne k _ (fun f => { f with skewlate := 0 }) hj⟩
end

/-! ### Writes -/

section
variable (s : State) (who : Requester)

theorem sidebandWrites_iff (a : RegAddr) : sidebandWrites a = true ↔ a = .dev .pcap := by
  unfold sidebandWrites
  split
  · simp
  · rename_i h
    simpa using h

theorem exec_registerWrite (a : RegAddr) (v : Word) (he : regExists a = true) (h : s.mayAccess who a = true) (hw : who ≠ .sideband) :
    exec (.registerWrite who a v) s = .next (s.writeReg who a v) := if_pos (by simp [he, h, hw])

theorem exec_registerWrite_ignored (a : RegAddr) (v : Word)
    (h : regExists a = false ∨ s.mayAccess who a = false ∨ who = .sideband ∧ a ≠ .dev .pcap) : exec (.registerWrite who a v) s = .next s := by
  refine if_neg ?_
  rcases h with h | h | ⟨hw, ha⟩
  · simp [h]
  · simp [h]
  · simp [hw, sidebandWrites_iff, ha]

/-- A write to a register of a context that puts g there and moves nothing else. -/
def State.WritesCtx (k : Nat) (v : Word) (r : CtxReg) (g : FCtx) : Prop :=
  ∃ t, exec (.registerWrite who (.ctx k r) v) s = .next t ∧ t = { s with fctxs := t.fctxs }
    ∧ t.fctxAt k = g ∧ ∀ j, j ≠ k → t.fctxAt j = s.fctxAt j

theorem State.writesCtx_of_modFctx (k : Nat) (v : Word) (r : CtxReg) (f : FCtx → FCtx) (he : regExists (.ctx k r) = true)
    (hm : s.mayAccess who (.ctx k .tail) = true) (hw : who ≠ .sideband) (h : s.writeCtx k r v = s.modFctx k f) :
    s.WritesCtx who k v r (f (s.fctxAt k)) :=
  ⟨_, (exec_registerWrite s who _ v he ((s.mayAccess_ctx who k r .tail).trans hm) hw).trans (congrArg _ h), rfl, s.modFctx_same k f,
    fun _ hj => s.modFctx_ne _ _ _ hj⟩

section
variable (k : Nat) (v : Word) (hk : k < 2048) (hm : s.mayAccess who (.ctx k .tail) = true) (hw : who ≠ .sideband)
include hk hm hw

theorem State.write_tail : s.WritesCtx who k v .tail { s.fctxAt k with tail := v.setWidth 24 } :=
  s.writesCtx_of_modFctx who k v .tail _ (decide_eq_true hk) hm hw rfl

theorem State.write_pbase : s.WritesCtx who k v .pbase { s.fctxAt k with pbase := v.setWidth 52 } :=
  s.writesCtx_of_modFctx who k v .pbase _ (decide_eq_true hk) hm hw rfl

/-- The ring's place changes only while the context is stopped (14 R242). -/
theorem State.write_ring_stopped (h : (s.fctxAt k).cstate = .stopped) :
    s.WritesCtx who k v .cpbase { s.fctxAt k with cpbase := v.setWidth 52 }
      ∧ s.WritesCtx who k v .cpsize { s.fctxAt k with cpsize := v.setWidth 25 } := by
  have hb := s.writesCtx_of_modFctx who k v .cpbase _ (decide_eq_true hk) hm hw rfl
  have hs := s.writesCtx_of_modFctx who k v .cpsize _ (decide_eq_true hk) hm hw rfl
  rw [if_pos h] at hb hs
  exact ⟨hb, hs⟩

theorem State.write_ring_moving (h : (s.fctxAt k).cstate ≠ .stopped) :
    s.WritesCtx who k v .cpbase (s.fctxAt k) ∧ s.WritesCtx who k v .cpsize (s.fctxAt k) := by
  have hb := s.writesCtx_of_modFctx who k v .cpbase _ (decide_eq_true hk) hm hw rfl
  have hs := s.writesCtx_of_modFctx who k v .cpsize _ (decide_eq_true hk) hm hw rfl
  rw [if_neg h] at hb hs
  exact ⟨hb, hs⟩

theorem State.write_csem (n : Nat) (hn : n < 16) : ∃ t, exec (.registerWrite who (.ctx k (.csem n)) v) s = .next t
    ∧ ∀ i, sget 0 (t.fctxAt k).csem i =
      if i = n then satAdd (v.setWidth 32) ((s.fctxAt k).incsOf (s.now / 9) n) else sget 0 (s.fctxAt k).csem i := by
  obtain ⟨t, ht, -, hf, -⟩ := s.writesCtx_of_modFctx who k v (.csem n) _ (by simp [regExists, hk, hn]) hm hw rfl
  refine ⟨t, ht, fun i => ?_⟩
  rw [hf]
  exact sget_sset 0 _ _ _ _
end
end

section
variable (s : State) (v : Word)

/-- A partition's range table register is written while no context of the partition is resident (15 R263). -/
theorem State.write_rtbase (p : Nat) (hp : p < 32) (hu : s.dev.pcieUp = true) :
    ∃ t, exec (.registerWrite (.function 0) (.part p .rtbase) v) s = .next t
    ∧ (t.partAt p).rtbase = if (s.partAt p).resident = none ∧ (s.partAt p).swapping = none then v.setWidth 51 else (s.partAt p).rtbase := by
  refine ⟨_, exec_registerWrite s _ _ v (decide_eq_true hp) ((s.mayAccess_physical hu).1 p _) (by simp), ?_⟩
  change (State.partAt (s.modPart p _) p).rtbase = _
  rw [State.modPart_same, Part.idle]
  by_cases hr : (s.partAt p).resident = none <;> by_cases hs : (s.partAt p).swapping = none <;> simp [hr, hs]

theorem State.write_cmpoff (p : Nat) (hp : p < 32) (hu : s.dev.pcieUp = true) :
    ∃ t, exec (.registerWrite (.function 0) (.part p .cmpoff) v) s = .next t ∧ (t.partAt p).cmpoff = v :=
  ⟨_, exec_registerWrite s _ _ v (decide_eq_true hp) ((s.mayAccess_physical hu).1 p _) (by simp), congrArg Part.cmpoff (s.modPart_same p _)⟩

theorem State.write_elhead (p : Nat) (hp : p < 32) (hu : s.dev.pcieUp = true) :
    ∃ t, exec (.registerWrite (.function 0) (.part p (.log .elhead)) v) s = .next t
      ∧ t.partAt p = { s.partAt p with log := { (s.partAt p).log with head := v.setWidth 16 } } :=
  ⟨_, exec_registerWrite s _ _ v (decide_eq_true hp) ((s.mayAccess_physical hu).1 p _) (by simp), s.modPart_same p _⟩

theorem State.write_reset (d : Nat) (hd : d < 16) (hu : s.dev.pcieUp = true) : exec (.registerWrite (.function 0) (.die d .reset) v) s
    = if v.getLsbD 0 = true then exec (.dieReset d) s else .next s := by
  refine (exec_registerWrite s _ (.die d .reset) v (decide_eq_true hd) ((s.mayAccess_physical hu).2.2 d _) (by simp)).trans ?_
  have hr : exec (.dieReset d) s = .next (s.resetDie d) := if_pos (decide_eq_true hd)
  rw [hr]
  exact apply_ite Host.Outcome.next _ _ _

theorem State.write_island (i : Nat) (hi : i < 704) (hu : s.dev.pcieUp = true) : exec (.registerWrite (.function 0) (.dev (.island i)) v) s
    = .next { s with dev := { s.dev with islandRaw := sset s.dev.islandRaw i (v.setWidth 4) } } :=
  exec_registerWrite s _ _ v (decide_eq_true hi) ((s.mayAccess_physical hu).2.1 _) (by simp)

/-! ### PCAP (23 R367, R370) -/

/-- The state in which a clamped PCAP waits for the next window. -/
def State.putPcap (side : Bool) : State :=
  { s with dev := { s.dev with pcapNext := some (BitVec.ofNat 16 (min 3600 (max 1200 (v.toNat % 65536))), s.now / 9, side) } }

theorem State.setPcap_sideband : s.setPcap .sideband v = s.putPcap v true := rfl

/-- In the ns of a write by the side-band port, the physical function's is dropped. -/
theorem State.setPcap_late (y : BitVec 16) (h : s.dev.pcapNext = some (y, s.now / 9, true)) : s.setPcap (.function 0) v = s := by
  simp [State.setPcap, h, State.ptime]

theorem State.setPcap_physical (h : ∀ y, s.dev.pcapNext ≠ some (y, s.now / 9, true)) : s.setPcap (.function 0) v = s.putPcap v false := by
  unfold State.setPcap
  rcases hn : s.dev.pcapNext with _ | ⟨y, t, side⟩
  · rfl
  · cases side with
    | false => rfl
    | true =>
      have ht : t ≠ s.ptime := fun ht => h y (by rw [hn, ht]; rfl)
      exact if_neg ht

theorem State.setPcap_other (f : Nat) (h : f ≠ 0) : s.setPcap (.function f) v = s := by
  cases f with
  | zero => exact absurd rfl h
  | succ f => rfl

/-! ### Scrubbing, row care and FUNCMODE (21 R350, R352; 23 R368) -/

theorem exec_scrubperWrite_basin (d : Nat) (hd : d < 12) : exec (.scrubperWrite d false v) s
    = .next (s.modBasin d (fun b => { b with scrubper := BitVec.ofNat 16 (max 60 (v.toNat % 65536)) })) := if_pos (decide_eq_true hd)

theorem exec_scrubperWrite_die (d : Nat) (hd : d < 4) : exec (.scrubperWrite d true v) s
    = .next (s.modDie d (fun x => { x with scrubper := BitVec.ofNat 16 (max 60 (v.toNat % 65536)) })) := if_pos (decide_eq_true hd)

theorem exec_mthWrite (d : Nat) (hd : d < 12) : exec (.mthWrite d v) s
    = .next (s.modBasin d (fun x => { x with mth := BitVec.ofNat 16 (max 64 (v.toNat % 65536)) })) := if_pos (decide_eq_true hd)

theorem exec_mthWrite_beyond (d : Nat) (hd : 12 ≤ d) : exec (.mthWrite d v) s = .fault .noSuchUnit := if_neg (by simpa using hd)

/-- A preset's code, or 0 for a reserved one. -/
def presetCode (x lim : Nat) : Nat := if x < lim then x else 0

theorem presetCode_lt (x lim : Nat) (h : 0 < lim) : presetCode x lim < lim := by
  unfold presetCode
  split <;> assumption

/-- The fields of FUNCMODE stand beside one another, each within its width. -/
theorem funcmodeOf_toNat : (funcmodeOf v).toNat = v.toNat / 2048 % 2 * 2048 + presetCode (v.toNat / 256 % 8) 3 * 256
    + v.toNat / 128 % 2 * 128 + presetCode (v.toNat / 16 % 8) 4 * 16 + v.toNat / 8 % 2 * 8 + presetCode (v.toNat % 8) 4 := by
  have ha := presetCode_lt (v.toNat / 256 % 8) 3 (by decide)
  have hb := presetCode_lt (v.toNat / 16 % 8) 4 (by decide)
  have hc := presetCode_lt (v.toNat % 8) 4 (by decide)
  refine Eq.trans (?_ : _ = _ % 2 ^ 12) (Nat.mod_eq_of_lt (by omega))
  rfl

theorem funcmodeOf_bits (i : Nat) (hi : i = 3 ∨ i = 7 ∨ i = 11) : (funcmodeOf v).getLsbD i = v.getLsbD i := by
  have ha := presetCode_lt (v.toNat / 256 % 8) 3 (by decide)
  have hb := presetCode_lt (v.toNat / 16 % 8) 4 (by decide)
  have hc := presetCode_lt (v.toNat % 8) 4 (by decide)
  simp only [← BitVec.testBit_toNat, Nat.testBit_eq_decide_div_mod_eq, funcmodeOf_toNat, decide_eq_decide]
  rcases hi with rfl | rfl | rfl <;> omega

theorem funcmodeOf_presets : ((funcmodeOf v).extractLsb' 0 3).toNat = presetCode (v.toNat % 8) 4
    ∧ ((funcmodeOf v).extractLsb' 4 3).toNat = presetCode (v.toNat / 16 % 8) 4
    ∧ ((funcmodeOf v).extractLsb' 8 3).toNat = presetCode (v.toNat / 256 % 8) 3 := by
  have ha := presetCode_lt (v.toNat / 256 % 8) 3 (by decide)
  have hb := presetCode_lt (v.toNat / 16 % 8) 4 (by decide)
  have hc := presetCode_lt (v.toNat % 8) 4 (by decide)
  simp only [BitVec.extractLsb'_toNat, funcmodeOf_toNat, Nat.shiftRight_eq_div_pow]
  omega

theorem State.setFuncmode_physical : s.setFuncmode (.function 0) v = { s with dev := { s.dev with funcmode := funcmodeOf v } } := rfl

theorem State.setFuncmode_other (who : Requester) (h : who ≠ .function 0) : s.setFuncmode who v = s := if_neg h
end

/-! ### The side-band port (23 R367) -/

section
variable (s : State)

theorem exec_sidebandTelemetryRead (a : RegAddr) (he : regExists a = true) (h : s.mayAccess .sideband a = true) :
    exec (.sidebandTelemetryRead a) s = .next ((s.readReg a).1.answer .sideband (leBytes (s.readReg a).2 8)) :=
  congrArg Host.Outcome.next (s.readBy_shown .sideband a he h)

theorem exec_sidebandTelemetryRead_ctx (k : Nat) (r : CtxReg) :
    exec (.sidebandTelemetryRead (.ctx k r)) s = .next (s.answer .sideband (leBytes 0 8)) :=
  congrArg Host.Outcome.next (s.readBy_hidden .sideband _ rfl (.inr rfl))

theorem State.telemetry_bkheld (b : Nat) (hb : b < 12) : ∃ t, exec (.sidebandTelemetryRead (.basin b .bkheld)) s = .next t
    ∧ t.basinAt b = { s.basinAt b with bkheld := 0 }
    ∧ t.dev.answers = { who := .sideband, data := leBytes (s.basinAt b).bkheld.toNat 8 } :: s.dev.answers :=
  ⟨_, exec_sidebandTelemetryRead s (.basin b .bkheld) (decide_eq_true hb) rfl, s.modBasin_same b (Basin.cleared · .bkheld), rfl⟩

theorem State.telemetry_overruns (c : Nat) (hc : c < 576) :
    exec (.sidebandTelemetryRead (.overruns c)) s = .next (s.answer .sideband (leBytes (s.coreAt c).overruns 8)) :=
  exec_sidebandTelemetryRead s (.overruns c) (decide_eq_true hc) rfl

theorem exec_sidebandErrlogRead_beyond (i : Nat) (h : s.dev.log.size.toNat ≤ i) :
    exec (.sidebandErrlogRead i) s = .next (s.answer .sideband []) := if_pos h

/-- An entry of the log waits for its lines, and is then read where it translates. -/
theorem exec_sidebandErrlogRead_within (i : Nat) (h : i < s.dev.log.size.toNat) :
    let ps := pieces (s.dev.log.base.toNat + 64 * i) 64 64
    let w := s.waitFor (some 0) (s.vaWait 0 .load ps)
    (∀ b, w = none → s.readVa 0 .load ps = .ok b → exec (.sidebandErrlogRead i) s = .next (s.answer .sideband (pvals b)))
    ∧ (∀ e, w = none → s.readVa 0 .load ps = .error e → exec (.sidebandErrlogRead i) s = .next (s.answer .sideband []))
    ∧ ∀ t, w = some t → exec (.sidebandErrlogRead i) s = .next t := by
  have hn : ¬ s.dev.log.size.toNat ≤ i := Nat.not_le.2 h
  refine ⟨fun b hw hr => ?_, fun e hw hr => ?_, fun t hw => ?_⟩ <;> refine (if_neg hn).trans ?_
  · simp only [hw, hr]
  · simp only [hw, hr]
  · simp only [hw]
end

/-- Settles O49: what may be read or written is decided before the register is looked at, and each register's own clause is a lemma above. -/
theorem registerAccesses : Obligations.RegisterAccesses := by
  intro s who
  refine ⟨fun hr => ?reads, s.mayAccess_unbound, fun f hf r => s.mayAccess_dev_ne f r hf, s.mayAccess_sideband_ctx,
    exec_registerWrite_ignored s who, fun k v hk hm hw => ?ctxWrites,
    fun p v hp hu => ⟨s.write_rtbase v p hp hu, s.write_cmpoff v p hp hu, s.write_elhead v p hp hu⟩,
    fun d v => s.write_reset v d, fun i v => s.write_island v i, fun v => ?pcap, fun d v => ?careRegisters, fun v => ?funcmode,
    s.telemetry_bkheld, s.telemetry_overruns, exec_sidebandTelemetryRead_ctx s,
    fun i => ⟨exec_sidebandErrlogRead_beyond s i, exec_sidebandErrlogRead_within s i⟩, rfl⟩
  case reads =>
    exact ⟨fun a h => congrArg _ (s.readBy_hidden who a hr h), s.read_duprej who, s.read_mth who,
      fun b pc hb hpc hm => ⟨s.read_arrayCe who b pc hb hpc hm, s.read_pcfailed who b pc hb hpc hm⟩,
      s.read_linkCe who, s.read_jkill who, s.read_skewlate who,
      fun k hk => exec_registerReadClear s who (.ctx k .head) (decide_eq_true hk),
      fun hm => ⟨_, s.answers_shown who _ rfl hm, rfl⟩,
      exec_registerReadClear s who (.dev .pscale) rfl, exec_registerReadClear s who (.dev .fwsvn) rfl⟩
  case ctxWrites =>
    exact ⟨s.write_tail who k v hk hm hw, s.write_pbase who k v hk hm hw, s.write_ring_stopped who k v hk hm hw,
      s.write_ring_moving who k v hk hm hw, s.write_csem who k v hk hm hw⟩
  case pcap =>
    exact ⟨congrArg Host.Outcome.next (s.setPcap_sideband v), congrArg Host.Outcome.next (s.setPcap_sideband v),
      fun h => congrArg _ (s.setPcap_physical v h),
      fun y h => congrArg _ (s.setPcap_late v y h), fun f hf => congrArg _ (s.setPcap_other v f hf)⟩
  case careRegisters =>
    exact ⟨fun hd => ⟨_, exec_scrubperWrite_basin s v d hd, rfl, s.modBasin_same d _, fun j hj => s.modBasin_ne d j _ hj⟩,
      fun hd => ⟨_, exec_scrubperWrite_die s v d hd, rfl, s.modDie_same d _, fun j hj => s.modDie_ne d j _ hj⟩,
      fun hd => ⟨_, exec_mthWrite s v d hd, rfl, s.modBasin_same d _, fun j hj => s.modBasin_ne d j _ hj⟩,
      exec_mthWrite_beyond s v d⟩
  case funcmode =>
    exact ⟨⟨_, congrArg Host.Outcome.next (s.setFuncmode_physical v), rfl, funcmodeOf_bits v, funcmodeOf_presets v⟩,
      congrArg Host.Outcome.next (s.setFuncmode_other v .sideband (by simp)),
      fun f hf => congrArg Host.Outcome.next (s.setFuncmode_other v (.function f) (by simpa using hf))⟩

end Sys2Proof.Machine
end
